-- ==== Sys2Proof/Word.lean ====
section
/-! DEFINITION. The machine word types of the KV-4824 model. -/

namespace Sys2Proof

/-- One byte of an SPI transfer, a window, a frame or a Firn page. -/
abbrev Byte := BitVec 8

/-- A 32-bit register or sample word. -/
abbrev Word := BitVec 32

end Sys2Proof
end

