-- ==== Sys2Proof/Syntax.lean ====
section
/-! DEFINITION. The commands of the block: one constructor of `Instr` per row of spec/opcode_table.json, with the
operands that reach the device from outside (bytes on a bus, a frame, a sample, a measured level). -/

namespace Sys2Proof

/-- How the host clocks a read (R283, R284): plain, with the number of data bytes it clocks; or the CRC form with COUNT. -/
inductive ReadForm where
  | plain (n : Nat)
  | crc (count : Byte)
  deriving DecidableEq, Repr

/-- The CRC form of a write (R284): the COUNT byte and the check value, `none` when HCS_N rose before its last bit. -/
structure CrcForm where
  count : Byte
  check : Option (BitVec 16)
  deriving DecidableEq, Repr

/-- The samples of one sample tick: the decimated coarse and fine words of the 24 current ports with the fine-path overload flags (R17, R21), the
words of the eight voltage inputs, and the sixteen wideband samples of WB1 and WB2, oldest first, signed, in nV at the pins (R121). -/
structure Samples where
  coarse : Vector Word 24
  fine : Vector Word 24
  ovl : BitVec 24
  volt : Vector Word 8
  wb1 : Vector Word 16 := Vector.replicate 16 0
  wb2 : Vector Word 16 := Vector.replicate 16 0
  deriving DecidableEq, Repr

/-- What settles after power-up (R19): the samples of one port, or of one voltage set (false = A, true = B). -/
inductive SettleUnit where
  | port (p : Fin 24)
  | vset (b : Bool)
  deriving DecidableEq, Repr

/-- The target of a calibration transaction: a circuit or a voltage set (false = A, true = B). -/
inductive CalTarget where
  | cir (c : Fin 24)
  | vset (b : Bool)
  deriving DecidableEq, Repr

/-- The two clocks of R192. -/
inductive ClockSel where
  | legal
  | service
  deriving DecidableEq, Repr

/-- The two ring ports of R249. -/
inductive RingPort where
  | a
  | b
  deriving DecidableEq, Repr

/-- The two rings of R249: the primary ring enters at port A, the secondary at port B. -/
inductive RingSel where
  | primary
  | secondary
  deriving DecidableEq, Repr

/-- A ring frame as received (R255). `violation` is a pair violation of R254, in pair `violAt` of the
correction field; the payload is what stands before EOF, so LEN may disagree with it. -/
structure RxFrame where
  typ : BitVec 4
  sec : Bool
  relay : Bool
  dst : BitVec 6
  src : BitVec 6
  seq : Byte
  len : BitVec 9
  cycle : BitVec 16
  corr : BitVec 64
  payload : List Byte
  crc : Word
  violation : Bool
  violAt : Nat := 0
  deriving DecidableEq, Repr

/-- A preamble detection (R336): the time in ns from the present sample to its wideband tick, and the wideband ticks since the reply's first
sample as the correlator of each input places it. -/
structure ReplyDetection where
  dt : Nat
  lead1 : Nat
  lead2 : Nat
  deriving DecidableEq, Repr

/-- What the modem measures of a reply beside its samples: the SNR in 0.5 dB, which the spec does not define further. -/
structure RxReply where
  snr : Byte
  deriving DecidableEq, Repr

/-- Which side of a crossing leaves reset (R403, R404). -/
inductive CdcSide where
  | source
  | destination
  | both
  deriving DecidableEq, Repr

/-- What the save sequencer measures at the end of a page store: the time since the trigger instant of the save in µs, and KETTLE in mV (R180,
R182, R185). -/
structure SaveMeter where
  us : Nat
  kettle : BitVec 16
  deriving DecidableEq, Repr

/-- An edge of PPS_IN (R235, R237): the time in ns from the present sample, and its polarity. -/
structure PpsEdge where
  dt : Nat
  falling : Bool := false
  deriving DecidableEq, Repr

/-- The commands and events of the KV-4824. MP commands (PING to DBG_DROP) name the tag of the command they execute. -/
inductive Instr where
  /-- REG_READ (R283). -/
  | regRead (addr : Byte) (form : ReadForm)
  /-- REG_WRITE (R283). -/
  | regWrite (addr : Byte) (data : List Byte) (form : Option CrcForm)
  /-- WIN_READ (R283). -/
  | winRead (addr : BitVec 16) (form : ReadForm)
  /-- WIN_WRITE (R290). -/
  | winWrite (addr : BitVec 16) (data : List Byte) (form : Option CrcForm)
  /-- COLD_READ (R289). -/
  | coldRead (addr : BitVec 16) (form : ReadForm)
  /-- UNDEFINED_INSTRUCTION (R283). -/
  | undefinedInstruction (code : Byte)
  /-- CMD_PI_WRITE (R291). -/
  | cmdPiWrite (v : Byte)
  /-- RSP_CI_WRITE (R291). -/
  | rspCiWrite (v : Byte)
  /-- TRIGGER (R289). -/
  | trigger
  /-- FORCE (R287). -/
  | force (v : Byte)
  /-- DESCRIPTOR_CONSUME (R292). -/
  | descriptorConsume
  /-- BAD_OPCODE (R311). -/
  | badOpcode (tag : Fin 64)
  /-- WIN_EXPIRED (R299). -/
  | winExpired
  /-- RELAY_TIMEOUT (R301). -/
  | relayTimeout (tag : Fin 64)
  /-- MP_RESET (R306). -/
  | mpReset
  /-- WATCHDOG_EXPIRY (R435). -/
  | watchdogExpiry
  /-- MP_READY (R415). -/
  | mpReady
  /-- SWAP_COMPLETE (R307). -/
  | swapComplete
  /-- FW_REVERT (R434). -/
  | fwRevert
  /-- PING (R316). -/
  | ping (tag : Fin 64)
  /-- ID_READ (R316). -/
  | idRead (tag : Fin 64)
  /-- LC_READ (R316). -/
  | lcRead (tag : Fin 64)
  /-- LC_OPEN (R420). -/
  | lcOpen (tag : Fin 64)
  /-- SEAL (R420). -/
  | seal (tag : Fin 64)
  /-- UNSEAL_NONCE (R316). -/
  | unsealNonce (tag : Fin 64)
  /-- UNSEAL (R424). -/
  | unseal (tag : Fin 64)
  /-- RETIRE (R420). -/
  | retire (tag : Fin 64)
  /-- CIR_MAP_WRITE (R319). -/
  | cirMapWrite (tag : Fin 64)
  /-- CIR_READ (R317). -/
  | cirRead (tag : Fin 64)
  /-- CIR_SCALE (R56). -/
  | cirScale (tag : Fin 64)
  /-- CIR_LIMITS (R77). -/
  | cirLimits (tag : Fin 64)
  /-- PORT_STATUS (R30). -/
  | portStatus (tag : Fin 64)
  /-- CAL_OPEN (R132). -/
  | calOpen (tag : Fin 64)
  /-- CAL_LOAD (R133). -/
  | calLoad (tag : Fin 64)
  /-- CAL_COMMIT (R134). -/
  | calCommit (tag : Fin 64)
  /-- CAL_ABORT (R138). -/
  | calAbort (tag : Fin 64)
  /-- CAL_STATUS (R138). -/
  | calStatus (tag : Fin 64)
  /-- CAL_INFO (R129). -/
  | calInfo (tag : Fin 64)
  /-- CAL_READ (R320). -/
  | calRead (tag : Fin 64)
  /-- LOG_READ (R146). -/
  | logRead (tag : Fin 64)
  /-- MATCH_ACQUIRE (R26). -/
  | matchAcquire (tag : Fin 64)
  /-- TRC_WRITE (R153). -/
  | trcWrite (tag : Fin 64)
  /-- TRC_READ (R153). -/
  | trcRead (tag : Fin 64)
  /-- TRACE_REF (R155). -/
  | traceRef (tag : Fin 64)
  /-- TRIM_LIM_WRITE (R158). -/
  | trimLimWrite (tag : Fin 64)
  /-- CYCLE_READ (R60). -/
  | cycleRead (tag : Fin 64)
  /-- CYCLE_BLOCKS (R321). -/
  | cycleBlocks (tag : Fin 64)
  /-- SNAP_READ (R321). -/
  | snapRead (tag : Fin 64)
  /-- VIEW_READ (R84). -/
  | viewRead (tag : Fin 64)
  /-- STAT_READ (R321). -/
  | statRead (tag : Fin 64)
  /-- DIR_EVENTS (R321). -/
  | dirEvents (tag : Fin 64)
  /-- CLEAR_TOTALS (R83). -/
  | clearTotals (tag : Fin 64)
  /-- VSET_WRITE (R91). -/
  | vsetWrite (tag : Fin 64)
  /-- CH_WRITE (R93). -/
  | chWrite (tag : Fin 64)
  /-- PQ_READ (R113). -/
  | pqRead (tag : Fin 64)
  /-- HARM_READ (R104). -/
  | harmRead (tag : Fin 64)
  /-- HPOW_READ (R106). -/
  | hpowRead (tag : Fin 64)
  /-- FLICKER_READ (R107). -/
  | flickerRead (tag : Fin 64)
  /-- EVENT_READ (R120). -/
  | eventRead (tag : Fin 64)
  /-- SUPRA_READ (R121). -/
  | supraRead (tag : Fin 64)
  /-- NOISE_READ (R123). -/
  | noiseRead (tag : Fin 64)
  /-- CLK_READ (R193). -/
  | clkRead (tag : Fin 64)
  /-- CLK_DATE (R210). -/
  | clkDate (tag : Fin 64)
  /-- SERVICE_SET (R194). -/
  | serviceSet (tag : Fin 64)
  /-- LEGAL_SET (R220). -/
  | legalSet (tag : Fin 64)
  /-- CLK_CFG_WRITE (R205). -/
  | clkCfgWrite (tag : Fin 64)
  /-- LTRIM_WRITE (R197). -/
  | ltrimWrite (tag : Fin 64)
  /-- LEGAL_PARAMS (R214). -/
  | legalParams (tag : Fin 64)
  /-- WDAY_WRITE (R209). -/
  | wdayWrite (tag : Fin 64)
  /-- ALARM_WRITE (R206). -/
  | alarmWrite (tag : Fin 64)
  /-- CLK_CLEAR (R204). -/
  | clkClear (tag : Fin 64)
  /-- BILL_READ (R223). -/
  | billRead (tag : Fin 64)
  /-- TIME_STATUS (R238). -/
  | timeStatus (tag : Fin 64)
  /-- RT_WRITE (R235). -/
  | rtWrite (tag : Fin 64)
  /-- STEP (R239). -/
  | step (tag : Fin 64)
  /-- TOUT_WRITE (R243). -/
  | toutWrite (tag : Fin 64)
  /-- ASYM_WRITE (R232). -/
  | asymWrite (tag : Fin 64)
  /-- TCOMP_WRITE (R199). -/
  | tcompWrite (tag : Fin 64)
  /-- TC_TABLE_WRITE (R200). -/
  | tcTableWrite (tag : Fin 64)
  /-- FIRN_STATUS (R189). -/
  | firnStatus (tag : Fin 64)
  /-- FIRN_CLEAR (R324). -/
  | firnClear (tag : Fin 64)
  /-- FIRN_READ (R324). -/
  | firnRead (tag : Fin 64)
  /-- FIRN_STORE (R324). -/
  | firnStore (tag : Fin 64)
  /-- RING_STATUS (R273). -/
  | ringStatus (tag : Fin 64)
  /-- RING_HCFG_WRITE (R273). -/
  | ringHcfgWrite (tag : Fin 64)
  /-- ROSTER_READ (R263). -/
  | rosterRead (tag : Fin 64)
  /-- ADDR_RELEASE (R263). -/
  | addrRelease (tag : Fin 64)
  /-- BAL_WRITE (R274). -/
  | balWrite (tag : Fin 64)
  /-- BAL_READ (R277). -/
  | balRead (tag : Fin 64)
  /-- MIRROR_READ (R279). -/
  | mirrorRead (tag : Fin 64)
  /-- MIRROR_PUSH (R281). -/
  | mirrorPush (tag : Fin 64)
  /-- MIRROR_RELEASE (R280). -/
  | mirrorRelease (tag : Fin 64)
  /-- PLC_CFG (R326). -/
  | plcCfg (tag : Fin 64)
  /-- PLC_STATUS (R349). -/
  | plcStatus (tag : Fin 64)
  /-- NODE_ENROL (R353). -/
  | nodeEnrol (tag : Fin 64)
  /-- NODE_RETIRE (R353). -/
  | nodeRetire (tag : Fin 64)
  /-- NODE_READ (R351). -/
  | nodeRead (tag : Fin 64)
  /-- NODE_DATA (R326). -/
  | nodeData (tag : Fin 64)
  /-- NODE_SEND (R349). -/
  | nodeSend (tag : Fin 64)
  /-- PHASE_IDENT (R354). -/
  | phaseIdent (tag : Fin 64)
  /-- TONEMAP_READ (R326). -/
  | tonemapRead (tag : Fin 64)
  /-- DISP_CFG (R391). -/
  | dispCfg (tag : Fin 64)
  /-- DISP_STATUS (R393). -/
  | dispStatus (tag : Fin 64)
  /-- DISP_WRITE (R378). -/
  | dispWrite (tag : Fin 64)
  /-- DISP_UPDATE (R383). -/
  | dispUpdate (tag : Fin 64)
  /-- LUT_LOAD (R374). -/
  | lutLoad (tag : Fin 64)
  /-- UNIF_LOAD (R375). -/
  | unifLoad (tag : Fin 64)
  /-- LEGAL_ITEMS (R392). -/
  | legalItems (tag : Fin 64)
  /-- AUX_SEQ (R357). -/
  | auxSeq (tag : Fin 64)
  /-- AUX_WIN (R363). -/
  | auxWin (tag : Fin 64)
  /-- AUX_READ (R363). -/
  | auxRead (tag : Fin 64)
  /-- AUX_INJECT (R358). -/
  | auxInject (tag : Fin 64)
  /-- S0_CFG (R370). -/
  | s0Cfg (tag : Fin 64)
  /-- S0_READ (R369). -/
  | s0Read (tag : Fin 64)
  /-- CF_WRITE (R463). -/
  | cfWrite (tag : Fin 64)
  /-- CF_READ (R328). -/
  | cfRead (tag : Fin 64)
  /-- FW_INFO (R329). -/
  | fwInfo (tag : Fin 64)
  /-- FW_LOAD (R329). -/
  | fwLoad (tag : Fin 64)
  /-- FW_VERIFY (R433). -/
  | fwVerify (tag : Fin 64)
  /-- FW_SWAP (R330). -/
  | fwSwap (tag : Fin 64)
  /-- DBG_NONCE (R428). -/
  | dbgNonce (tag : Fin 64)
  /-- DBG_AUTH (R428). -/
  | dbgAuth (tag : Fin 64)
  /-- DBG_DROP (R429). -/
  | dbgDrop (tag : Fin 64)
  /-- DEBUG_EXPIRY (R429). -/
  | debugExpiry
  /-- MAKER_KEY_WRITE (R426). -/
  | makerKeyWrite (key : BitVec 512)
  /-- MP_HALT (R427). -/
  | mpHalt
  /-- CYCLE_CLOSE (R71). -/
  | cycleClose (c : Fin 24)
  /-- NOZC_TIMEOUT (R64). -/
  | nozcTimeout (c : Fin 24)
  /-- FIXED_BOUNDARY (R66). -/
  | fixedBoundary (c : Fin 24)
  /-- CF_PULSE (R88). -/
  | cfPulse (o : Fin 8)
  /-- CF_PULSE_END (R86). -/
  | cfPulseEnd (o : Fin 8)
  /-- SETTLING_END (R19). -/
  | settlingEnd (u : SettleUnit)
  /-- MATCH_BLOCK_END (R25). `g` and `d` stand for the estimates where the block's samples do not determine the fit. -/
  | matchBlockEnd (p : Fin 24) (g d : Word)
  /-- MATCH_HOLD_TIMEOUT (R26). -/
  | matchHoldTimeout (p : Fin 24)
  /-- MATCH_STORE (R29). -/
  | matchStore
  /-- ALIGN_LOCK (R44). -/
  | alignLock
  /-- TRACER_BLOCK (R148). The pilot source met its limit of +0.5 V, of -0.5 V, or lost its current (R147, R153). -/
  | tracerBlock (p : Fin 24) (hi lo : Bool) (lost : Bool)
  /-- TRACER_PERIOD_END (R148). `wide` decides between the readings of "spread" where they differ. -/
  | tracerPeriodEnd (p : Fin 24) (wide : Bool)
  /-- TRACER_RAMP_END (R150). -/
  | tracerRampEnd (p : Fin 24)
  /-- TRACER_RETRY (R154). -/
  | tracerRetry (p : Fin 24)
  /-- TRIM_EVALUATION (R156). -/
  | trimEvaluation
  /-- CAL_IDLE_TIMEOUT (R140). -/
  | calIdleTimeout (t : CalTarget)
  /-- STORE_START (R174). -/
  | storeStart
  /-- PAGE_STORE_DONE (R164). -/
  | pageStoreDone (bank : Fin 16) (verified : Bool) (m : SaveMeter)
  /-- GROUP_STORE_DONE (R172). -/
  | groupStoreDone (base : Nat)
  /-- ACCUMULATOR_CHECKPOINT (R186). -/
  | accumulatorCheckpoint
  /-- SCRUBBER_STEP (R187). -/
  | scrubberStep (pass0 pass1 : Bool)
  /-- EARLY_WARNING (R179). -/
  | earlyWarning (dt : Nat) (kettle : BitVec 16)
  /-- BROWN_OUT (R179). -/
  | brownOut (dt : Nat) (kettle : BitVec 16)
  /-- RESET_N_LOW (R414). -/
  | resetNLow (dt : Nat) (kettle : BitVec 16)
  /-- SAVE_COMPLETE (R180): the verify of the RUN_LOG store, and that of its repeat (R169). -/
  | saveComplete (verified again : Bool)
  /-- KETTLE_COLLAPSE (R201). -/
  | kettleCollapse (us : List Nat)
  /-- RESUME (R184). -/
  | resume
  /-- VSUP_VALID (R415). -/
  | vsupValid (leanN ringHead kettleLow : Bool)
  /-- LOADED (R80). -/
  | loaded
  /-- LEAN_N_CHANGE (R412). -/
  | leanNChange (level : Bool)
  /-- WAKE_N (R413). -/
  | wakeN
  /-- PWR_WAKE_TIMEOUT (R413). -/
  | pwrWakeTimeout
  /-- PD_AO_POWER_UP (R202). -/
  | pdAoPowerUp
  /-- VBAK_LOW (R202). -/
  | vbakLow
  /-- CHARGER_THRESHOLD (R203). -/
  | chargerThreshold (mv : Nat)
  /-- ALARM_FIRE (R207). -/
  | alarmFire (n : Fin 4)
  /-- WEEKDAY_ADVANCE (R209). -/
  | weekdayAdvance (c : ClockSel)
  /-- BILLING_BOUNDARY (R222). -/
  | billingBoundary
  /-- BILL_RECORD (R223). -/
  | billRecord
  /-- LEGAL_OFFSET_SAMPLE (R213). -/
  | legalOffsetSample
  /-- TC_UPDATE (R199). -/
  | tcUpdate (theta : Int)
  /-- TC_TEMP_WRITE (R200). -/
  | tcTempWrite
  /-- TC_FALLBACK (R200). -/
  | tcFallback
  /-- OSC_STOPPED (R204). -/
  | oscStopped
  /-- OSC_RESUME (R204). -/
  | oscResume
  /-- SYNC_SEND (R228). -/
  | syncSend
  /-- SYNC_RECEIVED (R230). -/
  | syncReceived (r : RingSel) (f : RxFrame) (dt : Nat)
  /-- SYNC_TIMEOUT (R233). -/
  | syncTimeout
  /-- EPOCH_STORE_RETRY (R227). -/
  | epochStoreRetry
  /-- PPS_EDGE (R237). -/
  | ppsEdge (e : PpsEdge)
  /-- PPS_LOST (R237). -/
  | ppsLost
  /-- STEP_RECEIVED (R239). -/
  | stepReceived (f : RxFrame)
  /-- STEP_TAKES_EFFECT (R240). -/
  | stepTakesEffect
  /-- TOUT_FIRE (R244). -/
  | toutFire (n : Fin 4)
  /-- TOUT_PULSE_END (R244). -/
  | toutPulseEnd (n : Fin 4)
  /-- ALIGN_SEND (R231). -/
  | alignSend (p : RingPort)
  /-- ALIGN_RECEIVED (R256). -/
  | alignReceived (p : RingPort) (f : RxFrame) (dt : Nat)
  /-- LINK_UP (R252). -/
  | linkUp (p : RingPort)
  /-- LINK_DOWN (R252). -/
  | linkDown (p : RingPort) (errors : Nat)
  /-- FRAME_FORWARD (R253). -/
  | frameForward (r : RingSel) (f : RxFrame) (resid : Nat) (inWindow : Bool)
  /-- UNIT_WINDOW (R258). -/
  | unitWindow (r : RingSel) (dt : Nat)
  /-- ENUM_SEND (R262). -/
  | enumSend
  /-- ENUM_RECEIVED (R262). -/
  | enumReceived (f : RxFrame)
  /-- ENUM_REPLY_RECEIVED (R262). -/
  | enumReplyReceived (f : RxFrame)
  /-- IDLE_RECEIVED (R256). -/
  | idleReceived (f : RxFrame)
  /-- ROSTER_ABSENT (R263). -/
  | rosterAbsent (a : Fin 61)
  /-- CLAIM (R264). -/
  | claim (sofSeen : Bool)
  /-- CLAIM_RECEIVED (R265). -/
  | claimReceived (fs : List RxFrame)
  /-- GRANT (R265). -/
  | grant (f : RxFrame)
  /-- REVOKE (R266). -/
  | revoke (f : RxFrame)
  /-- FULL (R265). -/
  | full (f : RxFrame)
  /-- WRAP_REPORT_RECEIVED (R267). -/
  | wrapReportReceived (f : RxFrame)
  /-- WRAP_ANNOUNCE_RECEIVED (R267). -/
  | wrapAnnounceReceived (f : RxFrame)
  /-- WRAP_AT (R267). -/
  | wrapAt
  /-- MBOX_COMMAND_RECEIVED (R300). -/
  | mboxCommandReceived (f : RxFrame)
  /-- MBOX_RESPONSE_RECEIVED (R300). -/
  | mboxResponseReceived (f : RxFrame)
  /-- MBOX_BULK_RECEIVED (R302). -/
  | mboxBulkReceived (f : RxFrame)
  /-- MIRROR_HALF_RECEIVED (R280). -/
  | mirrorHalfReceived (f : RxFrame)
  /-- MIRROR_SEND (R280). -/
  | mirrorSend
  /-- RELAY (R261). -/
  | relay (f : RxFrame)
  /-- BALANCE_INTERVAL_END (R276). -/
  | balanceIntervalEnd
  /-- BALANCE_RECEIVED (R276). -/
  | balanceReceived (f : RxFrame)
  /-- BALANCE_COMPUTE (R277). -/
  | balanceCompute
  /-- PQ_HALF_CYCLE (R98). -/
  | pqHalfCycle (b : Bool)
  /-- TRANSIENT_END (R117). -/
  | transientEnd (b : Bool) (ch : Fin 3)
  /-- PQ_WINDOW_CLOSE (R96). -/
  | pqWindowClose (b : Bool)
  /-- FREQ_INTERVAL_END (R101). -/
  | freqIntervalEnd (b : Bool)
  /-- SUPRA_WINDOW (R121). -/
  | supraWindow
  /-- NOISE_PUBLISH (R123). -/
  | noisePublish
  /-- MP_EVENT_POST (R75). -/
  | mpEventPost
  /-- TURN_START (R346). -/
  | turnStart
  /-- POLL_PREPARE (R350). -/
  | pollPrepare
  /-- EXCHANGE_START (R346). -/
  | exchangeStart
  /-- REPLY_DETECT (R347). -/
  | replyDetect (d : ReplyDetection)
  /-- REPLY_WINDOW_CLOSE (R348). -/
  | replyWindowClose
  /-- REPLY_RECEIVED (R344). -/
  | replyReceived (r : RxReply)
  /-- TONEMAP_REBUILD (R340). -/
  | tonemapRebuild
  /-- DISP_LEDGER_STORED (R383). -/
  | dispLedgerStored
  /-- DISP_RAILS_SETTLED (R383). -/
  | dispRailsSettled
  /-- DISP_FRAME (R372). -/
  | dispFrame
  /-- DISP_UPDATE_END (R383). -/
  | dispUpdateEnd
  /-- DISP_RECORD_CHECK (R386). -/
  | dispRecordCheck
  /-- DISP_REPAIR (R388). -/
  | dispRepair
  /-- CREVASSE_CLOSE (R390). -/
  | crevasseClose
  /-- LEGAL_STRIP_REDRAW (R392). -/
  | legalStripRedraw
  /-- AUX_PASS (R357). -/
  | auxPass
  /-- AUX_INJECTED_SEQ (R358). -/
  | auxInjectedSeq
  /-- HOUSEKEEPING (R359). -/
  | housekeeping (crevasse : Bool)
  /-- AUX_CONVERSION_DONE (R362). -/
  | auxConversionDone (code : BitVec 16) (dt : Nat)
  /-- AUX_CALIBRATION (R360). -/
  | auxCalibration
  /-- S0_PULSE (R367). -/
  | s0Pulse (n : Fin 8)
  /-- CDC_STALL (R399). -/
  | cdcStall (k : Fin 12)
  /-- CDC_RESUME (R402). -/
  | cdcResume (k : Fin 12)
  /-- CDC_REALIGN (R403). -/
  | cdcRealign (k : Fin 12) (side : CdcSide) (dropped : Nat)
  /-- SAMPLE_TICK (R32). -/
  | sampleTick (x : Samples)
  /-- CRYSTAL_TICK (R196). -/
  | crystalTick
  /-- PD_AO_SUPPLY_LOST (R410). -/
  | pdAoSupplyLost
  /-- MP_RESUME (R427). -/
  | mpResume (step : Bool)
  /-- BREAKPOINT_HIT (R427). -/
  | breakpointHit
  /-- REPLY_WINDOW_OPEN (R347). -/
  | replyWindowOpen
  deriving DecidableEq, Repr

end Sys2Proof
end

