-- ==== Sys2Proof/Decode.lean ====
section
/-! DEFINITION. Commands spelled by words. -/

namespace Sys2Proof

/-- The command that a word of `nbits` bits spells. spec/opcode_table.json gives no row any bits: the commands of the block are
transactions and events, and the host's bytes are operands of REG_READ to UNDEFINED_INSTRUCTION (R283, R289, R290). -/
def decodeTableWord (_nbits _w : Nat) : Option Instr := none

end Sys2Proof
end

