-- ==== Sys2Proof/Config.lean ====
section
/-! DEFINITION. What one device fixes at manufacture, and the free values: constants without a body, so that no proof can
see what they are. A free value is applied to the counter `State.fresh`, or to the operands it depends on. Assumption log
rows 2 and 3 list them. -/

namespace Sys2Proof

/-- The unique identifier programmed at manufacture (R250). -/
opaque Config.uid : BitVec 64

/-- True for the -X grade, false for -I (R5, R316). -/
opaque Config.gradeX : Bool

/-- Where in their sample periods the two ends of an interval of the n-th draw lie, in ns: the model knows the instant of a command only to the
sample period it falls in. The second argument tells the intervals of one draw apart. -/
opaque Config.subTick : Nat → Nat → Nat

/-- The n-th nonce drawn from the device's generator (R424, R428). -/
opaque Config.nonce : Nat → BitVec 128

/-- Byte i of a slot whose erase was cut off (R164, R168), for the n-th cut. -/
opaque Config.cutByte : Nat → Nat → Byte

/-- SHA-256, which the spec names and does not define (R433). -/
opaque Config.sha256 : List Byte → BitVec 256

/-- Signature check over a message under a public key (R424, R428, R433): key, message, signature. -/
opaque Config.verifies : BitVec 512 → List Byte → List Byte → Bool

/-- Whether a firmware image carries a good signature of its maker (R433). -/
opaque Config.imageSigned : List Byte → Bool

/-- The 300 Hz second-order low-pass filter of R62: its two state words and an input give the next state words and the
output. The spec fixes order and cut-off, not the coefficients. -/
opaque Config.lowpass300 : Rat × Rat → Rat → (Rat × Rat) × Rat

/-- Cut-off of the four low-pass stages of the quadrature pair for a tuning frequency, as a fraction of it; the model keeps it where the
table of R58 holds. -/
opaque Config.quadWidth : Rat → Rat

/-- Gain errors of v1 and v1q and the quadrature error in radians at a tuning frequency; the model keeps them inside R58. -/
opaque Config.quadError : Rat → Rat × Rat × Rat

/-- The fractional-delay interpolator of R32, R33 for a delay that is no whole sample, in 1/1024 sample, over the samples of the
buffer, newest first, with the place of the undelayed sample in it. -/
opaque Config.delayed : Nat → Int → List Rat → Rat

/-- The fine path advanced by D (2^-16 sample) other than 0 (R26): place of the sample in the buffer, D, buffered fine samples. -/
opaque Config.advanced : Nat → Int → List Int → Rat

/-- The five-tap correction filter of R39 over the last five integrator outputs, newest first. -/
opaque Config.rogowskiFir : List Rat → Rat

/-- The resampling filter of R102 at a position that is no whole sample: position after the first sample, samples of the window, oldest
first. -/
opaque Config.resampled : Rat → List Rat → Rat

/-- PHASE of a channel and order in the n-th drawn result, where R104 gives none: without a reference, for a bin that is 0, and in
aggregates. -/
opaque Config.freePhase : Nat → Nat → Nat → Nat

/-- FREQ of the n-th drawn 150/180-cycle block, which R113 does not define. -/
opaque Config.blockFreq : Nat → Word

/-- Blocks 1 to 4 of the flicker meter, which R107 takes from IEC 61000-4-15: lamp model, nominal frequency (true = 60 Hz), filter state, input
(1.0 = full scale). It gives the next state and Pinst. -/
opaque Config.flickerStep : Bool → Bool → List Rat → Rat → List Rat × Rat

/-- Where in its class, from 0 to 1, a percentile of the n-th drawn Pst lies, for a percentage in tenths (R107). -/
opaque Config.flickerShare : Nat → Nat → Rat

/-- The instant of a first zero crossing of set A before any has been seen, in 1/1024 sample (R334). -/
opaque Config.firstCross : Nat

/-- How much later, in 1/1024 sample, the crossing of the detector comes than that of V1 at the pins: for a reference channel (R354). -/
opaque Config.crossDelay : Nat → Int

/-- The rate, in 2^-40, that the PPS servo wants after the n-th edge with a given error in ns (R237). -/
opaque Config.ppsServo : Nat → Int → Int

/-- How long after the latest sample, in ns modulo 31,250, a crystal tick comes: for a sample tick and a count of the service clock. -/
opaque Config.tickPhase : Nat → Nat → Nat

/-- The n-th reading of the temperature sensor in PD_AO, in 2^-6 °C (R200). -/
opaque Config.sensorTheta : Nat → Int

/-- How many ticks after the first the n-th clock write waits, taken modulo 3 (R194: within 3 ticks). -/
opaque Config.clockWriteTicks : Nat → Nat

/-- A pixel of the legal strip as the MP draws it from its items (R392): the spec gives no font or layout. -/
opaque Config.stripPixel : List Byte → Nat → Byte

end Sys2Proof
end

