-- ==== Sys2Proof/Machine/Bits.lean ====
section
/-! DEFINITION. Bytes, fields, rounding, square roots and check values, as the formats of the spec use them. -/

namespace Sys2Proof.Machine

/-- The low n bytes of v, least significant first (R8). -/
def leBytes : Nat → Nat → List Byte
  | 0, _ => []
  | n + 1, v => BitVec.ofNat 8 v :: leBytes n (v / 256)

/-- The number whose little-endian bytes are given (R8). -/
def leNat : List Byte → Nat
  | [] => 0
  | b :: bs => b.toNat + 256 * leNat bs

/-- n bytes from an offset, bytes past the end read 0. -/
def sliceAt (bs : List Byte) (off n : Nat) : List Byte :=
  ((bs.drop off).take n) ++ List.replicate (n - (bs.length - off)) 0

/-- The n-byte field at an offset. -/
def leAt (bs : List Byte) (off n : Nat) : Nat := leNat ((bs.drop off).take n)

/-- The two's-complement value of the low `bits` bits. -/
def sgnBits (bits v : Nat) : Int := (BitVec.ofNat bits v).toInt

/-- Little-endian bytes of a signed value. -/
def leInt (n : Nat) (v : Int) : List Byte := leBytes n ((v % (256 ^ n : Nat)).toNat)

/-- Big-endian bytes. -/
def beBytes (n v : Nat) : List Byte := (leBytes n v).reverse

/-- A list cut or padded with 0 to n bytes. -/
def padTo (n : Nat) (bs : List Byte) : List Byte := bs.take n ++ List.replicate (n - bs.length) 0

/-- bs with the bytes from off replaced by new ones. -/
def overlay (bs : List Byte) (off : Nat) (new : List Byte) : List Byte :=
  bs.take off ++ new ++ bs.drop (off + new.length)

def bitN (b : Bool) : Nat := if b then 1 else 0

/-- Bits [hi:lo] of v. -/
def bitsN (v hi lo : Nat) : Nat := v / 2 ^ lo % 2 ^ (hi + 1 - lo)

/-- Bit k of v. -/
def bitB (v k : Nat) : Bool := v.testBit k

/-- Number of ones among the low n bits. -/
def popCount (n v : Nat) : Nat := ((List.range n).filter (fun k => v.testBit k)).length

/-- Positions of the ones among the low n bits, ascending. -/
def onesOf (n v : Nat) : List Nat := (List.range n).filter (fun k => v.testBit k)

/-- A counter of w bits that saturates at all ones. -/
def satAdd {w : Nat} (c : BitVec w) (n : Nat) : BitVec w :=
  BitVec.ofNat w (min (c.toNat + n) (2 ^ w - 1))

/-- a / d to the nearest integer, ties away from zero (R71). -/
def roundDiv (a : Int) (d : Nat) : Int :=
  if a < 0 then -(((2 * a.natAbs + d) / (2 * d) : Nat) : Int) else (((2 * a.natAbs + d) / (2 * d) : Nat) : Int)

/-- A rational to the nearest integer, ties away from zero. -/
def roundRat (q : Rat) : Int := roundDiv q.num q.den

/-- v limited to [lo, hi]. -/
def clampInt (lo hi v : Int) : Int := max lo (min hi v)

/-- Square root of a non-negative rational, exact to 2^-128. -/
def sqrtRat (q : Rat) : Rat := mkRat (Nat.sqrt (q.num.toNat * 2 ^ 256 / q.den)) (2 ^ 128)

/-- Square root of a natural number to the nearest integer. -/
def sqrtNear (n : Nat) : Nat := (Nat.sqrt (4 * n) + 1) / 2

/-- A rational rounded to a multiple of 2^-64. -/
def dyad (q : Rat) : Rat := mkRat (roundRat (q * 2 ^ 64)) (2 ^ 64)

/-- 2π times 2^64, to the nearest integer. -/
def twoPi64 : Int := 115904311329233965478

/-- Horner's scheme for the cosine series in units of 2^-64: y2 is the square of the angle, n the number of terms. -/
def cosSeries (y2 : Int) : Nat → Int → Int
  | 0, acc => acc
  | n + 1, acc => cosSeries y2 n (2 ^ 64 - y2 * acc / 2 ^ 64 / ((2 * n + 1) * (2 * n + 2) : Nat))

/-- cos(2πx) for x in turns, in units of 2^-64 (assumption log row 59). -/
def cosTurn64 (x : Rat) : Int :=
  let f := x - x.floor - 1 / 2
  let y := roundRat (f * twoPi64)
  Int.neg (cosSeries (y * y / 2 ^ 64) 20 (2 ^ 64))

/-- cos(2πx) and sin(2πx) for x in turns. -/
def cosTurn (x : Rat) : Rat := mkRat (cosTurn64 x) (2 ^ 64)

def sinTurn (x : Rat) : Rat := cosTurn (x - 1 / 4)

/-- One element of a vector replaced. -/
def vmod {α : Type} {n : Nat} (v : Vector α n) (i : Fin n) (f : α → α) : Vector α n := v.set i.val (f v[i.val])

/-- Element k where it exists. -/
def vget {α : Type} {n : Nat} (v : Vector α n) (k : Nat) (d : α) : α := if h : k < n then v[k] else d

/-- Element k replaced where it exists. -/
def vput {α : Type} {n : Nat} (v : Vector α n) (k : Nat) (f : α → α) : Vector α n :=
  if h : k < n then v.set k (f v[k]) else v

def crc16Bit (c : Nat) : Nat := if 0x8000 ≤ c then (c * 2) % 0x10000 ^^^ 0x1021 else c * 2

def crc16Byte (c : Nat) (b : Byte) : Nat :=
  Nat.repeat crc16Bit 8 (c ^^^ (b.toNat * 256))

/-- CRC-16/CCITT: polynomial 0x1021, initial value 0xFFFF, no reflection, no final XOR (R284). -/
def crc16 (bs : List Byte) : BitVec 16 := BitVec.ofNat 16 (bs.foldl crc16Byte 0xFFFF)

def crc32Bit (c : Nat) : Nat := if c % 2 = 1 then c / 2 ^^^ 0xEDB88320 else c / 2

def crc32Byte (c : Nat) (b : Byte) : Nat := Nat.repeat crc32Bit 8 (c ^^^ b.toNat)

/-- CRC-32 with the IEEE 802.3 polynomial (R163). -/
def crc32 (bs : List Byte) : Word := BitVec.ofNat 32 (bs.foldl crc32Byte 0xFFFFFFFF ^^^ 0xFFFFFFFF)

/-- a newer than b in 16-bit sequence order (R171). -/
def newer16 (a b : BitVec 16) : Bool := (a - b).toNat ≥ 1 && (a - b).toNat ≤ 32767

/-- The last element of a list of sequence numbers in the order of R171, if any. -/
def newestSeq : List (BitVec 16) → Option (BitVec 16)
  | [] => none
  | a :: as =>
    match newestSeq as with
    | none => some a
    | some b => some (if newer16 a b then a else b)

/-- Every element of a list but its duplicates. -/
def dedup {α : Type} [DecidableEq α] : List α → List α
  | [] => []
  | a :: as => a :: (dedup as).filter (· ≠ a)

end Sys2Proof.Machine
end

