-- ==== Sys2Proof/Machine/State.lean ====
section
/-! DEFINITION. The state of the KV-4824 as plain data: every register, counter, FIFO, buffer, page image and pin that the
spec gives the block, grouped by the block that owns it, and the queue of waiting commands. INVENTORY.md lists each item
with its rule and its reset value. -/

namespace Sys2Proof.Machine

/-- A byte-addressed memory in canonical form: addresses strictly rising, no cell equal to the byte an unlisted address
reads as (which byte that is, each memory's operations say in Machine/Ops.lean). -/
abbrev Memory := List Host.Cell

/-- No command of the spec stops the device with a fault: a device error is a status, a flag or a refusal response,
all of which are next states. The one constructor names what a fault would be here. -/
inductive Fault where
  /-- Raised by no meaning (safe): the spec names no event after which the block stops. -/
  | deviceStopped
  deriving DecidableEq, Repr

/-- Why a command has no meaning. -/
inductive Refusal where
  /-- Raised by an arm of `exec` whose row has no meaning yet (safe: the model stops). -/
  | notModelled (mnemonic : String)
  deriving DecidableEq, Repr

/-- A full timestamp (R224). -/
structure Stamp where
  ns : BitVec 32
  sec : BitVec 48
  epoch : BitVec 4
  ring : Bool
  valid : Bool
  lock : Bool
  deriving DecidableEq, Repr

/-! ### Power, lifecycle, firmware -/

/-- The power states of R410. -/
inductive PowerState where
  | run | lean | hold | off
  deriving DecidableEq, Repr

/-- What supplies PD_AO (R201). -/
inductive Supply where
  | vsup | kettle | vbak | none
  deriving DecidableEq, Repr

/-- Power state, supplies and the power input and output pins (R408 to R415). `vsupDue` marks that PD_AO goes back to
VSUP on the next crystal tick (R201), `aoReset` a reset of PD_AO since the last
start-up (R205). -/
structure Power where
  state : PowerState
  vsupValid : Bool
  vsupHeld : Bool
  resetN : Bool
  leanN : Bool
  leanPend : Option Bool
  supply : Supply
  pwrWake : Bool
  aoReset : Bool
  vsupDue : Bool := false
  deriving DecidableEq, Repr

/-- The lifecycle states, in the encoding of HW_LIFECYCLE.STATE (R287, R417). -/
inductive Lifecycle where
  | factory | opened | sealed | retired
  deriving DecidableEq, Repr

/-- Lifecycle, seal and debug (R417 to R431). `lock` is the lifecycle lock in PD_AO (R422), `debugLeft` the DURATION of the debug grant and
`debugFrom` the tick of the grant (R428). -/
structure Security where
  state : Lifecycle
  sealBreaks : Word
  unseals : List (Word × BitVec 48)
  fuseOpened : Bool
  fuseRetired : Bool
  makerKey : Option (BitVec 512)
  lock : Bool
  debug : BitVec 2
  debugLeft : Option Nat
  unsealNonce : Option (BitVec 128)
  debugNonce : Option (BitVec 128)
  transition : Stamp
  debugFrom : Nat := 0
  deriving DecidableEq, Repr

/-- State of one firmware bank (FW_INFO, R329). -/
inductive BankState where
  | empty | loading | verified | running | failed
  deriving DecidableEq, Repr

structure FwBank where
  st : BankState
  image : Memory
  version : Word
  legalHash : BitVec 256
  deriving DecidableEq, Repr

/-- The management processor and its firmware (R306, R307, R416, R427, R434, R435). `swapTag` is the tag of the running
swap command, `swapFrom` the bank before the swap, `swapAt` the tick of its end and `swapFires` the watchdog's firings since. -/
structure Mp where
  banks : Vector FwBank 2
  fwState : Bool
  swapTag : Option (Fin 64)
  swapFrom : Bool
  swapFires : Nat
  halted : Bool
  events : Nat
  swapAt : Nat := 0
  deriving DecidableEq, Repr

/-! ### Host port and mailbox -/

/-- The direct registers (R287), HMISO of the last SPI transaction and the host snapshot sequence are here. RSP, TAGS_FREE
and the lifecycle fields are computed on a read. -/
structure HwRegs where
  loaded : Bool
  mpReady : Bool
  mpRun : Bool
  bank : Bool
  swapping : Bool
  frozen : Bool
  crcErr : Bool
  winViol : Bool
  dbErr : Bool
  notAvail : Bool
  rspFull : Bool
  winExpired : Bool
  crcCnt : BitVec 4
  rspStalls : Byte
  irq : BitVec 9
  irqEn : BitVec 9
  cmdPi : Byte
  cmdCi : Byte
  rspPi : Byte
  rspCi : Byte
  mpResets : Byte
  wdogFired : Bool
  hmiso : List Byte
  deriving DecidableEq, Repr

/-- Where a command came from (R295): the host, the unit's own MP, or a ring origin with its address and tag. -/
inductive Origin where
  | host
  | mp
  | ring (addr : BitVec 6) (otag : Byte)
  deriving DecidableEq, Repr

/-- A command that holds a tag (R295). `order` is the order of tag claims (R296); `remote` marks a command that waits for
another unit's response (R300); `started` and `waiting` together mark a command held for a store or a conversion, `started`
alone one that is answered and whose response frame has not left yet (R295); `claimed` and `startedAt` are the sample ticks of its tag claim and of its
start, `headAt` that at which it became the head of its lane (R294, R297, R305); `got` counts bulk-in bytes arrived by ring (R302); `yielded` gathers YIELD bits (R305). -/
structure Cmd where
  desc : List Byte
  origin : Origin
  order : Nat
  remote : Bool
  started : Bool
  waiting : Bool
  got : Nat
  yielded : Byte
  claimed : Nat := 0
  startedAt : Option Nat := none
  headAt : Option Nat := none
  deriving DecidableEq, Repr

/-- The bulk window (R299). `release` is the response index whose reading frees a window claimed by a host command. -/
inductive BulkState where
  | free
  | filling
  | claimed (owner : Fin 64)
  | answered (release : Byte)
  deriving DecidableEq, Repr

/-- The mailbox: its window memory (R290; unlisted bytes read 0x00), the 64 tags and the bulk window. -/
structure Mailbox where
  win : Memory
  tags : Vector (Option Cmd) 64
  claims : Nat
  bulk : BulkState
  discard : List (BitVec 6)
  fillAt : Nat := 0
  deriving DecidableEq, Repr

/-! ### Sense ports, calibration and Tracer -/

/-- The correction coefficients of one channel (R33). -/
structure CalRec where
  gain : BitVec 24
  phase : BitVec 16
  offset : BitVec 24
  deriving DecidableEq, Repr

/-- A coefficient record with the stored complements (R124). -/
structure CalPair where
  val : CalRec
  neg : CalRec
  deriving DecidableEq, Repr

/-- States of a matching loop, in the encoding of MATCH_STAT.STATE (R30). -/
inductive MatchState where
  | acquire | track | hold | fault
  deriving DecidableEq, Repr

/-- One buffered sample pair of a current port (R20, R21). -/
structure PathSample where
  coarse : Int
  fine : Int
  ovl : Bool
  deriving DecidableEq, Repr

/-- The state of the trapezoidal integrator and its correction filter (R38, R39). -/
structure Rogowski where
  y : Rat
  x : Rat
  taps : List Rat
  deriving DecidableEq, Repr

/-- The Tracer of one port (R147 to R158). `stTicks` counts the samples since its state was entered (R150, R154); `demI`, `demQ`,
`demAmp` and `demN` are the demodulation sums of the open 0.25 s block (R148), `zs` the smoothed Z of R149 in µΩ, `blocks` the block
estimates of the open period, newest first, and `accepted` the periods since the last CAL_T store (R156). -/
structure Tracer where
  cfg : Word
  rsNom : Word
  st : BitVec 2
  refValid : Bool
  openSeen : Bool
  shortSeen : Bool
  noisySeen : Bool
  limitSeen : Bool
  periods : BitVec 16
  zr : Word
  zx : Word
  rLoop : Word
  drift : Word
  trim : Word
  trimNext : Option Word
  ref : Word
  refNext : Option Word
  blocks : List (Int × Int)
  accepted : List Word
  everAccepted : Bool
  stTicks : Nat
  demI : Rat
  demQ : Rat
  demAmp : Rat
  demN : Nat
  zs : Option (Rat × Rat)
  deriving DecidableEq, Repr

/-- One current port (R19 to R40). `cfgW` is PORTn_CFG as written, `cfg` the value in effect (R36). `blockCnt` counts the samples of the open
match block (R24); `inRange`, `inRangeSq` and the four `fit` sums are the sums of R24 and R25 over its in-range samples, with
e[n] = c[n+1] - c[n-1]; `ageSub` counts samples below one second of `age` (R30). -/
structure Port where
  cfgW : Word
  cfg : Word
  settle : Nat
  hist : List PathSample
  fineSel : Bool
  fineOvl : Bool
  coarseClip : Bool
  rejects : BitVec 3
  age : Byte
  switches : BitVec 16
  mstate : MatchState
  gUse : Word
  dUse : Word
  gCalc : Word
  dCalc : Word
  est : List (Word × Word)
  badRun : Nat
  inRange : Nat
  inRangeSq : Nat
  blockCnt : Nat
  fitCE : Int
  fitEE : Int
  fitFC : Int
  fitFE : Int
  ageSub : Nat
  cal : CalRec
  uncal : Bool
  shadow : CalPair
  rog : Rogowski
  rogPrev : Rogowski
  line : List Rat
  out : Rat
  clip : Bool
  tracer : Tracer
  deriving DecidableEq, Repr

/-- One voltage input (R32): its buffered raw samples, the record in use by power quality (R136), the stored record and the
shadow bank (R132). -/
structure Volt where
  hist : List Rat
  out : Rat
  clip : Bool
  cal : CalRec
  calPq : CalRec
  uncal : Bool
  shadow : CalPair
  deriving DecidableEq, Repr

/-- States of a calibration transaction (R138); `stale` is a transaction the device aborted (R140). -/
inductive TxnState where
  | opened | deferred | storing | armed | done | stale
  deriving DecidableEq, Repr

/-- A calibration transaction (R131 to R142). `left` marks the circuits, and `pqLeft` the power-quality engine, that have not
yet taken the new voltage coefficients (R136). -/
structure Txn where
  target : CalTarget
  chans : BitVec 32
  loaded : BitVec 32
  st : TxnState
  cnt : Word
  left : BitVec 24
  pqLeft : Bool
  deriving DecidableEq, Repr

/-- A legal log entry (R143), 32 bytes. -/
structure LogEntry where
  cnt : Word
  kind : Byte
  target : Byte
  chanMask : Word
  time : Stamp
  legal : BitVec 48
  deriving DecidableEq, Repr

/-- Calibration and legal log (R126 to R143); the history of R146 lies in the Firn array. -/
structure Cal where
  txns : List Txn
  cnt : Word
  trimLim : Word
  lastI : Option LogEntry
  lastV : Option LogEntry
  lastT : Option LogEntry
  deriving DecidableEq, Repr

/-! ### Energy engine -/

/-- The running sums of one element over the open cycle (R57). -/
structure ElemSum where
  p : Rat
  p1 : Rat
  q1 : Rat
  v2 : Rat
  i2 : Rat
  deriving DecidableEq, Repr

/-- The samples of one element at one tick: v, its fundamental pair and i. -/
structure ElemSample where
  hasV : Bool
  v : Rat
  v1 : Rat
  v1q : Rat
  i : Rat
  deriving DecidableEq, Repr

/-- The state of the quadrature pair of R58: the phase of its reference in turns, and the four low-pass stages of the
demodulated voltage, each a real and an imaginary part. -/
structure Quad where
  ph : Rat
  re : Vector Rat 4
  im : Vector Rat 4
  deriving DecidableEq, Repr, Inhabited

/-- Two words of filter state; what a filter does with them is a free value of Config. -/
structure Filt where
  a : Rat
  b : Rat
  deriving DecidableEq, Repr, Inhabited

/-- The zero-crossing detector of R62: filter, armed flag, and samples since the last crossing (none after a restart). -/
structure Detector where
  filt : Filt
  armed : Bool
  since : Option Nat
  deriving DecidableEq, Repr

/-- Which close of a circuit has fallen due on the present sample tick. -/
inductive CloseDue where
  | none | crossing | timeout | boundary
  deriving DecidableEq, Repr

/-- The three no-load thresholds (R76). -/
structure NoLoad where
  p : Word
  q : Word
  s : Word
  deriving DecidableEq, Repr

/-- Which flags the next cycle will carry when its open cycle closes (R70). -/
structure NextFlags where
  newcal : Bool
  newcfg : Bool
  matched : Bool
  isPartial : Bool
  deriving DecidableEq, Repr

/-- The data every snapshot copies of a circuit (R80, R81): CYCLES, last flags, directions and the ten accumulators. -/
structure Totals where
  cycles : Word
  flags : BitVec 16
  pDir : Bool
  qDir : Bool
  acc : Vector (BitVec 96) 10
  deriving DecidableEq, Repr

/-- The energy the last closed cycle added, per accumulator, in 2^-32 quantum (R71), for the CF outputs (R88). -/
abbrev Contribution := Vector Nat 10

/-- One circuit (R48 to R84). Fields ending in W hold the values written, the others the values in effect (R52).
`arriving` marks ports that have left another circuit and not yet joined this one (R52), `waitValid` a circuit
that has not had its first valid sample since start-up (R68). -/
structure Circuit where
  cfgW : Word
  cfg : Word
  quantumW : Word
  quantum : Word
  pfsW : BitVec 48
  pfs : BitVec 48
  keW : BitVec 64
  ke : BitVec 64
  zcToW : Byte
  zcTo : Byte
  nlW : NoLoad
  nl : NoLoad
  nomf : Bool
  clear : Bool
  totals : Totals
  wrap : Vector (BitVec 4) 10
  pRun : BitVec 2
  qRun : BitVec 2
  pChg : Bool
  qChg : Bool
  nozcSeen : Bool
  fixedMode : Bool
  unassigned : BitVec 16
  arriving : BitVec 24
  creepP : BitVec 16
  creepQ : BitVec 16
  creepS : BitVec 16
  frozenCnt : Nat
  waitValid : Bool
  len : Nat
  sums : Vector ElemSum 4
  clipSeen : Bool
  unalignedSeen : Bool
  next : NextFlags
  startT : Stamp
  pRunT : Stamp
  qRunT : Stamp
  det : Detector
  fixPhase : Nat
  due : CloseDue
  held : Bool
  quad : Vector Quad 3
  quadPrev : Vector Quad 3
  tune : Rat
  vcal : Vector CalRec 4
  stopped : Bool
  block : List Byte
  lastEp : Int
  lastAdd : Contribution
  deriving DecidableEq, Repr

/-- A direction event (R75). -/
structure DirEvent where
  circuit : Byte
  kind : Byte
  time : Stamp
  deriving DecidableEq, Repr

/-- A snapshot latch (R80): its image, absent before LOADED, and its sequence number. -/
structure Latch where
  image : Option (Vector Totals 24)
  seq : BitVec 16
  deriving DecidableEq, Repr

/-- One calibration-frequency output (R86 to R90, R463). `acc` is CF_ACC and `sched` the scheduled starts as sample tick
numbers; `lastStart` is the newest start, scheduled or made, and `started` the newest one made; `pulse` is the end tick of the pulse in
progress. -/
structure CfOut where
  cfgW : Word
  cfg : Word
  qppW : BitVec 64
  qpp : BitVec 64
  acc : Nat
  sched : List Nat
  lastStart : Option Nat
  started : Option Nat
  pulse : Option Nat
  change : Bool
  level : Bool
  deriving DecidableEq, Repr

/-- The energy engine's shared part: events kept by the hardware, events queued by the MP, and the two latches. -/
structure Energy where
  dirHw : List DirEvent
  dirQueue : List DirEvent
  hostLatch : Latch
  mpLatch : Latch
  deriving DecidableEq, Repr

/-! ### Power quality -/

/-- A dip, swell or interruption in progress (R115). -/
structure LevelEvent where
  start : Stamp
  startTick : Nat
  chans : BitVec 3
  extreme : Nat
  worst : Fin 3
  unsync : Bool
  stepped : Bool
  hasInt : Bool
  deriving DecidableEq, Repr

/-- An RVC in progress (R116): `prior` sums the M = `m` values before it. -/
structure RvcEvent where
  start : Stamp
  startTick : Nat
  m : Nat
  prior : Vector Nat 3
  dmax : Vector Nat 3
  chans : BitVec 3
  values : Nat
  unsync : Bool
  stepped : Bool
  deriving DecidableEq, Repr

/-- A transient in progress on one event channel (R117). -/
structure TransEvent where
  start : Stamp
  startTick : Nat
  lastTick : Nat
  quiet : Nat
  extreme : Rat
  cycle : Nat
  unsync : Bool
  stepped : Bool
  deriving DecidableEq, Repr

/-- A 32-byte event record (R118). -/
structure EventRec where
  seq : BitVec 16
  typ : Byte
  chan : Byte
  start : Stamp
  duration : Word
  extreme : BitVec 16
  second : BitVec 16
  worst : Byte
  flags : Byte
  unit : Byte
  deriving DecidableEq, Repr

/-- Sums over the members of one key of an aggregate: how many, and the sum of each value's square (or of the signed value). -/
structure KeySum where
  key : Nat
  count : Nat
  sums : List Int
  deriving DecidableEq, Repr

/-- An aggregate in progress (R99, R109 to R111): member windows, status, the 10 s values it has seen, and summed squares: `words` of URMS,
U2, U0 and THD, `harm` of G, SG, IG and IC by channel (0 to 23 ports, 24 to 31 voltages), `ports` of RMS, THD and TDD by port; `hpow` sums the
harmonic powers by circuit. -/
structure Aggregate where
  count : Nat
  status : BitVec 16
  freqSum : Nat
  freqCnt : Nat
  words : List Int
  harm : List KeySum
  ports : List KeySum
  hpow : List KeySum
  deriving DecidableEq, Repr

/-- Values by key: channel, port or circuit. -/
abbrev Keyed := List (Nat × List Int)

/-- The values of one window (R99 to R106): URMS, U2, U0 and THD; G, SG, IG, IC of orders 0 to 127 by channel; PHASE by channel; RMS, THD and
TDD by port; harmonic power by circuit, element-major. -/
structure WinValues where
  words : List Nat
  harm : Keyed
  phase : Keyed
  ports : Keyed
  hpow : Keyed
  deriving DecidableEq, Repr

/-- A finished result of one class (R104, R106, R113, R114): its 64-byte block and its values. `draw` numbers the result for the values that the
spec leaves open. -/
structure PqResult where
  seq : Word
  status : BitVec 16
  block : List Byte
  draw : Nat
  vals : WinValues
  deriving DecidableEq, Repr

/-- A window that has ended on a tick and awaits PQ_WINDOW_CLOSE: the samples of the set's voltage inputs and of the ports, newest first,
its length in whole samples, its first and its closing instant in 1/1024 sample, and its status. -/
structure WinClosed where
  volts : Vector (List Rat) 4
  ports : Vector (List Rat) 24
  len : Nat
  start : Nat
  stop : Nat
  status : BitVec 16
  deriving DecidableEq, Repr

/-- One voltage set of the power-quality engine (R91 to R117). `halfVal` is a half-cycle value that awaits PQ_HALF_CYCLE,
`winPend` a window that awaits PQ_WINDOW_CLOSE, `transDue` transients that await TRANSIENT_END. `detY` is the detector's last output,
`lastCross` the latest crossing and `prevCross` the one the next cycle is measured from, both in 1/1024 sample like `cycleLen`, `winStart` and
the first and last crossing `freqFirst`, `freqLast` of the 10 s interval, `freqNs` the boundary of the last one. `winV` and `winI` are the samples of the window, newest first. -/
structure PqSet where
  cfgW : Word
  cfg : Word
  udinW : Word
  udin : Word
  evtW : Word
  evt : Word
  ref : Option (Fin 3)
  pendRef : List Nat
  det : Detector
  negArmed : Bool
  detY : Rat
  lastCross : Option Nat
  prevCross : Option Nat
  crossings : Nat
  winLen : Nat
  winStart : Nat
  winV : Vector (List Rat) 4
  winI : Vector (List Rat) 24
  winStatus : BitVec 16
  settle : Nat
  halfLen : Nat
  halfPrevLen : Nat
  halfSq : Vector Rat 3
  halfPrevSq : Vector Rat 3
  halfPhase : Nat
  vals : Vector (List Nat) 3
  cycleLen : Nat
  past : Vector (List Rat) 3
  halfVal : Option (Vector Nat 3)
  valTicks : List Nat
  winPend : Option WinClosed
  winClose : Nat
  firstWin : Bool
  synced : Bool
  dip : Option LevelEvent
  swell : Option LevelEvent
  intr : Option LevelEvent
  rvc : Option RvcEvent
  trans : Vector (Option TransEvent) 3
  transDue : BitVec 3
  results : Vector PqResult 4
  aggs : Vector Aggregate 3
  freqCycles : Nat
  freqFirst : Nat
  freqLast : Nat
  freqNs : Nat
  freqMark : BitVec 16
  freq10 : Nat
  freqStatus : BitVec 16
  waitCross : Bool
  stepSeen : Bool
  deriving DecidableEq, Repr

/-- Flicker state of one voltage input (R107, R108): the meter's filters, Pinst by class in the open 10-minute interval and in one that has
ended and awaits its window, the Psts of the
2-hour interval with their status, and the latest values. -/
structure Flicker where
  filt : List Rat
  classes : List (Nat × Nat)
  boundary : Option (List (Nat × Nat) × BitVec 16)
  pinst : Word
  settleLeft : Nat
  gather : BitVec 16
  pst : Word
  pstStatus : BitVec 16
  pstTime : Stamp
  psts : List (Nat × BitVec 16)
  plt : Word
  pltStatus : BitVec 16
  pltTime : Stamp
  deriving DecidableEq, Repr

/-- One supraharmonic class (R121, R122): sequence, status, stamp, TX_EXCL, and the 740 bands of WB1 and WB2 in nV. -/
structure SupraResult where
  seq : Word
  status : BitVec 16
  time : Stamp
  excl : Nat
  bands : Vector (List Nat) 2
  deriving DecidableEq, Repr

/-- A supraharmonic aggregate in progress: member windows, those without their modem bands, and the summed squares of the bands. -/
structure SupraSum where
  count : Nat
  excl : Nat
  sq : Vector (List Nat) 2
  deriving DecidableEq, Repr

/-- The noise measurement of one segment of the mains cycle on one wideband channel (R123): transforms of the running second, and the summed
power of the 48 carriers in nV². -/
structure NoiseSum where
  count : Nat
  power : List Rat
  deriving DecidableEq, Repr

/-- The unit-wide part of power quality. -/
structure PqUnit where
  chFeW : Vector Word 32
  chFe : Vector Word 32
  ilW : Vector Word 24
  il : Vector Word 24
  flicker : Vector Flicker 8
  fifo : List EventRec
  evSeq : BitVec 16
  evOvf : BitVec 16
  latest : List EventRec
  restored : List EventRec
  supra : Vector SupraResult 3
  supraOpen : Vector SupraSum 2
  supraLast : Nat
  wbWin : Vector (List Int) 2
  noise : Vector (List Byte) 16
  noiseSums : Vector NoiseSum 16
  noiseBlk : Vector (List Int) 2
  noiseBad : Bool
  noiseNs : Nat
  noiseStale : BitVec 16
  noiseTime : Stamp
  winTx : Bool
  wbGap : Bool
  deriving DecidableEq, Repr

/-! ### Firn store -/

/-- What a store changes once it is complete, or which pages it stores as they stand. -/
inductive Change where
  | lifecycle (target : Lifecycle) (unsealing : Bool) (time : Stamp) (legal : BitVec 48)
  | cirMap (cir : List (Fin 24 × Word)) (port : List (Fin 24 × Word))
  | cirScaleLog (c : Fin 24) (quantum : Word) (pfs : BitVec 48)
  | cirScale (c : Fin 24) (quantum : Word) (pfs : BitVec 48)
  | cirLimits (c : Fin 24) (zcTo : Byte) (nl : NoLoad)
  | calCommit (t : CalTarget)
  | traceRef (refs : List (Fin 24 × Word))
  | trims (list : List (Fin 24 × Word))
  | trimLim (lim : Word)
  | trcWrite (mask : BitVec 24) (sel : BitVec 5) (cfg rs : Word)
  | vset (b : Fin 2) (sel : BitVec 3) (cfg udin evt : Word)
  | channel (ch : Fin 32) (sel : BitVec 2) (fe il : Word)
  | clkCfg (v : Word)
  | ltrim (v : Word)
  | legalParams (sel : BitVec 3) (base : BitVec 64) (slew bill : Word)
  | tcomp (points : List Byte)
  | tcTable (points : List Byte)
  | asym (sel : BitVec 2) (a b : Word)
  | epochStart
  | stepEpoch (delta : Int)
  | ringHcfg (v : Word)
  | addrRelease (a : Fin 61)
  | balGroup (g : Fin 16) (desc : List Byte)
  | mirror (a : Fin 61) (entry : List Byte)
  | mirrorApply (cir : List (Fin 24 × Word)) (port : List (Fin 24 × Word)) (vset : List Word)
  | plcCfg (bytes : List Byte)
  | plcBase (version : BitVec 4)
  | nodeEnrol (i : Fin 240) (id : BitVec 64)
  | nodeRetire (i : Fin 240)
  | dispCfg (bytes : List Byte)
  | lut (band : Fin 8) (bytes : List Byte)
  | unif (ofs : Nat) (bytes : List Byte)
  | dispPrep
  | dispDone
  | ledger (g : Nat) (data : List Byte) (phase : Nat)
  | legalItems (mask : Word)
  | auxSeq (inj : Bool) (low : Bool) (list : List Byte) (period : Word)
  | auxWin (i : Fin 16) (en : Bool) (low high : BitVec 16)
  | s0Cfg (i : Fin 8) (en : Bool) (debounce : BitVec 16)
  | cf (o : Fin 8) (cfg : Word) (qpp : BitVec 64)
  | user (page : Nat) (bytes : List Byte)
  | runLogStart
  | logHist (cnt : Word) (entry : List Byte)
  | page (p : Nat)
  | matchPages
  | checkpoint
  | refresh (p : Nat)
  | save
  deriving DecidableEq, Repr

/-- How far one page of a store has come. -/
inductive MemberState where
  | pending | busy | done | failed
  deriving DecidableEq, Repr

/-- One page of a store (R164): the image latched, the slot written and how far it has come. `tries` counts verify
failures (R169); `latched` says that the store latch has been (R161); `waitTick` is the tick from which it has waited for its bank, and
`stalled` marks a ledger store that has waited behind a higher request (R178). -/
structure Member where
  page : Nat
  data : List Byte
  slot : Bool
  group : Word
  tries : Nat
  st : MemberState
  latched : Bool := true
  waitTick : Option Nat := none
  stalled : Bool := false
  deriving DecidableEq, Repr

/-- Where a store request stands (R174): it waits for a KETTLE reading, for 4.6 V, behind another store of its group, or
runs. -/
inductive ReqStage where
  | ask | kwait | queued | running
  deriving DecidableEq, Repr

/-- A store request (R174, R177): its number, its rank in R177 (1 to 5), what it changes, the command that waits for it, and
its members once it runs. `since` is the tick from which it has waited for a stalled crossing (R400), `deferred` marks a running request
whose next page waits for KETTLE and has been counted (R174). -/
structure StoreReq where
  id : Nat
  rank : Nat
  change : Change
  tag : Option (Fin 64)
  stage : ReqStage
  members : List Member
  since : Option Nat := none
  deferred : Bool := false
  deriving DecidableEq, Repr

/-- The power-fail sequence (R179 to R185). `resumeDue` remembers a VMON that has risen while the save still runs (R184). -/
structure Save where
  saving : Bool
  cause : Byte
  time : Stamp
  legal : BitVec 48
  kStart : BitVec 16
  pages : BitVec 16
  lowKettleAo : Bool
  resumeDue : Bool := false
  deriving DecidableEq, Repr

/-- The Firn store (R160 to R191): the physical array (unlisted bytes read 0xFF), the image of each critical page at its
last store latch or restore (unlisted bytes read 0x00: a page is dirty when its registers no longer encode that image), the
slot in use of every page that has one, the last GSEQ of each group, requests, status and powered-time counters (R465), and the RUN_LOG image (R185).
`dirty` lists pages that count as dirty whatever their registers encode: their latched image was never stored (R161, R182). `charge` holds the
KETTLE readings (ns, code) of the charge that is being timed, newest first (R175), `pump` whether the charge pump runs. `startNext` keeps the flags of the first
cycle after a restart (R69, R142). `runLogOwed` says that this run has not yet requested its RUN_LOG store (R185). -/
structure Firn where
  arr : Memory
  ram : Memory
  slots : List (Nat × Bool)
  gseq : List (Nat × BitVec 16)
  reqs : List StoreReq
  issued : Nat
  charge : Option (List (Nat × Nat))
  unclean : Bool
  torn : Bool
  lostSeen : Bool
  lowKettle : Bool
  kettleSmall : Bool
  worn : Bool
  wear : Bool
  tornPages : BitVec 16
  refreshes : BitVec 16
  defers : BitVec 16
  mpWaitMax : BitVec 16
  dispStalls : BitVec 16
  ptCkpt : Word
  ptMatch : Word
  ptTrace : Word
  ptScrub : Word
  ptSub : Nat
  scrubPage : BitVec 16
  runLog : List Byte
  save : Save
  dirty : List Nat := []
  pump : Bool := false
  runLogOwed : Bool := false
  startNext : Vector NextFlags 24 := Vector.replicate 24 { newcal := false, newcfg := false, matched := false, isPartial := false }
  deriving DecidableEq, Repr

/-! ### Clocks -/

/-- One of the two 48-bit clocks (R192 to R196): count, weekday, trim accumulator, the write that waits for its tick, and
the events its last tick raised. -/
structure RtClock where
  count : BitVec 48
  wday : BitVec 3
  trimAcc : BitVec 20
  write : Option (BitVec 33 × Option (BitVec 3) × Nat)
  wdayDue : Bool
  deriving DecidableEq, Repr

/-- One alarm (R206 to R208). `due` marks a firing that fell due on a tick, `late` an arming at or above the value. -/
structure Alarm where
  time : BitVec 48
  arm : Bool
  fired : Bool
  skipped : Bool
  wake : Bool
  late : Bool
  due : Bool
  dueSkip : Bool
  deriving DecidableEq, Repr

/-- The record of a billing interval (R223) with its image. -/
structure BillRec where
  seq : Word
  flags : BitVec 16
  start : BitVec 48
  stop : BitVec 48
  time : Stamp
  snap : BitVec 16
  image : Vector Totals 24
  deriving DecidableEq, Repr

/-- A boundary image that the MP has not copied yet (R222, R223). -/
structure Boundary where
  stop : BitVec 48
  next : BitVec 48
  time : Stamp
  flags : BitVec 16
  spans : Nat
  deriving DecidableEq, Repr

/-- What a clock read latches on one crystal tick (R193): counts, weekdays, CLK_STAT[15:0] and the ring time of the tick, none in FREE. -/
structure ClkImage where
  legal : BitVec 48
  lwday : BitVec 3
  service : BitVec 48
  swday : BitVec 3
  stat : Nat
  time : Option Stamp
  deriving DecidableEq, Repr

/-- Legal and service clocks, trims, alarms, slewing, charger and billing (R192 to R223). `latched` holds the record that reads return while the
crossing from CLK_LF is stalled (R400). `slewHeld` is the sign of a slew event that waits for a tick without a trim event (R216), `tcTicks` and `tcDue` time
the updates of C(θ) (R199), `tcAge` counts the ticks since TC_TEMP was written (R200), `vbakMv` is the VBAK level last seen (R203), `lfNs` the ring
time of the latest crystal tick in ns. -/
structure Clocks where
  legal : RtClock
  service : RtClock
  ltrim : Word
  ctheta : Int
  cfg : Word
  oscStopped : Bool
  crystalRuns : Bool
  legalInvalid : Bool
  slewing : Bool
  legalFar : Bool
  tcFallback : Bool
  tcClamp : Bool
  vbakLow : Bool
  chgOn : Bool
  bndMissed : Bool
  slewSeconds : BitVec 16
  tcTemp : BitVec 16
  alarms : Vector Alarm 4
  base : BitVec 64
  slewCfg : Word
  ofs : Word
  skipSample : Bool
  slewTotal : Nat
  slewPos : Bool
  slewTick : Nat
  slewHeld : Int
  billCfg : Word
  billCfgW : Word
  billSeq : Word
  billStart : BitVec 48
  billFlags : BitVec 16
  billIsOpen : Bool
  billExtra : Nat
  boundaryDue : Bool
  boundary : Option Boundary
  records : List BillRec
  tcomp : List Byte
  tcTable : List Byte
  latched : Option ClkImage
  tcTicks : Nat := 0
  tcDue : Bool := false
  tcAge : Nat := 0
  vbakMv : Nat := 0
  lfNs : Nat := 0
  deriving DecidableEq, Repr

/-! ### Ring time and the ring -/

/-- The alignment modes, in the encoding of ALIGN_STAT.MODE (R45). -/
inductive AlignMode where
  | free | pull | lock | holdover
  deriving DecidableEq, Repr

/-- A timed output (R243 to R248). `time` is TOUTn_TIME, `nextEdge` the wanted instant of the next leading edge in ns,
`pulse` the end of the pulse in progress and `lastEnd` that of the last one, in 2^-16 ns. -/
structure Tout where
  en : Bool
  periodic : Bool
  pol : Bool
  arm : Bool
  fired : Bool
  late : Bool
  rephased : Bool
  suppressed : Byte
  time : BitVec 80
  period : Word
  width : Word
  pend : Option (BitVec 80 × Word × Word)
  armedLate : Bool
  armedExact : Bool
  nextEdge : Option Nat
  pulse : Option Nat
  level : Bool
  lastEnd : Option Nat := none
  deriving DecidableEq, Repr

/-- A pending step (R239). -/
structure StepPend where
  at_ : Nat
  delta : Int
  epoch : BitVec 4
  sends : Nat
  deriving DecidableEq, Repr

/-- Ring time and alignment (R41 to R47, R224 to R241, R462). `lastAt` is AT of a step that has just taken effect (R241), `offStep` the
part of it, in 2^-16 ns, that the next sample will find itself off the grid by (R46, R47). `rt` is the ring time of the present sample instant (or the
free count, R462) in units of 2^-16 ns. -/
structure Time where
  rt : Nat
  ticks : Nat
  inUse : Bool
  seen : Bool
  epoch : BitVec 4
  mode : AlignMode
  lost : Bool
  stepPull : Bool
  lockRun : Nat
  pulling : Bool
  rate : Word
  effRate : Int
  servo : Int
  cfg : Word
  fadj : Word
  syncOk : Bool
  valid : Bool
  ppsLock : Bool
  ppsLost : Bool
  ppsFar : Bool
  ppsRun : Nat
  ppsClear : Option Nat
  adopted : Bool
  syncErr : BitVec 16
  offset : Word
  farRun : Nat
  step : Option StepPend
  lastAt : Option Nat
  offStep : Option Int
  stepStore : Bool
  startStored : Bool
  startWorn : Bool
  outs : Vector Tout 4
  deriving DecidableEq, Repr

/-- A frame of the unit's own that waits for its window (R258), with the ring it goes out on. -/
structure TxFrame where
  ring : RingSel
  typ : BitVec 4
  relay : Bool
  dst : BitVec 6
  src : BitVec 6
  seq : Byte
  payload : List Byte
  tag : Option (Fin 64)
  deriving DecidableEq, Repr

/-- The state of a link port (R231, R232, R252, R268). `asym` is ASYM_x as written, `asymNow` the value in effect, which follows it at the
next SYNC; `tell` marks a change of the link that no announcement has named yet (R267). `sentT1` is the instant in 2^-16 ns, and the cycle, of an ALIGN request that waits
for its answer. -/
structure LinkPort where
  up : Bool
  good : Nat
  delay : Word
  history : List Int
  xseq : BitVec 16
  sentT1 : Option (Nat × Nat)
  asym : Word
  uid : BitVec 64
  asymNow : Word := asym
  tell : Bool := false
  deriving DecidableEq, Repr

/-- The state of an address in the roster (R263). -/
inductive Presence where
  | free | present | absent
  deriving DecidableEq, Repr

/-- One roster entry (R263). `heard` is the tick of the last good frame from the address. -/
structure RosterEntry where
  st : Presence
  uid : BitVec 64
  up : BitVec 6
  down : BitVec 6
  upUid : BitVec 64
  downUid : BitVec 64
  gen : Word
  heard : Nat := 0
  deriving DecidableEq, Repr

/-- A topology announced by WRAP (R267): the gap after position `up`, and its instant. -/
structure Wrap where
  up : Byte
  down : Byte
  at_ : Nat
  deriving DecidableEq, Repr

/-- A broken place that the head knows, between the port B of `up` and the port A of `down` (1 = the head), and whether each end has
reported its port up again (R267, R268). -/
structure Break where
  up : BitVec 6
  down : BitVec 6
  upOk : Bool
  downOk : Bool
  deriving DecidableEq, Repr

/-- The open balance interval of one circuit (R275, R276). -/
structure BalSum where
  net : Int
  flags : Byte
  deriving DecidableEq, Repr

/-- A balance interval that has ended, at ring time `fin` in ns, and is not yet computed (R276, R277). -/
structure BalInterval where
  start : Stamp
  sums : Vector BalSum 24
  stepped : Bool
  gap : Bool
  fin : Nat := 0
  deriving DecidableEq, Repr

/-- A received or own BALANCE report (R276). -/
structure BalReport where
  unit : BitVec 6
  start : Stamp
  entries : List (Byte × Byte × Int)
  deriving DecidableEq, Repr

/-- A balance group (R274) with its latest result (R277). -/
structure BalGroup where
  desc : List Byte
  seq : Word
  run : Byte
  alarm : Bool
  result : List Byte
  deriving DecidableEq, Repr

/-- A configuration mirror half in flight (R280). -/
structure MirrorHalf where
  src : BitVec 6
  part : Bool
  body : List Byte
  deriving DecidableEq, Repr

/-- The Rolov ring (R249 to R281). `sent` holds the frames of the last window with their cycle, `noTx` the cycle in which a ring is
barred to own frames (R259), `lastSeen` the accepted frames with their ticks (R261), `chain` every held address in primary order and
`order` the present ones (R262), `breaks` the broken places the head knows (R268), `wrapQuiet` the cycle before which nothing goes to
`quietDst` (R272), `grantPend` a granted address with the cycle after which it is in use (R265), `learned` the addresses whose UID the
last ENUM round gave (R266), `push` the pushes without an outcome (R281). -/
structure Ring where
  isHead : Bool
  wasHead : Bool
  addr : BitVec 6
  gap : Option Wrap
  wrapPend : Option Wrap
  wrapQuiet : Nat
  portA : LinkPort
  portB : LinkPort
  dupAddr : Bool
  ringFull : Bool
  headConflict : Bool
  codeErr : BitVec 16
  frameErr : BitVec 16
  deferred : BitVec 16
  abandoned : BitVec 16
  hcfg : Word
  roster : Vector RosterEntry 61
  order : List (BitVec 6)
  enumDue : Bool
  txq : List TxFrame
  sent : List TxFrame
  sentCycle : BitVec 16
  txSeq : Vector Byte 16
  lastSeen : List (BitVec 6 × BitVec 4 × Byte × Nat)
  fwdCorr : BitVec 64
  backoff : Nat
  headUid : Option (BitVec 64)
  balPeriod : BitVec 2
  learned : List (BitVec 6)
  quietDst : List (BitVec 6)
  balOpen : Vector BalSum 24
  balStart : Stamp
  balOff : Bool
  balGap : Bool
  balEnded : Option BalInterval
  reports : List BalReport
  groups : Vector BalGroup 16
  mirror : Memory
  mirrorGen : Word
  mirrorDue : Bool
  halves : List MirrorHalf
  push : List (BitVec 6 × Option (Fin 64))
  alarmEvents : Nat
  chain : List (BitVec 6) := []
  breaks : List Break := []
  noTx : List (RingSel × Nat) := []
  grantPend : Option (BitVec 6 × Nat) := none
  deriving DecidableEq, Repr

/-! ### Power-line modem -/

/-- A PLC node (R351 to R353). -/
structure Node where
  st : BitVec 2
  id : BitVec 64
  phase : BitVec 2
  snr : Byte
  last : Word
  epoch : BitVec 4
  polled : Word
  missed : Word
  missRun : Nat
  failed : Bool
  seq : Byte
  uplink : List Byte
  downlink : List Byte
  levels : List Byte
  deriving DecidableEq, Repr

/-- A complex bin of a transform over n points, divided by n. -/
structure Bin where
  re : Rat
  im : Rat
  deriving DecidableEq, Repr

/-- A symbol as received: the bins of its carriers, and how many of its samples the Colander has blanked (R333, R343). -/
structure RxSym where
  bins : List Bin
  blanked : Nat
  deriving DecidableEq, Repr

/-- The Colander of an input (R343): the samples of the preceding 8 symbol periods, newest first, with their blanking, and the sum of squares and
the number of those not blanked. -/
structure Colander where
  hist : List (Int × Bool)
  sq : Nat
  count : Nat
  deriving DecidableEq, Repr

/-- An exchange of the schedule (R346 to R349): its node, the frame sent, the end of the poll, the reply window and the
detection stamp; for each receive input (R332) the samples since the poll's end, newest first, as the Colander leaves them, the wideband tick
of the reply's first sample, and its symbols so far. -/
structure Exchange where
  node : Fin 240
  join : Bool
  mac : List Byte
  pollEnd : Nat
  winOpen : Bool
  detected : Option (Word × BitVec 4)
  rxBuf : Vector (List (Int × Bool)) 2 := Vector.replicate 2 []
  rxStart : Option (Nat × Nat) := none
  rxSyms : Vector (List RxSym) 2 := Vector.replicate 2 []
  rxLost : Bool := false
  deriving DecidableEq, Repr

/-- The power-line modem (R332 to R354). `txFrames` are the frames last sent, `txSyms` the phases of their carriers symbol by symbol in 1/96 turn, `txUntil` the end of the unit's own transmission in ns,
`mapNew` marks a map version that no MAP frame has announced yet, `turnLeaves` the LEAVE frames of the running turn, `lastVer` the
instant of the last new version, `prepMains` crossing and CYC at the preparation of the next exchange and `prepAt` its instant, `nextAt` the instant from which the schedule lets the next one start, both in ns, `ident` the phase identification with its polls and phases. -/
structure Plc where
  en : Bool
  txAtt : Byte
  poll : BitVec 16
  fixedMaps : Bool
  mode : BitVec 2
  overrun : Bool
  polls : Word
  fails : Word
  repolls : Word
  pausedMs : Word
  nodes : Vector Node 240
  pendNodes : List (Fin 240 × Option (BitVec 64))
  leaves : List (Fin 240 × BitVec 64)
  maps : List Byte
  oldMaps : List Byte
  mapVer : BitVec 4
  base : BitVec 4
  baseStored : Bool
  mapOwed : Bool
  mapNew : Bool
  lastVer : Option Nat
  staleSegs : Byte
  turnLeft : List (Fin 240)
  turnLeaves : List (Fin 240 × BitVec 64)
  turnPend : Bool
  prepared : Option (Fin 240)
  prepMains : Nat × Nat := (0, 20000)
  prepAt : Nat := 0
  nextAt : Nat := 0
  xchg : Option Exchange
  txFrames : List (List Byte)
  txSyms : List (List (List Nat)) := []
  colander : Vector Colander 2 := Vector.replicate 2 { hist := [], sq := 0, count := 0 }
  txUntil : Nat
  ident : Option (Fin 240 × Nat × List (BitVec 2))
  deriving DecidableEq, Repr

/-! ### Aux converter and pulse inputs -/

/-- One aux input: latest result with its stamp and age, window and comparator (R355, R362 to R364). -/
structure AuxInput where
  result : BitVec 16
  stamp : Stamp
  tick : Option Nat
  low : BitVec 16
  high : BitVec 16
  en : Bool
  outside : Option Bool
  flag : Bool
  deriving DecidableEq, Repr

/-- Why a conversion was requested (R357, R358). -/
inductive ConvSource where
  | firn | housekeeping | sequence | inject (tag : Fin 64) | regular
  deriving DecidableEq, Repr

/-- A pending or running conversion. -/
structure Conv where
  src : ConvSource
  input : Fin 16
  late : Bool
  waited : Bool
  deriving DecidableEq, Repr

/-- The aux converter (R355 to R365). `ready` says that the power-up calibration has ended (R359), `calTick` is the tick and `calTemp` the DIE_TEMP of the last
calibration. -/
structure Aux where
  inputs : Vector AuxInput 16
  powered : Bool
  ready : Bool
  lowPower : Bool
  lowPowerPend : Option Bool
  regular : List Byte
  regPeriod : Word
  injected : List Byte
  injPeriod : Word
  pending : List Conv
  running : Option Conv
  passLeft : List Byte
  passPend : Bool
  cal : Bool
  calDue : Bool
  lateSeen : Bool
  injWaits : Byte
  regLate : Byte
  cals : Byte
  lastExit : Option Stamp
  calTemp : Option Int
  calTick : Nat := 0
  deriving DecidableEq, Repr

/-- One S0 pulse input (R366 to R370). -/
structure S0In where
  en : Bool
  debounce : BitVec 16
  pendCfg : Option (Bool × BitVec 16)
  gray : Byte
  sampled : Byte
  acked : Byte
  overrun : Bool
  total : BitVec 64
  last : Stamp
  deriving DecidableEq, Repr

/-! ### Display -/

/-- The stages of a native update (R383). -/
inductive UpdStage where
  | record | ledger | rails | frames | finish
  deriving DecidableEq, Repr

/-- A native update or repair in progress (R377 to R383, R388). `typ` is 3 for a repair. -/
structure Update where
  id : Word
  typ : Byte
  x : Nat
  y : Nat
  w : Nat
  h : Nat
  frames : Nat
  frame : Nat
  stage : UpdStage
  band : Fin 8
  copied : Memory
  groups : List Nat
  luts : Vector (Option (List Byte)) 8 := Vector.replicate 8 none
  unif : Memory := []
  neg : List Nat := []
  deriving DecidableEq, Repr

/-- The display controller (R371 to R393). Planes are nibble memories at y × WIDTH + x (unlisted pixels read 0). -/
structure Display where
  mode : BitVec 2
  inv : BitVec 2
  width : BitVec 16
  height : BitVec 16
  taux : BitVec 3
  pendCfg : Option (List Byte)
  st : BitVec 3
  band : BitVec 3
  bandUsed : Bool
  stale : Bool
  inexact : Bool
  repairLost : BitVec 14
  lostFrames : Word
  updates : Word
  luts : Vector (Option (List Byte)) 8
  unif : Memory
  draw : Memory
  shown : Memory
  record : List Byte
  upd : Option Update
  dpwrEn : Bool
  doe : Bool
  frameNo : Nat
  lastFrame : List Byte
  legacyCopy : List (Nat × Nat × Nat × Nat × Nat)
  crevOpen : Bool
  crevRun : Nat
  crevGood : Nat
  crevNew : Bool
  checkPend : Bool
  repairDue : Bool
  legalMask : Word
  lastRedraw : Option (BitVec 48)
  stripDue : Bool
  stripKey : List Byte
  frameAt : Nat := 0
  crevReads : Nat := 0
  deriving DecidableEq, Repr

/-! ### Crossings -/

/-- The crossing log (R399 to R405). -/
structure Cdc where
  stall : BitVec 12
  stalls : Vector (BitVec 16) 12
  drops : Vector (BitVec 16) 12
  last : Stamp
  deriving DecidableEq, Repr

/-- The whole machine. `fresh` is the model's own counter of free values drawn; `pending` the queue of waiting commands,
first in first out. -/
structure State where
  pending : List Instr
  fresh : Nat
  power : Power
  sec : Security
  mp : Mp
  hw : HwRegs
  mb : Mailbox
  ports : Vector Port 24
  volts : Vector Volt 8
  cal : Cal
  circuits : Vector Circuit 24
  cfs : Vector CfOut 8
  energy : Energy
  pqSets : Vector PqSet 2
  pq : PqUnit
  firn : Firn
  clk : Clocks
  time : Time
  ring : Ring
  plc : Plc
  aux : Aux
  s0 : Vector S0In 8
  disp : Display
  cdc : Cdc
  deriving DecidableEq, Repr

/-! ### Reset: a blank device at power-on, before VSUP_VALID. Values the spec does not give are in assumption log row 1. -/

def Stamp.zero : Stamp := { ns := 0, sec := 0, epoch := 0, ring := false, valid := false, lock := false }

def Power.reset : Power :=
  { state := .off, vsupValid := false, vsupHeld := false, resetN := true, leanN := true, leanPend := none, supply := .none,
    pwrWake := false, aoReset := true }

def Security.reset : Security :=
  { state := .factory, sealBreaks := 0, unseals := [], fuseOpened := false, fuseRetired := false, makerKey := none,
    lock := false, debug := 0, debugLeft := none, unsealNonce := none, debugNonce := none, transition := .zero }

def FwBank.reset : FwBank := { st := .empty, image := [], version := 0, legalHash := 0 }

/-- Bank 0 as shipped: Cesoak 3.2 running (R5); patch, build and hash are a design choice (log row 1). -/
def FwBank.shipped : FwBank := { st := .running, image := [], version := 0x0203, legalHash := 0 }

def Mp.reset : Mp :=
  { banks := #v[.shipped, .reset], fwState := false, swapTag := none, swapFrom := false, swapFires := 0,
    halted := false, events := 0 }

def HwRegs.reset : HwRegs :=
  { loaded := false, mpReady := false, mpRun := false, bank := false, swapping := false, frozen := false, crcErr := false,
    winViol := false, dbErr := false, notAvail := false, rspFull := false, winExpired := false, crcCnt := 0,
    rspStalls := 0, irq := 0, irqEn := 0, cmdPi := 0, cmdCi := 0, rspPi := 0, rspCi := 0, mpResets := 0,
    wdogFired := false, hmiso := [] }

def Mailbox.reset : Mailbox :=
  { win := [], tags := Vector.replicate 64 none, claims := 0, bulk := .free, discard := [] }

/-- The factory default record of R33. -/
def CalRec.reset : CalRec := { gain := 0x400000, phase := 0, offset := 0 }

def CalPair.reset : CalPair := { val := .reset, neg := { gain := 0xBFFFFF, phase := 0xFFFF, offset := 0xFFFFFF } }

/-- The Tracer of port p + 1: FREQ = p mod 8, AVG = 8 (R153). -/
def Tracer.reset (p : Nat) : Tracer :=
  { cfg := BitVec.ofNat 32 ((p % 8) * 2 + 0x800), rsNom := 0, st := 0, refValid := false, openSeen := false,
    shortSeen := false, noisySeen := false, limitSeen := false, periods := 0, zr := 0, zx := 0, rLoop := 0, drift := 0,
    trim := 0x40000000, trimNext := none, ref := 0, refNext := none, blocks := [], accepted := [], everAccepted := false,
    stTicks := 0, demI := 0, demQ := 0, demAmp := 0, demN := 0, zs := none }

def Port.reset (p : Nat) : Port :=
  { cfgW := 0x43, cfg := 0x43, settle := 64, hist := [], fineSel := false, fineOvl := false, coarseClip := false,
    rejects := 0, age := 0xFF, switches := 0, mstate := .hold, gUse := 0x40000000, dUse := 0, gCalc := 0x40000000,
    dCalc := 0, est := [], badRun := 0, inRange := 0, inRangeSq := 0,
    blockCnt := 0, fitCE := 0, fitEE := 0, fitFC := 0, fitFE := 0, ageSub := 0, cal := .reset, uncal := true, shadow := .reset,
    rog := { y := 0, x := 0, taps := [] }, rogPrev := { y := 0, x := 0, taps := [] }, line := [], out := 0, clip := false, tracer := .reset p }

def Volt.reset : Volt :=
  { hist := [], out := 0, clip := false, cal := .reset, calPq := .reset, uncal := true, shadow := .reset }

def Cal.reset : Cal :=
  { txns := [], cnt := 0, trimLim := 2000, lastI := none, lastV := none, lastT := none }

def ElemSum.zero : ElemSum := { p := 0, p1 := 0, q1 := 0, v2 := 0, i2 := 0 }

def Filt.zero : Filt := { a := 0, b := 0 }

def Quad.zero : Quad := { ph := 0, re := Vector.replicate 4 0, im := Vector.replicate 4 0 }

def Detector.reset : Detector := { filt := .zero, armed := false, since := none }

def NoLoad.reset : NoLoad := { p := 0x1000, q := 0x1000, s := 0x1000 }

def NextFlags.reset : NextFlags := { newcal := false, newcfg := false, matched := false, isPartial := true }

def Totals.zero : Totals := { cycles := 0, flags := 0, pDir := false, qDir := false, acc := Vector.replicate 10 0 }

/-- CIRn_CFG at blank first power (R51), c counted from 0. For circuits 9 to 24 the rule gives EN = 0 and port fields of 0 only; TYPE 3P4W
and SET A there are a DESIGN CHOICE (assumption log row 67). -/
def defaultCirCfg (c : Nat) : Word :=
  if c < 8 then
    BitVec.ofNat 32 (5 + (if c < 4 then 0 else 8) + (3 * c + 1) * 256 + (3 * c + 2) * 8192 + (3 * c + 3) * 262144)
  else 4

/-- KE of the factory PFS 1000 and QUANTUM 1 (R54): round(2^40 · 1000 / 115200). -/
def defaultKe : BitVec 64 := BitVec.ofNat 64 ((2 * 2 ^ 40 * 1000 + 115200) / (2 * 115200))

def Circuit.reset (c : Nat) : Circuit :=
  { cfgW := defaultCirCfg c, cfg := defaultCirCfg c, quantumW := 1, quantum := 1, pfsW := 1000, pfs := 1000,
    keW := defaultKe, ke := defaultKe, zcToW := 70, zcTo := 70, nlW := .reset, nl := .reset, nomf := false,
    clear := false, totals := .zero, wrap := Vector.replicate 10 0, pRun := 0, qRun := 0, pChg := false, qChg := false,
    nozcSeen := false, fixedMode := false, unassigned := 0, arriving := 0, creepP := 0, creepQ := 0, creepS := 0, frozenCnt := 0, waitValid := true,
    len := 0, sums := Vector.replicate 4 .zero, clipSeen := false, unalignedSeen := false, next := .reset,
    startT := .zero, pRunT := .zero, qRunT := .zero, det := .reset, fixPhase := 0, due := .none, held := false,
    quad := Vector.replicate 3 .zero, quadPrev := Vector.replicate 3 .zero, tune := 50, vcal := Vector.replicate 4 .reset,
    stopped := false, block := [], lastEp := 0, lastAdd := Vector.replicate 10 0 }

def CfOut.reset : CfOut :=
  { cfgW := 0x14000, cfg := 0x14000, qppW := 0, qpp := 0, acc := 0, sched := [], lastStart := none, started := none, pulse := none,
    change := false, level := false }

def Latch.reset : Latch := { image := none, seq := 0 }

def Energy.reset : Energy := { dirHw := [], dirQueue := [], hostLatch := .reset, mpLatch := .reset }

def WinValues.empty : WinValues := { words := [], harm := [], phase := [], ports := [], hpow := [] }

def PqResult.reset : PqResult := { seq := 0, status := 0, block := [], draw := 0, vals := .empty }

def Aggregate.reset : Aggregate :=
  { count := 0, status := 0, freqSum := 0, freqCnt := 0, words := [], harm := [], ports := [], hpow := [] }

def PqSet.reset : PqSet :=
  { cfgW := 0x526E5A11, cfg := 0x526E5A11, udinW := 0x0BEBC200, udin := 0x0BEBC200, evtW := 0x1F140F1E,
    evt := 0x1F140F1E, ref := none, pendRef := [], det := .reset, negArmed := false, detY := 0, lastCross := none,
    prevCross := none, crossings := 0, winLen := 0, winStart := 0, winV := Vector.replicate 4 [], winI := Vector.replicate 24 [], winStatus := 0, settle := 65, halfLen := 0, halfPrevLen := 0,
    halfSq := Vector.replicate 3 0, halfPrevSq := Vector.replicate 3 0, halfPhase := 0, vals := Vector.replicate 3 [],
    cycleLen := 0, past := Vector.replicate 3 [], halfVal := none, valTicks := [], winPend := none, winClose := 0, firstWin := true, synced := false, dip := none, swell := none,
    intr := none, rvc := none, trans := Vector.replicate 3 none, transDue := 0, results := Vector.replicate 4 .reset,
    aggs := Vector.replicate 3 .reset, freqCycles := 0, freqFirst := 0, freqLast := 0, freqNs := 0, freqMark := 0, freq10 := 0, freqStatus := 0, waitCross := true,
    stepSeen := false }

def Flicker.reset : Flicker :=
  { filt := [], classes := [], boundary := none, pinst := 0, settleLeft := 0, gather := 0, pst := 0, pstStatus := 0, pstTime := .zero, psts := [], plt := 0,
    pltStatus := 0, pltTime := .zero }

def SupraResult.reset : SupraResult := { seq := 0, status := 0, time := .zero, excl := 0, bands := Vector.replicate 2 [] }

def SupraSum.empty : SupraSum := { count := 0, excl := 0, sq := Vector.replicate 2 [] }

def NoiseSum.empty : NoiseSum := { count := 0, power := [] }

def PqUnit.reset : PqUnit :=
  { chFeW := Vector.replicate 32 0, chFe := Vector.replicate 32 0, ilW := Vector.replicate 24 0,
    il := Vector.replicate 24 0, flicker := Vector.replicate 8 .reset, fifo := [], evSeq := 0, evOvf := 0, latest := [],
    restored := [], supra := Vector.replicate 3 .reset, supraOpen := Vector.replicate 2 .empty, supraLast := 0,
    wbWin := Vector.replicate 2 [],
    noise := Vector.replicate 16 [], noiseSums := Vector.replicate 16 .empty, noiseBlk := Vector.replicate 2 [], noiseBad := false, noiseNs := 0,
    noiseStale := 0xFFFF, noiseTime := .zero, winTx := false, wbGap := true }

def Save.reset : Save :=
  { saving := false, cause := 0, time := .zero, legal := 0, kStart := 0, pages := 0, lowKettleAo := false }

def Firn.reset : Firn :=
  { arr := [], ram := [], slots := [], gseq := [], reqs := [], issued := 0,
    charge := none, unclean := false, torn := false, lostSeen := false, lowKettle := false, kettleSmall := false,
    worn := false, wear := false, tornPages := 0, refreshes := 0, defers := 0, mpWaitMax := 0, dispStalls := 0,
    ptCkpt := 0, ptMatch := 0, ptTrace := 0, ptScrub := 0, ptSub := 0, scrubPage := 0, runLog := [],
    save := .reset }

def RtClock.reset : RtClock := { count := 0, wday := 0, trimAcc := 0, write := none, wdayDue := false }

def Alarm.reset : Alarm :=
  { time := 0, arm := false, fired := false, skipped := false, wake := false, late := false, due := false,
    dueSkip := false }

def Clocks.reset : Clocks :=
  { legal := .reset, service := .reset, ltrim := 0xFFFF0000, ctheta := 0, cfg := 0x100, oscStopped := true,
    crystalRuns := false, legalInvalid := true, slewing := false, legalFar := false, tcFallback := false,
    tcClamp := false, vbakLow := false, chgOn := false, bndMissed := false, slewSeconds := 0, tcTemp := 0,
    alarms := Vector.replicate 4 .reset, base := 0, slewCfg := 0x3C10, ofs := 0, 
    skipSample := false, slewTotal := 0, slewPos := false, slewTick := 0,
    slewHeld := 0, billCfg := 3, billCfgW := 3, billSeq := 0, billStart := 0, billFlags := 0, billIsOpen := false, billExtra := 0,
    boundaryDue := false, boundary := none, records := [], tcomp := [], tcTable := [], latched := none }

def Tout.reset : Tout :=
  { en := false, periodic := false, pol := false, arm := false, fired := false, late := false, rephased := false,
    suppressed := 0, time := 0, period := 1000000000, width := 1000000, pend := none, armedLate := false,
    armedExact := false, nextEdge := none, pulse := none, level := false }

def Time.reset : Time :=
  { rt := 0, ticks := 0, inUse := false, seen := false, epoch := 0, mode := .free, lost := false, stepPull := false,
    lockRun := 0, pulling := false, rate := 0, effRate := 0, servo := 0, cfg := 0x3C00, fadj := 0, syncOk := false,
    valid := false, ppsLock := false, ppsLost := false, ppsFar := false, ppsRun := 0, ppsClear := none, adopted := false,
    syncErr := 0, offset := 0, farRun := 0, step := none, lastAt := none, offStep := none, stepStore := false, startStored := false, startWorn := false,
    outs := Vector.replicate 4 .reset }

def LinkPort.reset : LinkPort :=
  { up := false, good := 0, delay := 0, history := [], xseq := 0, sentT1 := none, asym := 0, uid := 0 }

def RosterEntry.reset : RosterEntry := { st := .free, uid := 0, up := 0, down := 0, upUid := 0, downUid := 0, gen := 0 }

def BalSum.zero : BalSum := { net := 0, flags := 0 }

def BalGroup.reset : BalGroup := { desc := [], seq := 0, run := 0, alarm := false, result := [] }

def Ring.reset : Ring :=
  { isHead := false, wasHead := false, addr := 0, gap := none, wrapPend := none, wrapQuiet := 0, portA := .reset,
    portB := .reset, dupAddr := false, ringFull := false, headConflict := false, codeErr := 0, frameErr := 0,
    deferred := 0, abandoned := 0, hcfg := 0, roster := Vector.replicate 61 .reset, order := [], enumDue := false,
    txq := [], sent := [], sentCycle := 0, txSeq := Vector.replicate 16 0, lastSeen := [], fwdCorr := 0, backoff := 0, headUid := none, balPeriod := 0, learned := [],
    quietDst := [],
    balOpen := Vector.replicate 24 .zero, balStart := .zero, balOff := true, balGap := false, balEnded := none, reports := [],
    groups := Vector.replicate 16 .reset, mirror := [], mirrorGen := 0, mirrorDue := false, halves := [], push := [],
    alarmEvents := 0 }

def Node.reset : Node :=
  { st := 0, id := 0, phase := 0, snr := 0, last := 0, epoch := 0, polled := 0, missed := 0, missRun := 0,
    failed := false, seq := 0, uplink := [], downlink := [], levels := [] }

def Plc.reset : Plc :=
  { en := false, txAtt := 0, poll := 100, fixedMaps := false, mode := 0, overrun := false, polls := 0, fails := 0,
    repolls := 0, pausedMs := 0, nodes := Vector.replicate 240 .reset, pendNodes := [], leaves := [], maps := [],
    oldMaps := [], mapVer := 0, base := 0, baseStored := false, mapOwed := false, mapNew := false, lastVer := none, staleSegs := 0,
    turnLeft := [], turnLeaves := [], turnPend := false, prepared := none, xchg := none, txFrames := [], txUntil := 0, ident := none }

def AuxInput.reset : AuxInput :=
  { result := 0, stamp := .zero, tick := none, low := 0, high := 0xFFFF, en := false, outside := none, flag := false }

def Aux.reset : Aux :=
  { inputs := Vector.replicate 16 .reset, powered := false, ready := false, lowPower := false, lowPowerPend := none, regular := [],
    regPeriod := 0, injected := [], injPeriod := 0, pending := [], running := none, passLeft := [], passPend := false,
    cal := false, calDue := false, lateSeen := false, injWaits := 0, regLate := 0, cals := 0, lastExit := none,
    calTemp := none }

def S0In.reset : S0In :=
  { en := false, debounce := 2000, pendCfg := none, gray := 0, sampled := 0, acked := 0, overrun := false, total := 0,
    last := .zero }

def Display.reset : Display :=
  { mode := 0, inv := 0, width := 0, height := 0, taux := 0, pendCfg := none, st := 0, band := 3, bandUsed := false,
    stale := false, inexact := false, repairLost := 0, lostFrames := 0, updates := 0, luts := Vector.replicate 8 none,
    unif := [], draw := [], shown := [], record := [], upd := none, dpwrEn := false, doe := false,
    frameNo := 0, lastFrame := [], legacyCopy := [], crevOpen := false, crevRun := 0, crevGood := 0, crevNew := false,
    checkPend := false, repairDue := false, legalMask := 0, lastRedraw := none, stripDue := false, stripKey := [] }

def Cdc.reset : Cdc :=
  { stall := 0, stalls := Vector.replicate 12 0, drops := Vector.replicate 12 0, last := .zero }

/-- The machine right after reset: an unpowered blank device whose queue of commands is empty. -/
def State.reset : State :=
  { pending := [], fresh := 0, power := .reset, sec := .reset, mp := .reset, hw := .reset, mb := .reset,
    ports := Vector.ofFn (fun i => .reset i.val), volts := Vector.replicate 8 .reset, cal := .reset,
    circuits := Vector.ofFn (fun i => .reset i.val), cfs := Vector.replicate 8 .reset, energy := .reset,
    pqSets := Vector.replicate 2 .reset, pq := .reset, firn := .reset, clk := .reset, time := .reset, ring := .reset,
    plc := .reset, aux := .reset, s0 := Vector.replicate 8 .reset, disp := .reset, cdc := .reset }

end Sys2Proof.Machine
end

