-- ==== Sys2Proof/Machine/Ops.lean ====
section
/-! DEFINITION. The named operations over the state: byte memories in canonical form, one record of a bank of registers,
free values, interrupt flags and timestamps. Every meaning is written over these. -/

namespace Sys2Proof.Machine

/-! ### Memories. `d` is the byte an unlisted address reads as. -/

/-- The canonical form: addresses strictly rising, no cell equal to the unlisted byte. -/
def Memory.wf (d : Byte) : Memory → Bool
  | [] => true
  | [c] => c.2 != d
  | c :: c' :: m => c.2 != d && decide (c.1 < c'.1) && Memory.wf d (c' :: m)

/-- The byte at an address. -/
def memGet (d : Byte) (m : Memory) (a : Nat) : Byte :=
  match m.find? (fun c => c.1 == a) with
  | some c => c.2
  | none => d

/-- The cells that hold bytes from an address upward. -/
def memCells (d : Byte) : Nat → List Byte → Memory
  | _, [] => []
  | a, b :: bs => if b = d then memCells d (a + 1) bs else (a, b) :: memCells d (a + 1) bs

/-- Bytes written from an address upward. -/
def memPuts (d : Byte) (m : Memory) (a : Nat) (bs : List Byte) : Memory :=
  m.filter (fun c => decide (c.1 < a)) ++ memCells d a bs ++ m.filter (fun c => decide (a + bs.length ≤ c.1))

/-- One byte written. -/
def memPut (d : Byte) (m : Memory) (a : Nat) (b : Byte) : Memory := memPuts d m a [b]

/-- n bytes from an address. -/
def memSlice (d : Byte) (m : Memory) (a n : Nat) : List Byte :=
  let near := m.filter (fun c => decide (a ≤ c.1) && decide (c.1 < a + n))
  (List.range n).map (fun i => memGet d near (a + i))

/-! ### One record of a bank -/

def State.modPort (s : State) (p : Fin 24) (f : Port → Port) : State := { s with ports := vmod s.ports p f }

def State.modTracer (s : State) (p : Fin 24) (f : Tracer → Tracer) : State :=
  s.modPort p (fun r => { r with tracer := f r.tracer })

def State.modVolt (s : State) (v : Fin 8) (f : Volt → Volt) : State := { s with volts := vmod s.volts v f }

def State.modCir (s : State) (c : Fin 24) (f : Circuit → Circuit) : State := { s with circuits := vmod s.circuits c f }

def State.modCf (s : State) (o : Fin 8) (f : CfOut → CfOut) : State := { s with cfs := vmod s.cfs o f }

def State.modSet (s : State) (b : Fin 2) (f : PqSet → PqSet) : State := { s with pqSets := vmod s.pqSets b f }

def State.modPq (s : State) (f : PqUnit → PqUnit) : State := { s with pq := f s.pq }

def State.modHw (s : State) (f : HwRegs → HwRegs) : State := { s with hw := f s.hw }

def State.modMb (s : State) (f : Mailbox → Mailbox) : State := { s with mb := f s.mb }

def State.modSec (s : State) (f : Security → Security) : State := { s with sec := f s.sec }

def State.modMp (s : State) (f : Mp → Mp) : State := { s with mp := f s.mp }

def State.modCal (s : State) (f : Cal → Cal) : State := { s with cal := f s.cal }

def State.modFirn (s : State) (f : Firn → Firn) : State := { s with firn := f s.firn }

def State.modClk (s : State) (f : Clocks → Clocks) : State := { s with clk := f s.clk }

def State.modTime (s : State) (f : Time → Time) : State := { s with time := f s.time }

def State.modTout (s : State) (n : Fin 4) (f : Tout → Tout) : State :=
  s.modTime (fun t => { t with outs := vmod t.outs n f })

def State.modRing (s : State) (f : Ring → Ring) : State := { s with ring := f s.ring }

def State.modPlc (s : State) (f : Plc → Plc) : State := { s with plc := f s.plc }

def State.modNode (s : State) (i : Fin 240) (f : Node → Node) : State :=
  s.modPlc (fun p => { p with nodes := vmod p.nodes i f })

def State.modAux (s : State) (f : Aux → Aux) : State := { s with aux := f s.aux }

def State.modAuxIn (s : State) (i : Fin 16) (f : AuxInput → AuxInput) : State :=
  s.modAux (fun a => { a with inputs := vmod a.inputs i f })

def State.modS0 (s : State) (i : Fin 8) (f : S0In → S0In) : State := { s with s0 := vmod s.s0 i f }

def State.modDisp (s : State) (f : Display → Display) : State := { s with disp := f s.disp }

def State.modCdc (s : State) (f : Cdc → Cdc) : State := { s with cdc := f s.cdc }

def State.modPower (s : State) (f : Power → Power) : State := { s with power := f s.power }

/-- f applied over a list of indexes, in order. -/
def State.forEach {α : Type} (s : State) (l : List α) (f : α → State → State) : State :=
  l.foldl (fun t a => f a t) s

/-- All indexes below n. -/
def fins (n : Nat) : List (Fin n) := List.finRange n

/-! ### Free values -/

/-- The next free value's index; the counter moves on. -/
def State.draw (s : State) : Nat × State := (s.fresh, { s with fresh := s.fresh + 1 })

/-- The length in ns of an interval that ends `d` sample ticks after the one it began in: what a command's own instants inside their sample
periods leave open is a free value, so it lies above (d - 1) and below (d + 1) periods of 31,250 ns. -/
def elapsedNs (draw k d : Nat) : Nat :=
  if d = 0 then Config.subTick draw k % 31250 else 31250 * (d - 1) + 1 + Config.subTick draw k % 62499

/-- The same in whole µs. -/
def elapsedUs (draw k d : Nat) : Nat := elapsedNs draw k d / 1000

/-! ### Interrupt flags (R287) -/

def irqCmdSpace : Nat := 1
def irqEvent : Nat := 2
def irqClock : Nat := 3
def irqMpReset : Nat := 4
def irqSwap : Nat := 5
def irqPfail : Nat := 6
def irqLifecycle : Nat := 7
def irqErr : Nat := 8

/-- Sets one flag of HW_IRQ. -/
def State.raise (s : State) (k : Nat) : State := s.modHw (fun h => { h with irq := h.irq ||| BitVec.ofNat 9 (2 ^ k) })

/-- HW_IRQ[8:0] as read: RSP is computed from the response indices. -/
def HwRegs.flags (h : HwRegs) : BitVec 9 := (h.irq &&& 0x1FE) ||| (if h.rspPi ≠ h.rspCi then 1 else 0)

/-- HIRQ_N is asserted (R287). -/
def HwRegs.irqAsserted (h : HwRegs) : Bool := (h.flags &&& h.irqEn) != 0

/-! ### Timestamps (R224, R225) -/

/-- The nominal sample period, 31,250 ns, in 2^-16 ns. -/
def tickUnits : Nat := 31250 * 65536

/-- Ring time, or the free count, of the present sample instant in ns. -/
def State.nowNs (s : State) : Nat := s.time.rt / 65536

/-- QUAL.RING: ring time is in use and, on the head, its epoch is stored (R227). -/
def State.ringQual (s : State) : Bool := s.time.inUse && (!s.ring.isHead || s.time.startStored)

/-- The full stamp of an instant given in ns. -/
def State.stampAt (s : State) (ns : Nat) : Stamp :=
  { ns := BitVec.ofNat 32 (ns % 1000000000), sec := BitVec.ofNat 48 (ns / 1000000000), epoch := s.time.epoch,
    ring := s.ringQual, valid := s.time.valid, lock := decide (s.time.mode = .lock) }

def State.stamp (s : State) : Stamp := s.stampAt s.nowNs

/-- The grid point of the present sample (R41): the nearest whole multiple of 31,250 ns, the earlier one on a tie (R44). -/
def State.gridNs (s : State) : Nat := (s.time.rt + tickUnits / 2 - 1) / tickUnits * 31250

/-- The stamp of the present sample: a tick's instant labels the sample that leaves the port's buffer on it, four behind the newest
(DESIGN CHOICE: R18 and R20 leave open which buffered sample a tick's ring time labels; assumption log row 60). -/
def State.gridStamp (s : State) : Stamp := s.stampAt s.gridNs

/-- Total nanoseconds of a stamp. -/
def Stamp.total (t : Stamp) : Nat := t.sec.toNat * 1000000000 + t.ns.toNat

/-- The 12 bytes of a stamp (R224). -/
def Stamp.bytes (t : Stamp) : List Byte :=
  leBytes 4 t.ns.toNat ++ leBytes 6 t.sec.toNat ++ leBytes 1 t.epoch.toNat ++
    leBytes 1 (bitN t.ring + 2 * bitN t.valid + 4 * bitN t.lock)

/-- A stamp read from 12 bytes. -/
def stampOf (bs : List Byte) : Stamp :=
  { ns := BitVec.ofNat 32 (leAt bs 0 4), sec := BitVec.ofNat 48 (leAt bs 4 6), epoch := BitVec.ofNat 4 (leAt bs 10 1),
    ring := bitB (leAt bs 11 1) 0, valid := bitB (leAt bs 11 1) 1, lock := bitB (leAt bs 11 1) 2 }

/-- The low 32 bits of the total nanosecond count (R225). -/
def shortStamp (ns : Nat) : Word := BitVec.ofNat 32 ns

/-! ### What runs -/

/-- RUN or LEAN: PD_FIRN is powered, from KETTLE while a save runs (R201, R408). -/
def State.firnOn (s : State) : Bool := decide (s.power.state = .run) || decide (s.power.state = .lean)

/-- PD_DSP, PD_MP and PD_RING are powered (R408): RUN or LEAN with VSUP valid. -/
def State.coreOn (s : State) : Bool := s.firnOn && s.power.vsupValid

/-- Metrology runs: LOADED, powered, not frozen. -/
def State.metering (s : State) : Bool := s.coreOn && s.hw.loaded && !s.hw.frozen

/-- A crossing of R396 is in CDC_STALL (R399, R405). -/
def State.stalled (s : State) (k : Nat) : Bool := s.cdc.stall.getLsbD k

/-- The MP takes and executes commands (R306, R307, R427); its clock has not stopped (R400). -/
def State.mpRuns (s : State) : Bool := s.coreOn && s.hw.mpReady && !s.mp.halted && !s.stalled 5

/-- This unit's address as the UNIT byte of a response (R294). -/
def State.unitByte (s : State) : Nat := s.ring.addr.toNat

/-- Posts an event of the MP: R75, R119, R277, R363. HW_IRQ.EVENT is set when the MP posts it (MP_EVENT_POST). -/
def State.postEvent (s : State) : State := s.modMp (fun m => { m with events := m.events + 1 })

end Sys2Proof.Machine
end

