-- ==== Sys2Proof/Machine/Operands.lean ====
section
/-! DEFINITION. The fields of the configuration registers, and which channels and ports a configuration names. -/

namespace Sys2Proof.Machine

/-! ### PORTn_CFG (R35) -/

def portEn (w : Word) : Bool := bitB w.toNat 0
def portDual (w : Word) : Bool := bitB w.toNat 1
def portSensor (w : Word) : Nat := bitsN w.toNat 3 2
def portLeak (w : Word) : Nat := 16 + bitsN w.toNat 7 4
def portInv (w : Word) : Bool := bitB w.toNat 8

/-- Reserved bits 0, SENSOR not 0b11, LEAK 0x0 to 0x6 (R9, R35). -/
def portCfgOk (w : Nat) : Bool := decide (w < 512) && bitsN w 3 2 != 3 && decide (bitsN w 7 4 ≤ 6)

/-! ### CIRn_CFG (R48, R49) -/

def cirEn (w : Word) : Bool := bitB w.toNat 0
def cirType (w : Word) : Nat := bitsN w.toNat 2 1
def cirSet (w : Word) : Nat := bitsN w.toNat 3 3
def cirVsel (w : Word) : Nat := bitsN w.toNat 5 4
def cirRefv (w : Word) : Nat := bitsN w.toNat 7 6

/-- The port field of element k, A to D. -/
def cirPortField (w : Word) (k : Nat) : Nat := bitsN w.toNat (12 + 5 * k) (8 + 5 * k)

/-- CIRn_CFG with the port field of element k set to 0. -/
def cirDropPort (w : Word) (k : Nat) : Word := w - BitVec.ofNat 32 (cirPortField w k * 2 ^ (8 + 5 * k))

/-- The number of elements of a wiring type (R48). -/
def typeElems (t : Nat) : Nat := t + 1

/-- The voltage input of the set, 0 to 2, that element k uses; none where the element has no voltage (R48). -/
def elemVolt (w : Word) (k : Nat) : Option Nat :=
  match cirType w with
  | 0 => if k = 0 then some (cirVsel w) else none
  | 1 => if k = 0 then some 0 else if k = 1 then some 2 else none
  | 2 => if k < 3 then some k else none
  | _ => if k < 3 then some k else none

/-- Number of elements with a voltage, N_V of R55. -/
def cirNv (w : Word) : Nat := ((List.range 4).filter (fun k => (elemVolt w k).isSome)).length

/-- Voltage input 0 to 7 of element k. -/
def elemVoltIdx (w : Word) (k : Nat) : Option (Fin 8) :=
  (elemVolt w k).map (fun v => Fin.ofNat 8 (4 * cirSet w + v))

/-- The reference voltage input of a circuit. -/
def cirRefVolt (w : Word) : Fin 8 := (elemVoltIdx w (cirRefv w)).getD (Fin.ofNat 8 (4 * cirSet w))

/-- Element k's port as an index from 0. -/
def elemPort (w : Word) (k : Nat) : Option (Fin 24) :=
  let f := cirPortField w k
  if k < typeElems (cirType w) ∧ 1 ≤ f ∧ f ≤ 24 then some (Fin.ofNat 24 (f - 1)) else none

/-- The ports an enabled circuit holds. -/
def cirPorts (w : Word) : List (Fin 24) := if cirEn w then (List.range 4).filterMap (elemPort w) else []

/-- The circuit word alone is legal in a map (R49, R50): reserved bits and VSEL always, the other field rules for an enabled
circuit only (R319). -/
def cirWordOk (w : Nat) : Bool :=
  let c := BitVec.ofNat 32 w
  decide (w < 2 ^ 28) && decide (cirVsel c ≠ 3) &&
    (!cirEn c ||
      ((elemVolt c (cirRefv c)).isSome &&
        (List.range 4).all (fun k =>
          if k < typeElems (cirType c) then decide (1 ≤ cirPortField c k) && decide (cirPortField c k ≤ 24)
          else cirPortField c k == 0)))

/-- No port twice in the enabled circuits of a map (R50). -/
def cirMapOk (ws : List Word) : Bool :=
  ws.all (fun w => cirWordOk w.toNat) && decide ((ws.flatMap cirPorts).Nodup)

/-- The circuit in effect that holds port p (R53: enabled circuits only). -/
def State.circuitOf (s : State) (p : Fin 24) : Option (Fin 24) :=
  (fins 24).find? (fun c => (cirPorts s.circuits[c].cfg).contains p)

/-! ### CFn_CFG (R86) -/

def cfEn (w : Word) : Bool := bitB w.toNat 0
def cfCircuit (w : Word) : Nat := bitsN w.toNat 5 1
def cfSrc (w : Word) : Nat := bitsN w.toNat 9 6
def cfWidth (w : Word) : Nat := bitsN w.toNat 16 10
def cfPol (w : Word) : Bool := bitB w.toNat 17

/-- The accumulators a CF source adds (R86). -/
def cfSources (src : Nat) : List (Fin 10) :=
  match src with
  | 0 => [0] | 1 => [1] | 2 => [0, 1] | 3 => [2] | 4 => [3] | 5 => [4] | 6 => [5]
  | 7 => [2, 3, 4, 5] | 8 => [6, 7] | 9 => [8, 9] | _ => []

/-- The source circuit of a configuration, from 0. -/
def cfCir (w : Word) : Option (Fin 24) :=
  if 1 ≤ cfCircuit w ∧ cfCircuit w ≤ 24 then some (Fin.ofNat 24 (cfCircuit w - 1)) else none

/-! ### VSETn_CFG and the further power-quality parameters (R91 to R93) -/

def vsEn (w : Word) : Bool := bitB w.toNat 0
def vsDelta (w : Word) : Bool := bitB w.toNat 1
def vsNomf (w : Word) : Bool := bitB w.toNat 2

def vsLamp (w : Word) : Bool := bitB w.toNat 3
def vsDip (w : Word) : Nat := bitsN w.toNat 15 8
def vsSwell (w : Word) : Nat := bitsN w.toNat 23 16
def vsHyst (w : Word) : Nat := bitsN w.toNat 27 24
def vsInt (w : Word) : Nat := bitsN w.toNat 31 28
def evRvc (w : Word) : Nat := bitsN w.toNat 7 0
def evRvcHyst (w : Word) : Nat := bitsN w.toNat 15 8
def evTr (w : Word) : Nat := bitsN w.toNat 23 16
def evEn (w : Word) (k : Nat) : Bool := bitB w.toNat (24 + k)

/-- Reserved bits of VSETn_CFG and of VSETn_EVT (R9, R91, R93). -/
def vsetCfgRsv (w : Nat) : Bool := bitsN w 7 6 != 0
def evtRsv (w : Nat) : Bool := bitsN w 31 29 != 0

def vsetCfgOk (w : Nat) : Bool :=
  let c := BitVec.ofNat 32 w
  !vsetCfgRsv w && decide (1 ≤ vsDip c) && decide (vsDip c ≤ 99) && decide (101 ≤ vsSwell c) &&
    decide (vsSwell c ≤ 200) && decide (1 ≤ vsHyst c) && decide (1 ≤ vsInt c) &&
    decide (vsInt c + vsHyst c < vsDip c) && decide (100 + vsHyst c < vsSwell c)

def udinOk (w : Nat) : Bool := decide (5000000 ≤ w) && decide (w ≤ 300000000)

def evtOk (w : Nat) : Bool :=
  let c := BitVec.ofNat 32 w
  !evtRsv w && decide (10 ≤ evRvc c) && decide (evRvc c ≤ 60) && decide (1 ≤ evRvcHyst c) &&
    decide (evRvcHyst c + 1 ≤ evRvc c) && decide (5 ≤ evTr c) && decide (evTr c ≤ 200)

def chFeOk (w : Nat) : Bool := decide (w < 65536) && (w == 0 || (decide (500 ≤ w) && decide (w ≤ 10000)))

/-- The set (0 A, 1 B) whose reference voltage serves port p; set A for a port in no circuit (R91). -/
def State.setOfPort (s : State) (p : Fin 24) : Fin 2 :=
  match s.circuitOf p with
  | some c => Fin.ofNat 2 (cirSet s.circuits[c].cfg)
  | none => 0

/-- The NOMF in effect for a port's integrator: its circuit's own (R91), or 50 Hz for a port in no circuit (R38). -/
def State.nomfOfPort (s : State) (p : Fin 24) : Bool :=
  match s.circuitOf p with
  | some c => s.circuits[c].nomf
  | none => false

/-- The NOMF in effect for a port's pilot: its circuit's own, or set A's for a port in no circuit (R147). -/
def State.pilotNomf (s : State) (p : Fin 24) : Bool :=
  match s.circuitOf p with
  | some c => s.circuits[c].nomf
  | none => vsNomf s.pqSets[(0 : Fin 2)].cfgW

/-! ### TRCn_CFG (R153) -/

def trcEn (w : Word) : Bool := bitB w.toNat 0
def trcFreq (w : Word) : Nat := bitsN w.toNat 3 1

/-! ### Channels 1 to 32: ports 1 to 24, voltages 25 to 32, numbered here from 0 -/

/-- The port of a channel, or its voltage input. -/
def chanSplit (ch : Fin 32) : Fin 24 ⊕ Fin 8 :=
  if ch.val < 24 then .inl (Fin.ofNat 24 ch.val) else .inr (Fin.ofNat 8 (ch.val - 24))

end Sys2Proof.Machine
end

