-- ==== Sys2Proof/Machine/Ports.lean ====
section
/-! DEFINITION. The path of a sample from the decimators to the engines: the stitcher (R20 to R23), the correction chain
(R32, R33), the Rogowski integrator (R38 to R40) and the matching loop (R24 to R31). -/

namespace Sys2Proof.Machine

/-- Full scale of a sample, 500 mV (R17). -/
def fullScale : Int := 2 ^ 30

/-- The least magnitude at or above T_UP, 12.5 mV (R20). -/
def tUp : Nat := 26843546

/-- The greatest magnitude below T_DOWN, 10.9375 mV (R20). -/
def tDown : Nat := 23488102

/-- The sample of a channel in the buffer, newest first; samples not yet taken read 0. -/
def PathSample.zero : PathSample := { coarse := 0, fine := 0, ovl := false }

/-- Where the sample that emerges now lies in the buffer: 4 samples behind the newest, 2 with the integrator on (R39). -/
def centre (cfg : Word) : Nat := if portSensor cfg = 2 then 2 else 4

/-- Greatest coarse magnitude around sample j of the buffer: k from j - 4 to j + 4 as far as the buffer holds them (R20). With the
integrator on, the buffer of R39 holds two samples ahead of the emerging one and not four (assumption log row 60). -/
def nearMag (j : Nat) (h : List PathSample) : Nat :=
  ((h.take (j + 5)).map (fun x => x.coarse.natAbs)).foldl max 0

/-- A fine overload over the same samples (R20). -/
def nearOvl (j : Nat) (h : List PathSample) : Bool := (h.take (j + 5)).any (fun x => x.ovl)

/-- The path the stitcher selects for sample j of the buffer, coming from path `fine`: true = FINE (R20, R21, R23). -/
def pathAt (j : Nat) (fine : Bool) (r : Port) : Bool :=
  if !portDual r.cfg || decide (r.mstate = .fault) then false
  else if fine then !(decide (tUp ≤ nearMag j r.hist) || nearOvl j r.hist)
  else decide (nearMag j r.hist ≤ tDown) && !nearOvl j r.hist

/-- The path of the emerging sample. -/
def pathOf (r : Port) : Bool := pathAt (centre r.cfg) r.fineSel r

/-- Fine sample j of the buffer corrected to the coarse path: divided by G and advanced by D (R26). -/
def matchFine (j : Nat) (r : Port) : Rat :=
  let d := r.dUse.toInt
  let fines := r.hist.map (fun x => x.fine)
  let raw : Rat := if d = 0 then ((fines.getD j 0 : Int) : Rat) else Config.advanced j d fines
  raw * 2 ^ 30 / r.gUse.toNat

/-- A coarse sample clipped at full scale (R22). -/
def clipCoarse (x : Int) : Int := clampInt (-fullScale) fullScale x

/-- Sample j of the buffer on a path (R20). -/
def stitched (j : Nat) (fine : Bool) (r : Port) : Rat :=
  if fine then matchFine j r else ((clipCoarse (r.hist.getD j .zero).coarse : Int) : Rat)

/-- The emerging sample joins the sums of the match block where it is in range (R24, R25): over ±4 samples the coarse magnitude is below
T_UP and no fine sample is overloaded. Samples of a port with EN = 0 or DUAL = 0, or that settle, are not in range (log row 61). -/
def fitSample (r : Port) : Port :=
  let j := centre r.cfg
  let x := r.hist.getD j .zero
  let e := (r.hist.getD (j - 1) .zero).coarse - (r.hist.getD (j + 1) .zero).coarse
  if portEn r.cfg && portDual r.cfg && r.settle == 0 && decide (nearMag j r.hist < tUp) && !nearOvl j r.hist then
    { r with inRange := r.inRange + 1, inRangeSq := r.inRangeSq + x.coarse.natAbs ^ 2, fitCE := r.fitCE + x.coarse * e,
             fitEE := r.fitEE + e * e, fitFC := r.fitFC + x.fine * x.coarse, fitFE := r.fitFE + x.fine * e }
  else r

/-- The samples of a match block (R24). -/
def blockLen : Nat := 32000

/-- The emerging sample counts in its match block, which waits for its end once it is full (R24). -/
def blockSample (r : Port) : Port :=
  if blockLen ≤ r.blockCnt then r else fitSample { r with blockCnt := r.blockCnt + 1 }

/-- The port with the emerging sample stitched: flags, switch count, match block; and the stitched value in LSB. -/
def stitch (r : Port) : Port × Rat :=
  let j := centre r.cfg
  let fine := pathOf r
  let clipped := !fine && decide (fullScale ≤ (r.hist.getD j .zero).coarse.natAbs)
  let r' := { r with fineSel := fine, fineOvl := r.fineOvl || (r.fineSel && nearOvl j r.hist), coarseClip := r.coarseClip || clipped,
                     clip := clipped, switches := satAdd r.switches (if fine = r.fineSel then 0 else 1) }
  (blockSample r', stitched j fine r)

/-! ### The Tracer's pilot -/

/-- Twice the half-order of a pilot frequency (R147). -/
def pilotOrder2 (freq : Nat) : Nat := [41, 45, 53, 57, 65, 69, 77, 81].getD freq 41

/-- What a port's sample tick takes from outside the port: the tick's number, the NOMF of its integrator (R38) and of its pilot (R147). -/
structure PortClock where
  tick : Int
  nomf : Bool
  pnomf : Bool

/-- The phase of the pilot's in-phase reference in turns: (h + 0.5) × fnom on the sample grid, 0 at tick 0 (R147; log row 62). -/
def pilotTurn (c : PortClock) (w : Word) : Rat :=
  (pilotOrder2 (trcFreq w) * (if c.pnomf then 60 else 50) : Nat) * c.tick / 64000

/-- Samples of the linear ramp, 8 s (R150). -/
def rampTicks : Nat := 256000

/-- The pilot's amplitude as a fraction of 50 µA: a linear ramp over 8 s in RAMP, full in MEASURE (R150, R154). -/
def pilotAmp (t : Tracer) : Rat :=
  if t.st = 1 then ((min t.stTicks rampTicks : Nat) : Rat) / rampTicks else if t.st = 2 then 1 else 0

/-- The reconstructed pilot at a tick in LSB: the pilot phasor times the smoothed Z, 50 µA × 1 µΩ being 2^30 / 10^10 LSB (R149). -/
def pilotValue (c : PortClock) (t : Tracer) : Rat :=
  match t.zs with
  | none => 0
  | some z => pilotAmp t * (z.1 * cosTurn (pilotTurn c t.cfg) - z.2 * sinTurn (pilotTurn c t.cfg)) * 2 ^ 30 / 10 ^ 10

/-- Samples of a demodulation block, 0.25 s (R148). -/
def demLen : Nat := 8000

/-- The pilot is driven and subtracted (R149, R154): RAMP or MEASURE on an enabled port. -/
def pilotOn (r : Port) : Bool := portEn r.cfg && trcEn r.tracer.cfg && (r.tracer.st == 1 || r.tracer.st == 2)

/-- One stitched sample joins the demodulation block against the in-phase and quadrature references (R148). -/
def demodulate (c : PortClock) (x : Rat) (t : Tracer) : Tracer :=
  if demLen ≤ t.demN then t
  else { t with demI := t.demI + x * cosTurn (pilotTurn c t.cfg), demQ := t.demQ - x * sinTurn (pilotTurn c t.cfg),
                demAmp := t.demAmp + pilotAmp t, demN := t.demN + 1 }

/-- The Tracer at a sample tick: its time in the state, and the sample it demodulates (R148, R150, R154). -/
def tracerTick (c : PortClock) (x : Rat) (r : Port) : Port :=
  let t := { r.tracer with stTicks := r.tracer.stTicks + 1 }
  { r with tracer := if pilotOn r && r.settle == 0 then demodulate c x t else t }

/-- Z of the block in µΩ, each part to the nearest unit: the demodulated value divided by the pilot current (R148). -/
def demodulated (t : Tracer) : Option (Int × Int) :=
  if t.demAmp = 0 then none
  else some (roundRat (2 * t.demI * 10 ^ 10 / (t.demAmp * 2 ^ 30)), roundRat (2 * t.demQ * 10 ^ 10 / (t.demAmp * 2 ^ 30)))

/-- The share of a new block in the smoothed Z: 1 - exp(-0.25 s / 4 s) (R149; log row 62). -/
def zShare : Rat := 60586937187 / 10 ^ 12

/-- Z smoothed with a time constant of 4 s; the first block of a run sets it (R149). -/
def smoothZ (z : Int × Int) : Option (Rat × Rat) → Option (Rat × Rat)
  | none => some (z.1, z.2)
  | some o => some (o.1 + (z.1 - o.1) * zShare, o.2 + (z.2 - o.2) * zShare)

/-! ### Correction -/

/-- K of the integrator (R38): NOMF false 50 Hz, true 60 Hz. -/
def rogK (nomf : Bool) : Rat := if nomf then 117812 / 10000000 else 98175 / 10000000

/-- The compensating delay of R40 in 1/1024 sample for leak exponent k. -/
def leakDelay (nomf : Bool) (k : Nat) : Int :=
  if nomf then [113, 56, 28, 14, 7, 4, 2].getD (k - 16) 0 else [162, 81, 41, 20, 10, 5, 3].getD (k - 16) 0

/-- One step of the integrator and its filter (R38, R39). -/
def rogStep (nomf : Bool) (k : Nat) (g : Rogowski) (x : Rat) : Rogowski × Rat :=
  let y := (1 - 1 / 2 ^ k) * g.y + rogK nomf * (x + g.x) / 2
  let taps := (y :: g.taps).take 5
  ({ y := y, x := x, taps := taps }, Config.rogowskiFir taps)

/-- The fractional delay (R33) over the samples of a buffer, newest first, whose undelayed sample stands at `centre`: a whole number of
samples takes that sample, anything else is the interpolator's. Samples not yet taken read 0; a sample newer than the buffer's newest is
left to the interpolator (log row 60). -/
def delayBy (centre : Nat) (d : Int) (buf : List Rat) : Rat :=
  let k : Int := centre + d / 1024
  if d % 1024 = 0 ∧ 0 ≤ k then buf.getD k.toNat 0 else Config.delayed centre d buf

/-- TRIM as a factor (R153). -/
def trimOf (w : Word) : Rat := (w.toNat : Rat) / 2 ^ 30

/-- Gain as a factor (R33). -/
def gainOf (c : CalRec) : Rat := (c.gain.toNat : Rat) / 2 ^ 22

/-- The steps of R32 that work sample by sample, after the stitch: pilot (R149), inversion, offset, integration (R38). The integrator's
next state and the value. -/
def chain (c : PortClock) (r : Port) (g : Rogowski) (x : Rat) : Rogowski × Rat :=
  let x := if pilotOn r then x - pilotValue c r.tracer else x
  let x := if portInv r.cfg then -x else x
  let x := x - (r.cal.offset.toInt * 128 : Int)
  if portSensor r.cfg = 2 then rogStep c.nomf (portLeak r.cfg) g x else (g, x)

/-- The samples of the buffer newer than the emerging one, taken through the same steps ahead of their time, newest first: what an
advance reads (R33). Each is stitched on as many samples ahead as the buffer still holds (log row 60). -/
def ahead (c : PortClock) (r : Port) : Nat → Bool → Rogowski → List Rat → List Rat
  | 0, _, _, l => l
  | j + 1, fine, g, l =>
    let fine := pathAt j fine r
    let y := chain { c with tick := c.tick + (centre r.cfg - j : Nat) } r g (stitched j fine r)
    ahead c r j fine y.1 (y.2 :: l)

/-- The correction chain of a current sample after the stitch (R32): pilot, inversion, offset, integration, delay, gain. -/
def correct (c : PortClock) (r : Port) (x : Rat) : Port :=
  let y := chain c r r.rog x
  let line := (y.2 :: r.line).take 9
  let d := r.cal.phase.toInt + (if portSensor r.cfg = 2 then leakDelay c.nomf (portLeak r.cfg) else 0)
  let newer := if d = 0 then List.replicate (centre r.cfg) 0 else ahead c r (centre r.cfg) r.fineSel y.1 []
  { r with rog := y.1, rogPrev := r.rog, line := line,
           out := delayBy (centre r.cfg) d (newer ++ line) * gainOf r.cal * trimOf r.tracer.trim / 2 ^ 30 }

/-- The port delivers a sample that the engines use (R19, R35). -/
def Port.usable (r : Port) : Bool := portEn r.cfg && r.settle == 0

/-- The age of the last accepted block advances by one sample (R30). -/
def ageTick (r : Port) : Port :=
  if blockLen ≤ r.ageSub + 1 then { r with ageSub := 0, age := satAdd r.age 1 } else { r with ageSub := r.ageSub + 1 }

/-- A port at a sample tick. A port with EN = 0 delivers zero. -/
def portTick (c : PortClock) (x : PathSample) (r : Port) : Port :=
  let r := ageTick r
  if portEn r.cfg then
    let r := { r with hist := (x :: r.hist).take 9, settle := if r.settle ≤ 1 then r.settle else r.settle - 1 }
    let st := stitch r
    correct c (tracerTick c st.2 st.1) st.2
  else { blockSample r with out := 0, clip := false, line := [], hist := [] }

/-- The emerging sample corrected once more, on the values now in effect: a change at a cycle close holds for the sample of
the closing tick, which is the next cycle's first (R28, R36, R63, R136). -/
def recorrect (c : PortClock) (r : Port) : Port :=
  if portEn r.cfg && !r.hist.isEmpty then
    correct c { r with rog := r.rogPrev, line := r.line.drop 1 } (stitched (centre r.cfg) (pathOf r) r)
  else { r with out := 0 }

/-- A voltage sample corrected with a record (R32) from the buffered raw samples: offset, delay, gain; 1.0 = full scale. -/
def correctVolt (cal : CalRec) (hist : List Rat) : Rat :=
  delayBy 4 cal.phase.toInt (hist.map (fun x => x - (cal.offset.toInt * 128 : Int))) * gainOf cal / 2 ^ 30

/-- The raw voltage sample that emerges now. -/
def Volt.raw (v : Volt) : Rat := v.hist.getD 4 0

/-- A voltage input at a sample tick, corrected with the record that power quality uses. -/
def voltTick (x : Int) (v : Volt) : Volt :=
  let v := { v with hist := (((clipCoarse x : Int) : Rat) :: v.hist).take 9 }
  { v with out := correctVolt v.calPq v.hist, clip := decide (((2 : Rat) ^ 30) ≤ |v.raw|) }

/-! ### Matching loop -/

/-- Block limits of R25 and the bands of R31. -/
def gLow : Nat := 0x3EB851EB
def gHigh : Nat := 0x4147AE14

/-- The block is valid (R24): 3,200 in-range samples and a coarse RMS of 0.2 mV over them. -/
def blockValid (r : Port) : Bool :=
  decide (3200 ≤ r.inRange) && decide ((2 ^ 31) ^ 2 * r.inRange ≤ r.inRangeSq * 5000 ^ 2)

/-- A TRACK update of a value by a sixteenth of the difference (R26), rounded to the nearest LSB. -/
def trackStep (old new : Int) : Int := old + roundDiv (new - old) 16

def meanOf (l : List Int) : Int := roundDiv l.sum l.length

/-- The loop's values after an accepted block in a state (R26). -/
def acceptBlock (g d : Word) (r : Port) : Port :=
  let r := { r with age := 0, ageSub := 0, badRun := 0 }
  match r.mstate with
  | .acquire =>
    let est := (g, d) :: r.est
    if 4 ≤ est.length then
      { r with est := [], mstate := .track,
               gCalc := BitVec.ofInt 32 (meanOf (est.map (fun e => (e.1.toNat : Int)))),
               dCalc := BitVec.ofInt 32 (meanOf (est.map (fun e => e.2.toInt))) }
    else { r with est := est }
  | .track | .hold =>
    { r with mstate := .track,
             gCalc := BitVec.ofInt 32 (trackStep r.gCalc.toNat g.toNat),
             dCalc := BitVec.ofInt 32 (trackStep r.dCalc.toInt d.toInt) }
  | .fault => r

/-- A rejected block (R25): the third in a row leads to FAULT. -/
def rejectBlock (r : Port) : Port :=
  let run := r.badRun + 1
  { r with rejects := satAdd r.rejects 1, badRun := run, mstate := if 3 ≤ run then .fault else r.mstate }

/-- The estimates g and d of a block in the formats of R31: the least-squares fit fine = g × c - g × d × c', with c'[n] =
(c[n+1] - c[n-1]) / 2 (R25; log row 61). None where the sums determine no fit. -/
def blockFit (r : Port) : Option (Int × Int) :=
  let det : Int := r.inRangeSq * r.fitEE - r.fitCE * r.fitCE
  let g : Int := r.fitFC * r.fitEE - r.fitFE * r.fitCE
  let b : Int := r.fitFE * r.inRangeSq - r.fitFC * r.fitCE
  if det ≤ 0 ∨ g = 0 then none
  else some (roundRat (mkRat (g * 2 ^ 30) det.toNat), roundRat (-(2 : Rat) * b * 2 ^ 16 / g))

/-- The estimates of a block pass R25. -/
def blockGood (g d : Int) : Bool :=
  decide ((gLow : Int) ≤ g) && decide (g ≤ gHigh) && decide (-0x4000 ≤ d) && decide (d ≤ 0x4000)

/-- The estimates by which a block is judged: those of its fit, or, where its samples determine none, those that come with the event. -/
def blockEst (g d : Word) (r : Port) : Int × Int := (blockFit r).getD (g.toNat, d.toInt)

/-- A block's sums start again. -/
def newBlock (r : Port) : Port :=
  { r with inRange := 0, inRangeSq := 0, blockCnt := 0, fitCE := 0, fitEE := 0, fitFC := 0, fitFE := 0 }

/-- A block that ends, before its values take effect (R24 to R26). A block that is not valid leaves the loop alone. -/
def matchBlock (g d : Word) (r : Port) : Port :=
  let e := blockEst g d r
  newBlock (
    if !blockValid r then r
    else if blockGood e.1 e.2 then acceptBlock (BitVec.ofInt 32 e.1) (BitVec.ofInt 32 e.2) r
    else rejectBlock r)

/-- 60 s without an accepted block lead from TRACK to HOLD (R26). -/
def holdTimeout (r : Port) : Port := if r.mstate = .track ∧ 60 ≤ r.age.toNat then { r with mstate := .hold } else r

/-- The loop's computed values come into use (R28). -/
def useMatch (r : Port) : Port := { r with gUse := r.gCalc, dUse := r.dCalc }

/-- The computed values differ from those in use. -/
def matchPending (r : Port) : Bool := r.gUse != r.gCalc || r.dUse != r.dCalc

/-- MATCH_STAT as read (R30). -/
def matchStat (r : Port) : Nat :=
  (match r.mstate with | .acquire => 0 | .track => 1 | .hold => 2 | .fault => 3) + 4 * bitN r.fineSel +
    8 * bitN r.fineOvl + 16 * bitN r.coarseClip + 32 * r.rejects.toNat + 256 * r.age.toNat + 65536 * r.switches.toNat

/-- The modulators of a port power up, with n samples to come before the first valid one (R19). -/
def powerUpPort (n : Nat) (r : Port) : Port :=
  { r with settle := n, hist := [], line := [], rog := { y := 0, x := 0, taps := [] }, rogPrev := { y := 0, x := 0, taps := [] } }

/-- PORTn_CFG takes effect (R36): EN from 0 to 1 starts the settling of R19, 64 sample periods from then. A close takes effect on its
sample tick (64 samples follow it and are not valid but the last), a change at once between two ticks (65). -/
def applyPortCfg (n : Nat) (r : Port) : Port :=
  let up := !portEn r.cfg && portEn r.cfgW
  let r := { r with cfg := r.cfgW }
  if up then powerUpPort n r else r

/-- The power domain of a port's modulators is on (R37): EN in effect on one of its twelve ports. -/
def State.iadcOn (s : State) (b : Bool) : Bool :=
  (fins 24).any (fun p => decide ((12 ≤ p.val) = (b = true)) && portEn s.ports[p].cfg)

/-- A state of the Tracer is entered with its block sums empty. -/
def Tracer.enter (st : BitVec 2) (t : Tracer) : Tracer :=
  { t with st := st, stTicks := 0, demI := 0, demQ := 0, demAmp := 0, demN := 0, blocks := [] }

/-- A Tracer's pilot starts to ramp (R150) or stays off. -/
def tracerStart (r : Port) : Port :=
  { r with tracer := { r.tracer.enter (if trcEn r.tracer.cfg && portEn r.cfg then 1 else 0) with everAccepted := false, zs := none } }

end Sys2Proof.Machine
end

