-- ==== Sys2Proof/Machine/Energy.lean ====
section
/-! DEFINITION. The energy engine: zero crossings (R62), cycles and their close (R57 to R77), accumulators (R78), changes
that take effect at a close (R52, R53, R69, R70), calibration swaps (R136, R137) and the CF outputs (R86 to R90, R463). -/

namespace Sys2Proof.Machine

/-! ### The zero-crossing detector -/

/-- One step of the detector on the reference voltage, 1.0 = full scale (R62); true when a crossing is found. -/
def Detector.step (d : Detector) (v : Rat) : Detector × Bool :=
  let o := Config.lowpass300 (d.filt.a, d.filt.b) v
  let armed := d.armed || decide (o.2 < -(1 / 64))
  let since := d.since.map (· + 1)
  let held := match since with | some n => decide (n < 416) | none => false
  if armed && decide (0 ≤ o.2) && !held then
    ({ filt := { a := o.1.1, b := o.1.2 }, armed := false, since := some 0 }, true)
  else ({ filt := { a := o.1.1, b := o.1.2 }, armed := armed, since := since }, false)

/-- The detector restarted: filter cleared, disarmed, no hold-off (R62). -/
def Detector.restart : Detector := { filt := { a := 0, b := 0 }, armed := false, since := none }

/-! ### Sums of the open cycle -/

def ElemSum.add (a : ElemSum) (x : ElemSample) : ElemSum :=
  { p := if x.hasV then a.p + x.v * x.i else a.p,
    p1 := if x.hasV then a.p1 + x.v1 * x.i else a.p1,
    q1 := if x.hasV then a.q1 + x.v1q * x.i else a.q1,
    v2 := if x.hasV then a.v2 + x.v * x.v else a.v2,
    i2 := a.i2 + x.i * x.i }

/-- One sample tick joins the open cycle (R63). -/
def addSample (e : Vector ElemSample 4) (clip : Bool) (c : Circuit) : Circuit :=
  { c with len := c.len + 1, sums := Vector.ofFn (fun k => c.sums[k].add e[k]), clipSeen := c.clipSeen || clip }

/-- Length of the fixed interval in progress (R66). -/
def fixedLen (c : Circuit) : Nat := if c.nomf then (if c.fixPhase = 2 then 534 else 533) else 640

/-- Which close falls due on a tick (R64 to R67): a crossing wins over a timeout and over a fixed boundary. -/
def closeDue (c : Circuit) (crossing : Bool) : CloseDue :=
  if c.len = 0 then .none
  else if crossing then .crossing
  else if !c.fixedMode && decide (c.zcTo.toNat * 32 ≤ c.len) then .timeout
  else if c.fixedMode && decide (fixedLen c ≤ c.len) then .boundary
  else .none

/-- What a circuit sees of its ports and voltages at a tick: the buffered raw voltage samples and the corrected currents. -/
structure TickIn where
  raw : Vector (List Rat) 4
  vUsable : Bool
  vClip : Vector Bool 4
  cur : Vector Rat 4
  cClip : Bool
  locked : Bool

/-- The sample's alignment does not count against a cycle or window (R46, R70, R112). -/
def State.alignedNow (s : State) : Bool := decide (s.time.mode = .lock) || s.time.stepPull

def setVolt (s : State) (b j : Nat) : Volt := s.volts[Fin.ofNat 8 (4 * b + j)]

/-- A set's voltages are valid (R19). -/
def setUsable (s : State) (b : Nat) : Bool := (s.pqSets[Fin.ofNat 2 b]).settle == 0

/-- What a circuit sees at this tick; settling and disabled channels add zero (R63). -/
def circuitIn (s : State) (cfg : Word) : TickIn :=
  let b := cirSet cfg
  { raw := Vector.ofFn (fun j => (setVolt s b j.val).hist), vUsable := setUsable s b,
    vClip := Vector.ofFn (fun j => setUsable s b && (setVolt s b j.val).clip),
    cur := Vector.ofFn (fun k => match elemPort cfg k.val with
      | some p => if s.ports[p].usable then s.ports[p].out else 0
      | none => 0),
    cClip := (cirPorts cfg).any (fun p => s.ports[p].usable && s.ports[p].clip), locked := s.alignedNow }

/-- The circuit's voltages at a tick, corrected with its own record (R137). -/
def circuitVolts (x : TickIn) (c : Circuit) : Vector Rat 4 :=
  Vector.ofFn (fun j => if x.vUsable then correctVolt c.vcal[j] x.raw[j] else 0)

/-- The cut-off of the low-pass stages at a tuning: a value of the implementation, kept between 0.005 and 0.065 of the tuning, where four
equal stages meet every line of the table of R58 (log row 63). -/
def quadCut (f0 : Rat) : Rat := f0 * max (1 / 200) (min (13 / 200) (Config.quadWidth f0))

/-- A value of the implementation kept within ±b. -/
def within (b x : Rat) : Rat := max (-b) (min b x)

/-- One low-pass stage after another. -/
def lowStages (a : Rat) (z : Vector Rat 4) (x : Rat) : Vector Rat 4 :=
  let z0 := dyad (z[0] + a * (x - z[0]))
  let z1 := dyad (z[1] + a * (z0 - z[1]))
  let z2 := dyad (z[2] + a * (z1 - z[2]))
  #v[z0, z1, z2, dyad (z[3] + a * (z2 - z[3]))]

/-- The quadrature pair at a sample (R58): the voltage is demodulated at the tuned frequency, smoothed, and modulated again; v1q lags
v1 by a quarter period. Gain and quadrature errors of the implementation stay inside R58: with the 1.2 ppm of the image at twice the
frequency, ±18 ppm and ±16 µrad. -/
def Quad.step (f0 : Rat) (q : Quad) (v : Rat) : Quad × Rat × Rat :=
  let c := cosTurn q.ph
  let d := sinTurn q.ph
  let a := (twoPi64 : Rat) / 2 ^ 64 * quadCut f0 / 32000
  let re := lowStages a q.re (v * c)
  let im := lowStages a q.im (-(v * d))
  let e := Config.quadError f0
  let i := 2 * (re[3] * c - im[3] * d)
  let r := 2 * (im[3] * c + re[3] * d)
  let ph := q.ph + f0 / 32000
  ({ ph := ph - ph.floor, re := re, im := im },
   (1 + within (18 / 1000000) e.1) * i, (1 + within (18 / 1000000) e.2.1) * r + within (16 / 1000000) e.2.2 * i)

/-- The quadrature pairs of a circuit's three line inputs at a tick (R58). -/
def circuitQuad (v : Vector Rat 4) (c : Circuit) : Vector (Quad × Rat × Rat) 3 :=
  Vector.ofFn (fun (j : Fin 3) => (c.quad[j]).step c.tune v[j.castSucc])

/-- The samples of the four elements at a tick. -/
def circuitSamples (x : TickIn) (v : Vector Rat 4) (q : Vector (Quad × Rat × Rat) 3) (c : Circuit) : Vector ElemSample 4 :=
  Vector.ofFn (fun k =>
    match elemVolt c.cfg k.val with
    | some j =>
      { hasV := true, v := vget v j 0, v1 := (vget q j (.zero, 0, 0)).2.1, v1q := (vget q j (.zero, 0, 0)).2.2,
        i := x.cur[k] }
    | none => { hasV := false, v := 0, v1 := 0, v1q := 0, i := x.cur[k] })

/-- A channel of the circuit clips at this tick (R70). -/
def circuitClip (x : TickIn) (c : Circuit) : Bool :=
  x.cClip || (List.range 4).any (fun k => match elemVolt c.cfg k with
    | some j => vget x.vClip j false
    | none => false)

/-- The sample of this tick joins the open cycle, its quadrature filters stepped from `quadPrev`. -/
def joinSample (x : TickIn) (c : Circuit) : Circuit :=
  let c := { c with quad := c.quadPrev }
  let v := circuitVolts x c
  let q := circuitQuad v c
  let r := addSample (circuitSamples x v q c) (circuitClip x c) c
  { r with quad := q.map (fun (f : Quad × Rat × Rat) => f.1),
           unalignedSeen := r.unalignedSeen || !x.locked }

/-- A circuit at a sample tick: voltages corrected with its own record (R137), quadrature pair (R58), detector, and either
the sample joins the cycle or a close falls due and the sample waits for the next cycle (R63). -/
def circuitTick (x : TickIn) (c : Circuit) : Circuit :=
  let v := circuitVolts x c
  let ref := vget v ((elemVolt c.cfg (cirRefv c.cfg)).getD 0) 0
  let d := c.det.step ref
  let c := { c with det := d.1, quadPrev := c.quad }
  let due := closeDue c d.2
  if due = .none then joinSample x c else { c with due := due, held := true }

/-! ### The values of a cycle (R57) -/

structure CycleVals where
  p : Rat
  p1 : Rat
  q1 : Rat
  sa : Rat
  sv : Rat
  na : Rat
  sk : Vector Rat 4
  nk : Vector Rat 4

/-- Sk of an element (R57). -/
def elemS (l : Nat) (a : ElemSum) : Rat := if l = 0 then 0 else sqrtRat (a.v2 * a.i2) / l

/-- Nk of an element, its non-active power (R57). -/
def elemN (l : Nat) (a : ElemSum) : Rat :=
  let s := elemS l a
  let p := a.p / l
  sqrtRat (max (s * s - p * p) 0)

def sumRats (l : List Rat) : Rat := l.foldl (· + ·) 0

def cycleVals (c : Circuit) : CycleVals :=
  let l : Rat := c.len
  let p := sumRats (c.sums.toList.map (fun a => a.p / l))
  let q1 := sumRats (c.sums.toList.map (fun a => a.q1 / l))
  let sa := sumRats (c.sums.toList.map (elemS c.len))
  { p := p, p1 := sumRats (c.sums.toList.map (fun a => a.p1 / l)), q1 := q1, sa := sa,
    sv := sqrtRat (p * p + q1 * q1), na := sqrtRat (max (sa * sa - p * p) 0),
    sk := c.sums.map (elemS c.len), nk := c.sums.map (elemN c.len) }

/-- A power field of R60: 2^28 = PFS. -/
def powerField (q : Rat) : List Byte := leInt 4 (roundRat (q * 2 ^ 28))

/-- Quanta, in 2^-32 (R71). -/
def quanta (ke : BitVec 64) (l : Nat) (q : Rat) : Int := roundRat (q * l * ke.toNat / 2 ^ 8)

structure Creep where
  p : Bool
  q : Bool
  s : Bool

/-- The no-load tests (R76). -/
def creepOf (nl : NoLoad) (v : CycleVals) : Creep :=
  { p := decide (|v.p| * 2 ^ 32 < nl.p.toNat), q := decide (|v.q1| * 2 ^ 32 < nl.q.toNat),
    s := decide (v.sa * 2 ^ 32 < nl.s.toNat) }

/-- The quadrant register, RQ_Q1 to RQ_Q4 as accumulators 2 to 5 (R59). -/
def quadrantAcc (p q : Rat) : Nat :=
  if 0 ≤ p then (if 0 ≤ q then 2 else 5) else (if 0 ≤ q then 3 else 4)

/-- What a cycle adds to each accumulator, in 2^-32 quantum (R71). -/
def routeCycle (ke : BitVec 64) (l : Nat) (v : CycleVals) (cr : Creep) : Contribution :=
  let eP := quanta ke l v.p
  let eQ := quanta ke l v.q1
  let eA := (quanta ke l v.sa).toNat
  let eV := (quanta ke l v.sv).toNat
  Vector.ofFn (fun k =>
    match k.val with
    | 0 => if !cr.p && decide (0 ≤ eP) then eP.toNat else 0
    | 1 => if !cr.p && decide (eP < 0) then eP.natAbs else 0
    | 6 => if !cr.s && decide (0 ≤ v.p) then eA else 0
    | 7 => if !cr.s && decide (v.p < 0) then eA else 0
    | 8 => if !cr.s && decide (0 ≤ v.p) then eV else 0
    | 9 => if !cr.s && decide (v.p < 0) then eV else 0
    | n => if !cr.q && n == quadrantAcc v.p v.q1 then eQ.natAbs else 0)

/-- A 96-bit accumulator after an addition (R78). -/
def accAdd (a : BitVec 96) (n : Nat) : BitVec 96 := a + BitVec.ofNat 96 n

/-- How often LOW32 passes 0xFFFFFFFF in an addition (R84). -/
def wrapsOf (a : BitVec 96) (n : Nat) : Nat := (a.toNat + n) / 2 ^ 64 - a.toNat / 2 ^ 64

/-- The consecutive-cycle rule of R73 for one quantity: direction, run, start of the run; true when it flips. -/
def runStep (dir : Bool) (run : BitVec 2) (runT start : Stamp) (suppressed : Bool) (net : Rat) :
    Bool × BitVec 2 × Stamp × Bool :=
  if suppressed || decide (net = 0) then (dir, run, runT, false)
  else if decide (net < 0) = dir then (dir, 0, runT, false)
  else if run = 2 then (!dir, 0, runT, true)
  else (dir, run + 1, if run = 0 then start else runT, false)

/-- The FLAGS word of a cycle (R70). -/
def cycleFlags (c : Circuit) (nozc pfail : Bool) (v : CycleVals) (cr : Creep) : BitVec 16 :=
  BitVec.ofNat 16 (bitN nozc + 2 * bitN c.fixedMode + 4 * bitN c.next.isPartial + 8 * bitN pfail +
    16 * bitN c.clipSeen + 32 * bitN c.next.newcal + 64 * bitN c.next.newcfg + 128 * bitN c.next.matched +
    256 * bitN cr.p + 512 * bitN cr.q + 1024 * bitN cr.s + 2048 * bitN (decide (v.p < 0)) +
    4096 * bitN (decide (v.q1 < 0)) + 8192 * bitN c.unalignedSeen)

/-- The result block of a cycle (R60). -/
def cycleBlock (c : Circuit) (cycles : Word) (flags : BitVec 16) (t : Stamp) (v : CycleVals) : List Byte :=
  leBytes 4 cycles.toNat ++ leBytes 2 flags.toNat ++ leBytes 2 c.len ++ t.bytes ++ powerField v.p ++
    powerField v.p1 ++ powerField v.q1 ++ powerField v.sa ++ powerField v.sv ++ powerField v.na ++ leBytes 4 0 ++
    (List.finRange 4).flatMap (fun k => powerField (c.sums[k].p / c.len) ++ powerField (c.sums[k].q1 / c.len) ++
      powerField v.sk[k])

/-- An ordinary cycle retunes the quadrature pair (R58). -/
def retune (l : Nat) : Rat := max (85 / 2) (min 69 (32000 / (l : Rat)))

/-- Routing, totals, creep counters, direction and status of the closed cycle (R71 to R79). The direction flips come back. -/
def bookCycle (nozc pfail ordinary : Bool) (t : Stamp) (c : Circuit) : Circuit × Bool × Bool :=
  let v := cycleVals c
  let cr := creepOf c.nl v
  let add := routeCycle c.ke c.len v cr
  let flags := cycleFlags c nozc pfail v cr
  let cycles := c.totals.cycles + 1
  let pr := runStep c.totals.pDir c.pRun c.pRunT c.startT cr.p v.p
  let qr := runStep c.totals.qDir c.qRun c.qRunT c.startT cr.q v.q1
  ({ c with
      totals := { cycles := cycles, flags := flags, pDir := pr.1, qDir := qr.1,
                  acc := Vector.ofFn (fun k => accAdd c.totals.acc[k] add[k]) },
      wrap := Vector.ofFn (fun k => satAdd c.wrap[k] (wrapsOf c.totals.acc[k] add[k])),
      pRun := pr.2.1, qRun := qr.2.1, pRunT := pr.2.2.1, qRunT := qr.2.2.1,
      pChg := c.pChg || pr.2.2.2, qChg := c.qChg || qr.2.2.2,
      nozcSeen := c.nozcSeen || nozc,
      creepP := satAdd c.creepP (bitN cr.p), creepQ := satAdd c.creepQ (bitN cr.q),
      creepS := satAdd c.creepS (bitN cr.s),
      block := cycleBlock c cycles flags t v, lastEp := quanta c.ke c.len v.p, lastAdd := add,
      tune := if ordinary then retune c.len else c.tune }, pr.2.2.2, qr.2.2.2)

/-! ### CF outputs -/

/-- The inactive level of an output (R86). -/
def cfIdle (w : Word) : Bool := cfPol w

/-- A start time moved to 2 × WIDTH after the previous start where it would fall sooner (R88). -/
def spacedStart (last : Option Nat) (width t : Nat) : Nat :=
  match last with
  | some l => max t (l + 2 * 32 * width)
  | none => t

/-- The scheduled starts of a list of wanted instants, in order. -/
def scheduleAll (width : Nat) : Option Nat → List Nat → List Nat
  | _, [] => []
  | last, t :: ts => let t' := spacedStart last width t; t' :: scheduleAll width (some t') ts

/-- The scheduler of R88 at a close on tick `now`: c quanta (2^-32) over a cycle of l samples. -/
def cfClose (now l add : Nat) (o : CfOut) : CfOut :=
  let q := o.qpp.toNat
  if q = 0 then o
  else
    let k0 := o.acc / q
    let a := o.acc % q
    let k := (a + add) / q
    let wanted := List.replicate k0 now ++
      (List.range k).map (fun m => now + (roundDiv (((((m + 1) * q : Nat) : Int) - a) * l) add).toNat)
    let starts := scheduleAll (cfWidth o.cfg) o.lastStart wanted
    { o with acc := a + add - k * q, sched := o.sched ++ starts,
             lastStart := if starts.isEmpty then o.lastStart else starts.getLast? }

/-- The output's share of a cycle's contributions (R86). -/
def cfShare (o : CfOut) (add : Contribution) : Nat := ((cfSources (cfSrc o.cfg)).map (fun k => add[k])).sum

/-- A clear or a change discards what is scheduled and the residue (R83, R463): the spacing of R88 counts from the newest start made. -/
def cfDiscard (o : CfOut) : CfOut := { o with acc := 0, sched := [], lastStart := o.started }

/-- A change of the output takes effect (R463). -/
def cfApply (o : CfOut) : CfOut :=
  let o := cfDiscard { o with cfg := o.cfgW, qpp := o.qppW, change := false }
  { o with level := match o.pulse with | some _ => o.level | none => cfIdle o.cfg }

/-- The circuit at whose close a pending change of an output takes effect; none = at once (R463). -/
def cfChangeCircuit (s : State) (o : CfOut) : Option (Fin 24) :=
  let judged := if cfEn o.cfgW then cfCir o.cfgW else if cfEn o.cfg then cfCir o.cfg else none
  judged.filter (fun c => cirEn s.circuits[c].cfg)

/-! ### Changes that take effect at a close -/

/-- A port that another enabled circuit still holds and does not release on this very tick (R52). -/
def heldElsewhere (s : State) (c : Fin 24) (p : Fin 24) : Bool :=
  (fins 24).any (fun d => decide (d ≠ c) && (cirPorts s.circuits[d].cfg).contains p &&
    !(decide (s.circuits[d].due ≠ .none) && !(cirPorts s.circuits[d].cfgW).contains p))

/-- The written configuration without the ports that cannot be joined yet (R52). -/
def joinableCfg (s : State) (c : Fin 24) : Word :=
  let w := s.circuits[c].cfgW
  if cirEn w then
    (List.range 4).foldl (fun w' k => match elemPort w k with
      | some p => if heldElsewhere s c p then cirDropPort w' k else w'
      | none => w') w
  else w

/-- The marks of circuit r with the released ports that its written map names and it has not joined. -/
def arriveMarks (released : List (Fin 24)) (r : Circuit) : BitVec 24 :=
  (released.filter (fun p => (cirPorts r.cfgW).contains p && !(cirPorts r.cfg).contains p)).foldl
    (fun m p => m ||| BitVec.ofNat 24 (2 ^ p.val)) r.arriving

/-- The circuits' `arriving` marks when a circuit lets go of ports (R52). -/
def markArriving (released : List (Fin 24)) (s : State) : State :=
  s.forEach (fins 24) (fun e s => s.modCir e (fun r => { r with arriving := arriveMarks released r }))

/-- A transaction of the set is ARMED: its shadow banks wait for the closes (R136). -/
def setArmed (s : State) (set : Nat) : Bool :=
  s.cal.txns.any (fun t => decide (t.target = .vset (set == 1)) && decide (t.st = .armed))

/-- What a voltage set gives a circuit that joins it at a close: its record in force, or the shadow record of an ARMED transaction, whose
store was complete before this close (R136). -/
def setCal (s : State) (set : Nat) : Vector CalRec 4 :=
  Vector.ofFn (fun j =>
    let v := s.volts[Fin.ofNat 8 (4 * set + j.val)]
    if setArmed s set then v.shadow.val else v.cal)

/-- A matching pair that waits comes into use on the ports of a circuit (R28). -/
def takeMatches (c : Fin 24) (s : State) : State :=
  let ps := cirPorts s.circuits[c].cfg
  let any := ps.any (fun p => matchPending s.ports[p])
  (s.forEach ps (fun p s => s.modPort p useMatch)).modCir c
    (fun r => { r with next := { r.next with matched := r.next.matched || any } })

/-- Trims and references that wait come into use on a port (R155, R156). -/
def takeTrim (r : Port) : Port :=
  { r with tracer := { r.tracer with
      trim := r.tracer.trimNext.getD r.tracer.trim, trimNext := none,
      ref := r.tracer.refNext.getD r.tracer.ref, refNext := none,
      refValid := r.tracer.refValid || r.tracer.refNext.isSome } }

def trimPending (r : Port) : Bool := r.tracer.trimNext.isSome || r.tracer.refNext.isSome

def takeTrims (c : Fin 24) (s : State) : State :=
  let ps := cirPorts s.circuits[c].cfg
  let any := ps.any (fun p => trimPending s.ports[p])
  (s.forEach ps (fun p s => s.modPort p takeTrim)).modCir c
    (fun r => { r with next := { r.next with newcal := r.next.newcal || any } })

/-- The shadow record of a port comes into use (R136). -/
def swapPort (loaded : BitVec 32) (p : Fin 24) (s : State) : State :=
  s.modPort p (fun r => { r with cal := r.shadow.val, uncal := r.uncal && !loaded.getLsbD p.val })

/-- ARMED shadow banks of a circuit's own transaction (R136). -/
def swapCircuitCal (c : Fin 24) (s : State) : State :=
  match s.cal.txns.find? (fun t => decide (t.target = .cir c) && decide (t.st = .armed)) with
  | none => s
  | some t =>
    let s := s.forEach ((fins 24).filter (fun p => t.chans.getLsbD p.val)) (swapPort t.loaded)
    let s := s.modCal (fun k => { k with txns := k.txns.map (fun u => if u = t then { u with st := .done } else u) })
    s.modCir c (fun r => { r with next := { r.next with newcal := true } })

/-- A voltage-set transaction is done when every circuit and power quality have changed over (R136): the stored records
then are the set's records. -/
def finishSetTxn (s : State) : State :=
  match s.cal.txns.find? (fun t => decide (t.st = .armed) && decide (t.left = 0) && !t.pqLeft &&
      (match t.target with | .vset _ => true | .cir _ => false)) with
  | none => s
  | some t =>
    let b := match t.target with | .vset true => 1 | _ => 0
    let s := s.forEach (fins 4) (fun j s => s.modVolt (Fin.ofNat 8 (4 * b + j.val)) (fun v =>
      { v with cal := v.shadow.val, uncal := v.uncal && !t.loaded.getLsbD (24 + 4 * b + j.val) }))
    s.modCal (fun k => { k with txns := k.txns.map (fun u => if u = t then { u with st := .done } else u) })

/-- An ARMED voltage-set transaction reaches circuit c at its close (R136, R137). -/
def swapSetCal (c : Fin 24) (s : State) : State :=
  let b := cirSet s.circuits[c].cfg
  match s.cal.txns.find? (fun t => decide (t.target = .vset (b == 1)) && decide (t.st = .armed) &&
      t.left.getLsbD c.val) with
  | none => s
  | some t =>
    let s := s.modCir c (fun r => { r with
      vcal := Vector.ofFn (fun j => (s.volts[Fin.ofNat 8 (4 * b + j.val)]).shadow.val),
      next := { r.next with newcal := true } })
    finishSetTxn (s.modCal (fun k => { k with txns := k.txns.map (fun u =>
      if u = t then { u with left := u.left &&& ~~~(BitVec.ofNat 24 (2 ^ c.val)) } else u) }))

/-- PORTn_CFG of a port takes effect (R36), with n samples to come before the first valid one where it powers up (R19). -/
def takePortCfg (n : Nat) (p : Fin 24) (s : State) : State :=
  if s.ports[p].cfg = s.ports[p].cfgW then s
  else s.modPort p (fun r =>
    let r' := applyPortCfg n r
    if portEn r'.cfg = portEn r.cfg then r' else tracerStart r')

def takePortCfgs (c : Fin 24) (s : State) : State :=
  let ps := cirPorts s.circuits[c].cfg
  let any := ps.any (fun p => s.ports[p].cfg != s.ports[p].cfgW)
  (s.forEach ps (takePortCfg 64)).modCir c
    (fun r => { r with next := { r.next with newcfg := r.next.newcfg || any } })

/-- QUANTUM, PFS, KE, ZC_TO, no-load thresholds and NOMF of the circuit take effect (R54, R64, R77, R91). -/
def takeScaling (c : Fin 24) (s : State) : State :=
  let nomfW := vsNomf (s.pqSets[Fin.ofNat 2 (cirSet s.circuits[c].cfg)]).cfgW
  s.modCir c (fun r =>
    let changed := r.quantum != r.quantumW || r.pfs != r.pfsW || r.zcTo != r.zcToW || r.nl != r.nlW || r.nomf != nomfW
    { r with quantum := r.quantumW, pfs := r.pfsW, ke := r.keW, zcTo := r.zcToW, nl := r.nlW, nomf := nomfW,
             next := { r.next with newcfg := r.next.newcfg || changed } })

/-- The circuit begins a partial cycle with its detector restarted (R62, R68). -/
def restartCircuit (r : Circuit) : Circuit :=
  { r with det := .restart, len := 0, sums := Vector.replicate 4 .zero, clipSeen := false, unalignedSeen := false,
           fixedMode := false, fixPhase := 0, due := .none, held := false,
           next := { r.next with isPartial := true } }

/-- An open transaction on a circuit whose TYPE, SET or ports change is aborted (R140). -/
def abortOnMap (c : Fin 24) (old new : Word) (s : State) : State :=
  if old / 2 % 8 = new / 2 % 8 ∧ old / 256 = new / 256 then s
  else s.modCal (fun k => { k with txns := k.txns.map (fun t =>
    if t.target = .cir c ∧ t.st = .opened then { t with st := .stale } else t) })

/-- Ports on their way from one circuit to another (R52) are marked where a written map names them and the map in effect does not:
a second write moves the mark, or takes it away. -/
def reviseMark (moving : BitVec 24) (r : Circuit) : Circuit :=
  let ps := (cirPorts r.cfgW).filter (fun p => moving.getLsbD p.val && !(cirPorts r.cfg).contains p)
  { r with arriving := ps.foldl (fun m p => m ||| BitVec.ofNat 24 (2 ^ p.val)) 0 }

/-- The marks of all circuits after a map is written. -/
def reviseMarks (s : State) : State :=
  { s with circuits := s.circuits.map (reviseMark (s.circuits.toList.foldl (fun m (r : Circuit) => m ||| r.arriving) 0)) }

/-- The arriving marks once ports have joined. -/
def joinMarks (ps : List (Fin 24)) (m : BitVec 24) : BitVec 24 :=
  ps.foldl (fun m p => m &&& ~~~(BitVec.ofNat 24 (2 ^ p.val))) m

/-- CIRn_CFG takes effect (R52, R53): ports leave and join, a new reference or an enable starts a partial cycle. -/
def takeCirCfg (c : Fin 24) (s : State) : State :=
  let old := s.circuits[c].cfg
  let new := joinableCfg s c
  if old = new then s
  else
    let released := (cirPorts old).filter (fun p => !(cirPorts new).contains p)
    let s := abortOnMap c old new s
    let s := s.modCir c (fun r =>
      let r := { r with cfg := new, arriving := joinMarks (cirPorts new) r.arriving,
                        next := { r.next with newcfg := true } }
      let r := if cirSet old = cirSet new then r
        else { r with vcal := setCal s (cirSet new), next := { r.next with newcal := r.next.newcal || setArmed s (cirSet new) } }
      if cirEn old && !cirEn new then { r with due := .none, held := false, len := 0, sums := Vector.replicate 4 .zero }
      else if !cirEn old && cirEn new then
        restartCircuit { r with waitValid := false, nomf := vsNomf (s.pqSets[Fin.ofNat 2 (cirSet new)]).cfgW,
                                tune := if vsNomf (s.pqSets[Fin.ofNat 2 (cirSet new)]).cfgW then 60 else 50 }
      else if cirRefVolt old = cirRefVolt new then r
      else { r with det := .restart, fixedMode := false, fixPhase := 0, next := { r.next with isPartial := true } })
    let s := markArriving released s
    let s := s.forEach (released.filter (fun p => (s.circuitOf p).isNone)) (fun p s => takePortCfg 64 p (s.modPort p useMatch))
    if cirEn new then takePortCfgs c s else s

/-- CF outputs whose change is judged by circuit c change over (R463). -/
def takeCf (c : Fin 24) (s : State) : State :=
  s.forEach (fins 8) (fun o s =>
    if s.cfs[o].change && (cfChangeCircuit s s.cfs[o] == some c || (cfChangeCircuit s s.cfs[o]).isNone)
    then s.modCf o cfApply else s)

/-- A pending clear of the totals (R56, R83). -/
def takeClear (c : Fin 24) (s : State) : State :=
  if s.circuits[c].clear then
    (s.modCir c (fun r => { r with clear := false, totals := { r.totals with acc := Vector.replicate 10 0 } })).forEach
      (fins 8) (fun o s => if cfCir s.cfs[o].cfg = some c then s.modCf o cfDiscard else s)
  else s

/-- A RETIRED unit's last close discards an output's scheduled pulses (R417); their quanta go back to CF_ACC, so that the relation of R89
still holds (log row 64). -/
def cfRetire (o : CfOut) : CfOut :=
  { o with acc := o.acc + o.sched.length * o.qpp.toNat, sched := [], lastStart := o.started }

/-- A unit that is RETIRED closes no further cycle of the circuit (R417). -/
def takeRetired (c : Fin 24) (s : State) : State :=
  if s.sec.state = .retired then
    (s.modCir c (fun r => { r with stopped := true })).forEach (fins 8)
      (fun o s => if cfCir s.cfs[o].cfg = some c then s.modCf o cfRetire else s)
  else s

/-- Every change that takes effect at a close of circuit c (R28, R36, R52, R56, R64, R77, R83, R91, R136, R155, R156,
R463), in the order of their effects. A disabled circuit runs it at once (R53). -/
def takeChanges (c : Fin 24) (s : State) : State :=
  takeRetired c (takeCf c (takeScaling c (takeCirCfg c (takePortCfgs c (swapSetCal c (swapCircuitCal c (takeTrims c
    (takeMatches c (takeClear c s)))))))))

/-- The changes of a circuit that is disabled in effect apply now (R53). -/
def takeIfDisabled (c : Fin 24) (s : State) : State :=
  if cirEn s.circuits[c].cfg && !s.circuits[c].stopped then s else takeChanges c s

/-- A port in no circuit: its configuration and trims apply at once (R36, R53); its matching values wait for the end of the match block
(R28). -/
def takeIfFree (p : Fin 24) (s : State) : State :=
  match s.circuitOf p with
  | some _ => s
  | none => takePortCfg 65 p (s.modPort p takeTrim)

/-! ### The close -/

/-- The direction events of a close (R75). -/
def dirEvents (c : Fin 24) (r : Circuit) (pf qf : Bool) : List DirEvent :=
  (if pf then [{ circuit := BitVec.ofNat 8 (c.val + 1), kind := BitVec.ofNat 8 (2 * bitN r.totals.pDir), time := r.pRunT }]
    else []) ++
  (if qf then [{ circuit := BitVec.ofNat 8 (c.val + 1), kind := BitVec.ofNat 8 (1 + 2 * bitN r.totals.qDir), time := r.qRunT }]
    else [])

/-- The flags a cycle adds to the open balance interval (R276). -/
def balFlags (flags : BitVec 16) : Byte :=
  BitVec.ofNat 8 (bitN (flags.getLsbD 13) + 2 * bitN (flags.getLsbD 0 || flags.getLsbD 1) + 4 * bitN (flags.getLsbD 4) +
    8 * bitN (flags.getLsbD 2 || flags.getLsbD 3))

/-- The cycle's share of the circuit's balance interval (R275). -/
def balAdd (c : Fin 24) (s : State) : State :=
  let r := s.circuits[c]
  s.modRing (fun g => { g with balOpen := vmod g.balOpen c (fun b =>
    { net := b.net + r.lastEp * r.quantum.toNat, flags := b.flags ||| balFlags r.totals.flags }) })

/-- The CF outputs sourced from a circuit take their share of its closed cycle (R88). -/
def cfShareAll (c : Fin 24) (l : Nat) (s : State) : State :=
  s.forEach (fins 8) (fun o s =>
    if cfEn s.cfs[o].cfg && cfCir s.cfs[o].cfg == some c then
      s.modCf o (cfClose s.time.ticks l (cfShare s.cfs[o] s.circuits[c].lastAdd))
    else s)

/-- The closed cycle is booked: totals, direction events, CF outputs, balance (R71 to R77, R88, R275). -/
def bookClose (c : Fin 24) (nozc pfail : Bool) (s : State) : State :=
  let r := s.circuits[c]
  let ordinary := !nozc && !pfail && !r.fixedMode && !r.next.isPartial
  let b := bookCycle nozc pfail ordinary s.gridStamp r
  let s := s.modCir c (fun _ => b.1)
  let s := { s with energy := { s.energy with dirHw := s.energy.dirHw ++ dirEvents c b.1 b.2.1 b.2.2 } }
  balAdd c (cfShareAll c r.len s)

/-- What a port takes from outside at the present tick. -/
def State.portClock (s : State) (p : Fin 24) : PortClock :=
  { tick := s.time.ticks, nomf := s.nomfOfPort p, pnomf := s.pilotNomf p }

/-- Ports corrected once more on the values that a close has brought into effect. -/
def recorrectPorts (ps : List (Fin 24)) (s : State) : State :=
  s.forEach ps (fun p s => s.modPort p (recorrect (s.portClock p)))

/-- A detector that has just restarted takes the sample of the tick it restarted on (R62). -/
def stepIfRestarted (x : TickIn) (c : Circuit) : Circuit :=
  if c.det = .restart then
    { c with det := (c.det.step (vget (circuitVolts x c) ((elemVolt c.cfg (cirRefv c.cfg)).getD 0) 0)).1 }
  else c

/-- The mode of the cycle that follows a close (R66). -/
def nextMode (kind : CloseDue) (r : Circuit) : Circuit :=
  { r with fixPhase := if kind = .boundary then (r.fixPhase + 1) % 3 else 0,
           fixedMode := decide (kind = .timeout) || decide (kind = .boundary) }

/-- The next cycle starts with the sample of the closing tick (R63, R67, R68). -/
def startCycle (c : Fin 24) (s : State) : State :=
  let held := s.circuits[c].held
  let s := s.modCir c (fun r => { r with
      len := 0, sums := Vector.replicate 4 .zero, clipSeen := false,
      unalignedSeen := false, due := .none, held := false, startT := s.gridStamp })
  if held && cirEn s.circuits[c].cfg && !s.circuits[c].stopped then
    let s := recorrectPorts (cirPorts s.circuits[c].cfg) s
    s.modCir c (fun r => joinSample (circuitIn s r.cfg) (stepIfRestarted (circuitIn s r.cfg) r))
  else s

/-- A close of circuit c on the present tick (R63 to R71): the cycle is booked on the values in effect, the pending changes
apply, and the next cycle starts. -/
def closeCircuit (c : Fin 24) (s : State) : State :=
  let kind := s.circuits[c].due
  let s := bookClose c (decide (kind = .timeout)) false s
  let s := s.modCir c (fun r => nextMode kind { r with
    next := { newcal := false, newcfg := false, matched := false, isPartial := false } })
  startCycle c (takeChanges c s)

/-- At the freeze every circuit that runs closes on the same instant, so that a port may pass from one to another in either order (R52,
R69). -/
def markPfail (r : Circuit) : Circuit := if cirEn r.cfg && !r.stopped then { r with due := .boundary } else r

/-- The PFAIL close of the freeze (R69): nothing is booked where the open cycle has no sample. -/
def pfailClose (c : Fin 24) (s : State) : State :=
  let r := s.circuits[c]
  if cirEn r.cfg && !r.stopped then
    let s := if r.len = 0 then s else bookClose c false true s
    let s := s.modCir c (fun r => { r with next := { newcal := false, newcfg := false, matched := false, isPartial := true } })
    (takeChanges c s).modCir c restartCircuit
  else s

/-- At the freeze every CF output goes inactive and takes back its unstarted pulses (R90). -/
def cfFreeze (o : CfOut) : CfOut :=
  { o with acc := o.acc + o.sched.length * o.qpp.toNat, sched := [], pulse := none, lastStart := o.started,
           level := cfIdle o.cfg }

/-- A snapshot: the totals of the 24 circuits at one instant (R80). -/
def State.totalsImage (s : State) : Vector Totals 24 := s.circuits.map (fun c => c.totals)

/-- One circuit block of a snapshot image, 128 bytes (R81). -/
def totalsBytes (t : Totals) : List Byte :=
  leBytes 4 t.cycles.toNat ++ leBytes 2 t.flags.toNat ++ leBytes 1 (bitN t.pDir + 2 * bitN t.qDir) ++ leBytes 1 0 ++
    t.acc.toList.flatMap (fun a => leBytes 12 a.toNat)

/-- The 3,072 bytes of a snapshot image (R81). -/
def imageBytes (v : Vector Totals 24) : List Byte := v.toList.flatMap totalsBytes

/-- A circuit's totals read back from their 128 bytes. -/
def totalsOf (bs : List Byte) : Totals :=
  { cycles := BitVec.ofNat 32 (leAt bs 0 4), flags := BitVec.ofNat 16 (leAt bs 4 2), pDir := bitB (leAt bs 6 1) 0,
    qDir := bitB (leAt bs 6 1) 1, acc := Vector.ofFn (fun k => BitVec.ofNat 96 (leAt bs (8 + 12 * k.val) 12)) }

/-- KE of a PFS and a QUANTUM (R54), 1.0 = 2^40, to the nearest LSB. -/
def keOf (pfs quantum : Nat) : Nat := (roundDiv ((2 ^ 40 * pfs : Nat) : Int) (115200 * quantum)).toNat

/-- The rate bound of R55: N_V × KE × 32000 below 2^24 quanta per second. -/
def rateOk (nv pfs quantum : Nat) : Bool := decide (nv * pfs * 32000 < 2 ^ 24 * 115200 * quantum)

/-- F_MAX of an output is at most 500 Hz and 2 × WIDTH is at most 1/F_MAX (R87). -/
def cfRateOk (nv : Nat) (ke : BitVec 64) (qpp : BitVec 64) (width : Nat) : Bool :=
  let num := nv * ke.toNat * 32000
  let den := qpp.toNat * 2 ^ 8
  decide (num ≤ 500 * den) && decide (2 * width * num ≤ 1000 * den)

end Sys2Proof.Machine
end

