-- ==== Sys2Proof/Machine/RingTime.lean ====
section
/-! DEFINITION. Ring time, the alignment of the sample grid, steps and adoption, the head's rate, and the timed outputs
(R41 to R47, R224 to R248, R462). -/

namespace Sys2Proof.Machine

/-! ### Alignment -/

/-- One nanosecond in the units of `Time.rt`. -/
def nsUnits : Nat := 65536

/-- The change of the sample period in a pull: 20 ppm of 31,250 ns (R44). -/
def pullUnits : Nat := 40960

/-- Sample instant minus nearest grid point, in 2^-16 ns (R45); the tie reads +15,625 ns (R44). -/
def phaseErr (rt : Nat) : Int := (rt : Int) - ((rt + tickUnits / 2 - 1) / tickUnits * tickUnits : Nat)

/-- PHASE_ERR of ALIGN_STAT in whole ns. -/
def phaseErrNs (rt : Nat) : Int := roundDiv (phaseErr rt) nsUnits

/-- The phase error lies within ±5 ns. -/
def phaseIn (rt : Nat) : Bool := decide ((phaseErr rt).natAbs ≤ 5 * nsUnits)

/-- The nearest grid point in 2^-16 ns. -/
def gridUnits (rt : Nat) : Nat := (rt + tickUnits / 2 - 1) / tickUnits * tickUnits

/-- The sample instant after one at rt (R41, R44): on the grid in every mode but PULL and HOLDOVER; in PULL the period is 20 ppm
shorter or longer until the error reaches zero; in HOLDOVER the nominal period (drift left out). -/
def instantAfter (m : AlignMode) (rt : Nat) : Nat :=
  match m with
  | .pull =>
    let e := phaseErr rt
    if e.natAbs ≤ pullUnits then gridUnits rt + tickUnits
    else if 0 < e then rt + tickUnits - pullUnits
    else rt + tickUnits + pullUnits
  | .holdover => rt + tickUnits
  | .free | .lock => gridUnits rt + tickUnits

/-- Ring time jumps by a signed number of 2^-16 ns. -/
def shiftRt (rt : Nat) (d : Int) : Nat := ((rt : Int) + d).toNat

/-- The instant of the present sample on the grid that its sampling still follows: a step off the grid shows at the next sample (R46). -/
def Time.sampled (t : Time) : Nat := shiftRt t.rt (-(t.offStep.getD 0))

/-- The next sample instant: PLL2 runs on as before a step until the first sample after it (R46, R47). -/
def nextInstant (t : Time) : Nat := shiftRt (instantAfter t.mode t.sampled) (t.offStep.getD 0)

/-- The alignment state judged at a sample: the first sample after a step off the grid enters PULL with STEP_PULL set, and no LOST (R46,
R47; a unit in HOLDOVER stays in it, log row 65); LOCK is lost beyond ±5 ns, and the run within ±5 ns is counted (R44). -/
def judgePhase (t : Time) : Time :=
  let inn := phaseIn t.rt
  match t.offStep, t.mode with
  | some _, .holdover => { t with offStep := none }
  | some _, _ => { t with offStep := none, mode := .pull, stepPull := true, lockRun := bitN inn, pulling := decide (phaseErr t.rt ≠ 0) }
  | none, .lock => if inn then t else { t with mode := .pull, lost := true, lockRun := 0, pulling := true }
  | none, .pull => { t with lockRun := if inn then t.lockRun + 1 else 0, pulling := decide (phaseErr t.rt ≠ 0) }
  | none, .free => { t with lockRun := t.lockRun + 1 }
  | none, .holdover => t

/-! ### Rate of the head (R235, R236) -/

def rtSrc (w : Word) : Nat := bitsN w.toNat 1 0
def rtPpsFalling (w : Word) : Bool := bitB w.toNat 2
def rtHostValid (w : Word) : Bool := bitB w.toNat 3
def rtPpsHold (w : Word) : Nat := bitsN w.toNat 15 8

/-- Reserved bits of RT_CFG (R9, R235). -/
def rtCfgRsv (w : Nat) : Bool := bitsN w 7 4 != 0 || decide (65536 ≤ w)

def rtCfgOk (w : Nat) : Bool := decide (bitsN w 1 0 ≤ 1) && !rtCfgRsv w

def fadjOk (w : Int) : Bool := decide (-110000000 ≤ w) && decide (w ≤ 110000000)

/-- 10 ppm per second over one millisecond, in 2^-40. -/
def rateSlope : Int := 10995

/-- 100 ppm in 2^-40. -/
def rateLimit : Int := 109951162

/-- The rate the head moves toward. -/
def rateTarget (t : Time) : Int := if rtSrc t.cfg = 1 then t.servo else t.fadj.toInt

def slewRate (t : Time) : Time :=
  let e := t.effRate + clampInt (-rateSlope) rateSlope (rateTarget t - t.effRate)
  { t with effRate := e, rate := BitVec.ofInt 32 e }

/-- VALID of SYNC on the head (R237). -/
def headValid (t : Time) : Bool :=
  rtHostValid t.cfg && !t.ppsFar &&
    (rtSrc t.cfg == 0 || t.ppsLock || (match t.ppsClear with
      | some k => decide (t.ticks < k + rtPpsHold t.cfg * 32000)
      | none => false))

/-- Distance in ns from the nearest whole second (R237). -/
def secondError (ns : Nat) : Int :=
  if ns % 1000000000 < 500000000 then (ns % 1000000000 : Nat) else ((ns % 1000000000 : Nat) : Int) - 1000000000

/-- A PPS edge on the head (R237), stamped to 2.5 ns; `draw` names the servo's answer. -/
def ppsEdgeTime (draw : Nat) (dt : Nat) (t : Time) : Time :=
  let at10 := t.rt / 163840 + dt * nsUnits / 163840
  let e := secondError (at10 * 5 / 2)
  let far := decide (1000000 < e.natAbs)
  let run := if e.natAbs ≤ 50 then t.ppsRun + 1 else 0
  { t with ppsFar := far, ppsRun := run, ppsLock := t.ppsLock || decide (10 ≤ run),
           ppsClear := if 10 ≤ run then none else t.ppsClear,
           servo := if far then t.servo else clampInt (-rateLimit) rateLimit (Config.ppsServo draw e),
           offset := BitVec.ofInt 32 (clampInt (-2147483648) 2147483647 e) }

/-! ### Timed outputs -/

/-- TOUTn_TIME as total nanoseconds: [79:32] seconds, [31:0] nanoseconds. -/
def toutNs (w : BitVec 80) : Nat := w.toNat / 2 ^ 32 * 1000000000 + w.toNat % 2 ^ 32

/-- The first anchor + k × PERIOD at or after an instant, for integer k (R244, R247). -/
def periodicNext (anchor period from_ : Nat) : Nat :=
  if period = 0 then from_
  else if anchor ≤ from_ then anchor + (from_ - anchor + period - 1) / period * period
  else anchor - (anchor - from_) / period * period

/-- The first whole nanosecond at or after an instant in 2^-16 ns. -/
def nsCeil (u : Nat) : Nat := (u + (nsUnits - 1)) / nsUnits

/-- The first 2.5 ns point at or after an instant, in 2^-16 ns (R244). -/
def edgeUnits (ns : Nat) : Nat := (ns * nsUnits + 163839) / 163840 * 163840

/-- An instant in ns falls at or before the next sample instant. -/
def State.reached (s : State) (ns : Nat) : Bool := decide (ns * nsUnits ≤ s.time.rt + tickUnits)

/-- The output's idle level. -/
def Tout.idle (o : Tout) : Bool := o.pol

/-- The next edge after registers change at an instant (R244, R245). -/
def Tout.rearm (o : Tout) (now : Nat) : Tout :=
  let t := toutNs o.time
  if !o.en then { o with nextEdge := none }
  else if o.periodic then { o with nextEdge := some (periodicNext t o.period.toNat now), armedLate := false }
  else if o.arm then { o with nextEdge := some (max t now), armedLate := decide (t < now) }
  else { o with nextEdge := none }

/-- The pulse in progress, or the last one, bars an edge at an instant in 2^-16 ns: during it and up to 20 ns after its end (R248). -/
def Tout.barred (o : Tout) (e : Nat) : Bool :=
  match o.pulse.or o.lastEnd with
  | some stop => decide (e < stop + 20 * nsUnits)
  | none => false

/-- An edge at an instant: emitted, or counted in SUPPRESSED during a pulse and up to 20 ns after it (R248). -/
def Tout.fire (o : Tout) (ns : Nat) : Tout :=
  let e := edgeUnits ns
  let next := if o.periodic then some (ns + o.period.toNat) else none
  if o.barred e then { o with suppressed := satAdd o.suppressed 1, nextEdge := next }
  else match o.pulse with
    | some _ => o
    | none =>
      { o with level := !o.idle, pulse := some (e + o.width.toNat * nsUnits), nextEdge := next,
               late := o.late || o.armedLate, armedLate := false,
               arm := o.arm && o.periodic, fired := o.fired || !o.periodic }

/-- The end of the pulse at an instant in 2^-16 ns, with the writes that waited for it (R248). -/
def Tout.finish (o : Tout) (e : Nat) : Tout :=
  let o := { o with level := o.idle, pulse := none, lastEnd := if o.pulse.isSome then some e else o.lastEnd }
  match o.pend with
  | some (t, p, w) => { o with time := t, period := p, width := w, pend := none }.rearm (nsCeil e)
  | none => o

/-- An output's own instants move with a jump of ring time, so that a pulse keeps its elapsed width (R248). -/
def Tout.shift (d : Int) (o : Tout) : Tout := { o with pulse := o.pulse.map (shiftRt · d), lastEnd := o.lastEnd.map (shiftRt · d) }

/-- A jump of ring time from `old` to `new`, both the instant of the jump in 2^-16 ns (R246, R247): a one-shot whose time is jumped over
fires at the jump with LATE; a periodic output re-phases; a pulse keeps its elapsed width. -/
def Tout.jump (o : Tout) (old new : Nat) : Tout :=
  let o := o.shift ((new : Int) - old)
  if !o.en then o
  else if o.periodic then
    { o with nextEdge := some (periodicNext (toutNs o.time) o.period.toNat (nsCeil new)), rephased := true }
  else if o.arm then
    let t := toutNs o.time
    if decide (nsCeil old ≤ t) && decide (t < nsCeil new) then { o with nextEdge := some (nsCeil new), armedLate := true }
    else { o with nextEdge := some (max t (nsCeil new)), armedLate := o.armedLate }
  else o

/-- TOUTn_CTL as read (R243). -/
def Tout.ctl (o : Tout) : Nat :=
  bitN o.en + 2 * bitN o.periodic + 4 * bitN o.pol + 8 * bitN o.arm + 16 * bitN o.fired + 32 * bitN o.late +
    64 * bitN o.rephased + 256 * o.suppressed.toNat

/-! ### Steps and adoption -/

/-- The pending step takes effect (R240): the instant AT reads AT + DELTA in the new epoch. -/
def Time.stepNow (t : Time) : Time :=
  match t.step with
  | none => t
  | some p =>
    let new := ((p.at_ : Int) + p.delta).toNat
    let t := { t with rt := shiftRt t.rt (p.delta * nsUnits), epoch := p.epoch, step := none, lastAt := some p.at_,
                      outs := t.outs.map (fun (o : Tout) => o.jump (p.at_ * nsUnits) (new * nsUnits)) }
    if p.delta % 31250 = 0 then t else { t with offStep := some (p.delta * nsUnits + t.offStep.getD 0) }

/-- A pending step is reached by the next sample (R239, R240). -/
def State.stepReached (s : State) : Bool :=
  match s.time.step with
  | some p => s.reached p.at_
  | none => false

/-- A unit adopts a reference (R234): `off` is its offset in 2^-16 ns, `dt` the time from the present sample to the jump. Its sampling enters
PULL with LOST, its outputs take the jump as a step, and a step still pending in an older epoch is gone. -/
def Time.adopt (t : Time) (off : Int) (dt : Nat) (epoch : BitVec 4) : Time :=
  { t with outs := t.outs.map (fun (o : Tout) => o.jump (t.rt + dt) (shiftRt (t.rt + dt) (-off))), rt := shiftRt t.rt (-off), epoch := epoch,
           adopted := true, farRun := 0, step := if epoch = t.epoch then t.step else none, offStep := none,
           mode := .pull, stepPull := false, lost := true, lockRun := 0, pulling := true }

/-! ### Registers as read -/

/-- ALIGN_STAT (R45). -/
def alignStat (t : Time) : Nat :=
  (match t.mode with | .free => 0 | .pull => 1 | .lock => 2 | .holdover => 3) + 4 * bitN t.lost + 8 * bitN t.stepPull +
    256 * ((phaseErrNs t.sampled % 2 ^ 24).toNat)

/-- RT_STAT (R238). -/
def rtStat (s : State) : Nat :=
  let t := s.time
  bitN (decide (s.ring.addr = 1)) + 2 * bitN t.syncOk + 4 * bitN t.valid + 8 * t.epoch.toNat + 128 * bitN t.ppsLock +
    256 * bitN t.ppsLost + 512 * bitN t.ppsFar + 1024 * bitN t.adopted + 2048 * bitN t.step.isSome +
    65536 * t.syncErr.toNat

end Sys2Proof.Machine
end

