-- ==== Sys2Proof/Machine/RingOps.lean ====
section
/-! DEFINITION. Ring frames: acceptance (R255), queues and windows (R258), routing (R261), the roster (R262, R263), balance
reports (R275 to R278) and the configuration mirror (R279, R280). -/

namespace Sys2Proof.Machine

/-! ### Frame types (R256) -/

def tyEnum : BitVec 4 := 1
def tyVacancy : BitVec 4 := 2
def tyMbox : BitVec 4 := 3
def tySync : BitVec 4 := 4
def tyStep : BitVec 4 := 5
def tyAlign : BitVec 4 := 6
def tyBalance : BitVec 4 := 7
def tyWrap : BitVec 4 := 8
def tyIdle : BitVec 4 := 9

def broadcast : BitVec 6 := 63

/-- The frame bytes that the CRC covers (R255): offsets 0 to 7 and the payload. -/
def frameBody (f : RxFrame) : List Byte :=
  [BitVec.ofNat 8 (f.typ.toNat + 16 * bitN f.sec + 32 * bitN f.relay), BitVec.ofNat 8 f.dst.toNat, BitVec.ofNat 8 f.src.toNat,
   f.seq] ++ leBytes 2 f.len.toNat ++ leBytes 2 f.cycle.toNat ++ f.payload

/-- Coding, CRC, TYPE and LEN are good (R255). -/
def frameGood (f : RxFrame) : Bool :=
  !f.violation && decide (crc32 (frameBody f) = f.crc) && decide (1 ≤ f.typ.toNat) && decide (f.typ.toNat ≤ 9) &&
    decide (f.len.toNat = f.payload.length) && decide (f.len.toNat ≤ 256)

/-- The frame is for this unit (R255): its address, broadcast, or address 0 with its UID in the payload. -/
def frameForMe (s : State) (f : RxFrame) : Bool :=
  decide (f.dst = broadcast) || (decide (f.dst ≠ 0) && decide (f.dst = s.ring.addr)) ||
    (decide (f.dst = 0) && decide (f.typ = tyVacancy) && decide (leAt f.payload 4 8 = Config.uid.toNat))

/-- For how many ticks an accepted frame is remembered: 16 cycles, within which a source cannot come round to a number of SEQ. -/
def seenTicks : Nat := 512

/-- The second copy of a frame (R261). -/
def frameSeen (s : State) (f : RxFrame) : Bool :=
  s.ring.lastSeen.any (fun e => decide (e.1 = f.src) && decide (e.2.1 = f.typ) && decide (e.2.2.1 = f.seq) && decide (s.time.ticks < e.2.2.2 + seenTicks))

/-- Records an accepted frame's source, type and number. -/
def noteFrame (f : RxFrame) (s : State) : State :=
  let kept := s.ring.lastSeen.filter (fun e => decide (s.time.ticks < e.2.2.2 + seenTicks))
  s.modRing (fun r => { r with lastSeen := (f.src, f.typ, f.seq, s.time.ticks) :: kept })

def countFrameErr (s : State) : State := s.modRing (fun r => { r with frameErr := satAdd r.frameErr 1 })

/-- The roster index of an address 2 to 62. -/
def rosterIdx (a : BitVec 6) : Option (Fin 61) :=
  if h : 2 ≤ a.toNat ∧ a.toNat ≤ 62 then some ⟨a.toNat - 2, by omega⟩ else none

/-- The head notes that a frame has come from an address (R263). -/
def hear (f : RxFrame) (s : State) : State :=
  match rosterIdx f.src with
  | some i => if s.ring.isHead then s.modRing (fun r => { r with roster := vmod r.roster i (fun e => { e with heard := s.time.ticks }) }) else s
  | none => s

/-- A frame event: a bad frame is counted and not used; a frame for another unit, of another type or a second copy is left
alone; an accepted frame is used (R255, R261). -/
def withFrame (ty : BitVec 4) (f : RxFrame) (s : State) (use : State → State) : State :=
  if !s.coreOn || (s.stalled 2 && s.stalled 3) then s
  else if !frameGood f then countFrameErr s
  else if f.typ ≠ ty ∨ !frameForMe s f ∨ frameSeen s f then hear f s
  else use (noteFrame f (hear f s))

/-! ### Sending -/

/-- Ring time in whole milliseconds. -/
def State.nowMs (s : State) : Nat := s.gridNs / 1000000

/-- Own frames of a type are numbered modulo 256 (R255). -/
def nextSeq (ty : BitVec 4) (s : State) : Byte × State :=
  (s.ring.txSeq[ty.toFin], s.modRing (fun r => { r with txSeq := vmod r.txSeq ty.toFin (· + 1) }))

def mkFrame (ring : RingSel) (ty : BitVec 4) (dst src : BitVec 6) (seq : Byte) (payload : List Byte) (tag : Option (Fin 64)) : TxFrame :=
  { ring := ring, typ := ty, relay := false, dst := dst, src := src, seq := seq, payload := payload, tag := tag }

/-- Position in primary order: the head 0, the others from 1 (R261). -/
def posOf (s : State) (a : BitVec 6) : Nat :=
  if a = 1 then 0 else s.ring.order.findIdx (· == a) + 1

/-- The position g after which the gap lies (R261); where its upper end is not in the order, it lies before its lower end. -/
def gapPos (s : State) : Option Nat := s.ring.gap.map (fun w =>
  let up := BitVec.ofNat 6 w.up.toNat
  let down := BitVec.ofNat 6 w.down.toNat
  if up = 1 ∨ s.ring.order.contains up then posOf s up
  else if down = 1 ∨ !s.ring.order.contains down then s.ring.order.length
  else posOf s down - 1)

/-- The rings on which a unit sends to an address, and whether the frame goes to the head for relay (R261). -/
def routeTo (s : State) (q : BitVec 6) : List RingSel × Bool :=
  let p := posOf s s.ring.addr
  let toHead : RingSel := match gapPos s with
    | none => .primary
    | some g => if g < p then .primary else .secondary
  if s.ring.isHead || decide (q = broadcast) then ([.primary, .secondary], false)
  else if q = 1 then ([toHead], false)
  else
    let d := posOf s q
    match gapPos s with
    | none => if p < d then ([.primary], false) else ([.secondary], false)
    | some g =>
      if p < d then (if p ≤ g ∧ g < d then ([toHead], true) else ([.primary], false))
      else (if d ≤ g ∧ g < p then ([toHead], true) else ([.secondary], false))

/-- Queues a frame of this unit to an address on the rings that reach it (R261); for the head's relay it goes to address 1. -/
def sendFrame (ty : BitVec 4) (dst : BitVec 6) (payload : List Byte) (tag : Option (Fin 64)) (s : State) : State :=
  let n := nextSeq ty s
  let rt := routeTo s dst
  let d : BitVec 6 := if rt.2 then 1 else dst
  n.2.modRing (fun r => { r with txq := r.txq ++ rt.1.map (fun g => mkFrame g ty d s.ring.addr n.1 payload tag) })

/-- Queues a frame on one ring only. -/
def sendOn (g : RingSel) (ty : BitVec 4) (dst : BitVec 6) (payload : List Byte) (s : State) : State :=
  let n := nextSeq ty s
  n.2.modRing (fun r => { r with txq := r.txq ++ [mkFrame g ty dst s.ring.addr n.1 payload none] })

/-- An MBOX payload (R271). -/
def mboxPayload (kind : Nat) (origin final : BitVec 6) (part ofs : Nat) (body : List Byte) : List Byte :=
  leBytes 1 kind ++ leBytes 1 origin.toNat ++ leBytes 1 final.toNat ++ leBytes 1 part ++ leBytes 4 ofs ++ body

/-- Bulk data in frames of up to 248 bytes (R302). -/
def bulkChunks : Nat → Nat → List Byte → List (Nat × List Byte)
  | 0, _, _ => []
  | fuel + 1, ofs, bs => if bs.isEmpty then [] else (ofs, bs.take 248) :: bulkChunks fuel (ofs + 248) (bs.drop 248)

def sendBulk (dst origin : BitVec 6) (bs : List Byte) (s : State) : State :=
  s.forEach (bulkChunks 17 0 bs) (fun c s => sendFrame tyMbox dst (mboxPayload 3 origin dst 0 c.1 c.2) none s)

/-- The order of frames within a window (R258): unit, then head. Bulk data of an own command go with the commands, those of a response with
the responses (R302). -/
def frameRank (head : Bool) (f : TxFrame) : Nat :=
  if head then
    (if f.typ = tySync then 0 else if f.typ = tyStep then 1 else if f.typ = tyWrap then 2 else if f.typ = tyVacancy then 3
     else if f.typ = tyEnum then 4 else if f.relay then 5 else 6)
  else
    (if f.typ = tyWrap then 0 else if f.typ = tyAlign then 1 else if f.typ = tyVacancy then 2 else if f.typ = tyEnum then 3
     else if f.typ = tyBalance then 4
     else if f.typ = tyMbox then (if leAt f.payload 0 1 = 2 ∨ (leAt f.payload 0 1 = 3 ∧ leAt f.payload 1 1 ≠ f.src.toNat) then 5 else 6) else 7)

/-- The frames of a ring in the order of a window. -/
def inOrder (head : Bool) (l : List TxFrame) : List TxFrame :=
  (List.range 8).flatMap (fun k => l.filter (fun f => frameRank head f == k))

/-- Characters of a frame with its fill (R255, R258). -/
def frameChars (f : TxFrame) : Nat := 27 + f.payload.length + 2

/-- The destination a queued frame finally reaches. -/
def finalDst (f : TxFrame) : BitVec 6 := if f.typ = tyMbox then BitVec.ofNat 6 (leAt f.payload 2 1) else f.dst

/-- The frames that fit a window of `room` characters, in order, and those that wait: a frame that does not fit (R258), and an MBOX frame
behind one to the same destination that waits (R272). -/
def fitWindow : Nat → List (BitVec 6) → List TxFrame → List TxFrame × List TxFrame
  | _, _, [] => ([], [])
  | room, held, f :: fs =>
    if decide (frameChars f ≤ room) && !(decide (f.typ = tyMbox) && held.contains (finalDst f)) then
      let r := fitWindow (room - frameChars f) held fs
      (f :: r.1, r.2)
    else
      let r := fitWindow room (if f.typ = tyMbox then finalDst f :: held else held) fs
      (r.1, f :: r.2)

/-- The line clock comes from port B: never on the head (R252). -/
def timingB (r : Ring) : Bool := !r.isHead && !r.portA.up && r.portB.up

/-- IDLE STATE (R256). -/
def idleState (s : State) : Nat :=
  bitN s.ring.portA.up + 2 * bitN s.ring.portB.up + 4 * bitN (timingB s.ring) +
    8 * (match s.time.mode with | .free => 0 | .pull => 1 | .lock => 2 | .holdover => 3) + 32 * bitN s.hw.mpRun

def idlePayload (s : State) : List Byte := leBytes 1 (idleState s) ++ leBytes 3 0 ++ leBytes 4 s.ring.mirrorGen.toNat

/-! ### Ports and registers -/

/-- The crossing of a port's receiver is stalled: no frame is accepted there (R400). -/
def rxStalled (s : State) (p : RingPort) : Bool := match p with | .a => s.stalled 2 | .b => s.stalled 3

/-- A port is up and reported (R268). -/
def LinkPort.reported (p : LinkPort) : Bool := p.up && decide (8 ≤ p.good)

def portField (p : LinkPort) : Nat := if !p.up then 0 else if p.reported then 2 else 1

/-- RING_STAT (R273). -/
def ringStat (s : State) : Nat :=
  s.ring.addr.toNat + 64 * bitN s.ring.gap.isSome + 128 * portField s.ring.portA + 512 * portField s.ring.portB +
    2048 * bitN (timingB s.ring) + 4096 * bitN s.ring.dupAddr + 8192 * bitN s.ring.ringFull +
    16384 * bitN s.ring.headConflict

def modPortOf (p : RingPort) (f : LinkPort → LinkPort) (r : Ring) : Ring :=
  match p with
  | .a => { r with portA := f r.portA }
  | .b => { r with portB := f r.portB }

def portOf (p : RingPort) (r : Ring) : LinkPort := match p with | .a => r.portA | .b => r.portB

/-- The port at which a ring enters (R249). -/
def entryPort : RingSel → RingPort
  | .primary => .a
  | .secondary => .b

/-- The delay of the link into a port, LINK_x + ASYM_x, in 2^-16 ns (R231, R232). -/
def linkDelay (p : LinkPort) : Int := (p.delay.toNat : Int) + p.asymNow.toInt

/-- ASYM_A and ASYM_B as written come into effect (R232). -/
def takeAsym (s : State) : State :=
  s.modRing (fun r => { r with portA := { r.portA with asymNow := r.portA.asym }, portB := { r.portB with asymNow := r.portB.asym } })

/-! ### Roster -/

def rosterAddr (i : Fin 61) : BitVec 6 := BitVec.ofNat 6 (i.val + 2)

/-- The address of a UID in the roster. -/
def addrOfUid (r : Ring) (uid : BitVec 64) : Option (Fin 61) :=
  (fins 61).find? (fun i => decide (r.roster[i].st ≠ .free) && decide (r.roster[i].uid = uid))

/-- An address that is held in the roster, and one that is PRESENT. -/
def rosterHeld (r : Ring) (a : BitVec 6) : Bool := match rosterIdx a with | some i => decide ((r.roster[i]).st ≠ .free) | none => false
def rosterPresent (r : Ring) (a : BitVec 6) : Bool := match rosterIdx a with | some i => decide ((r.roster[i]).st = .present) | none => false

/-- The units along a chain of neighbours, DOWN_UID from the head's port B or UP_UID from its port A (R262). -/
def chainFrom (next : RosterEntry → BitVec 64) (r : Ring) : Nat → BitVec 64 → List (BitVec 6)
  | 0, _ => []
  | fuel + 1, uid =>
    if uid = 0 ∨ uid = Config.uid then []
    else match addrOfUid r uid with
      | none => []
      | some i => rosterAddr i :: chainFrom next r fuel (next r.roster[i])

/-- Every held address in primary order (R262): the chain from the head's port B, and beyond a gap the chain that ends at its port A.
Addresses that neither reaches stand between, in the order they had, new ones ascending. -/
def chainOf (r : Ring) : List (BitVec 6) :=
  let front := dedup (chainFrom (·.downUid) r 61 r.portB.uid)
  let back := ((dedup (chainFrom (·.upUid) r 61 r.portA.uid)).filter (fun a => !front.contains a)).reverse
  let mid := r.chain.filter (fun a => rosterHeld r a && !front.contains a && !back.contains a)
  front ++ mid ++ (((fins 61).map rosterAddr).filter (fun a => rosterHeld r a && !front.contains a && !back.contains a && !mid.contains a)) ++ back

/-- The head forms its order anew after a change of the roster; ORDER names the present units (R262). -/
def reorder (r : Ring) : Ring :=
  let c := chainOf r
  { r with chain := c, order := c.filter (rosterPresent r) }

/-- A granted address comes into use in the next cycle (R265). -/
def takeGrant (ms : Nat) (s : State) : State :=
  match s.ring.grantPend with
  | some (a, c) => if ms = c then s else s.modRing (fun r => { r with addr := a, grantPend := none })
  | none => s

/-! ### Balance -/

/-- Balance period in ns (R273). -/
def balPeriodNs (p : BitVec 2) : Nat := [1, 10, 60, 900].getD p.toNat 1 * 1000000000

/-- The period this unit uses: the head's own setting, or the one of the last ENUM (R262). -/
def State.balPeriod (s : State) : Nat :=
  balPeriodNs (if s.ring.isHead then BitVec.ofNat 2 (bitsN s.ring.hcfg.toNat 2 1) else s.ring.balPeriod)

/-- The interval in progress, if there is one, ends; at a boundary the next one opens, and after a step none runs until the first
boundary (R275). -/
def rollBalance (stepped : Bool) (start : Stamp) (r : Ring) : Ring :=
  { r with balEnded := if r.balOff then r.balEnded else
             some { start := r.balStart, sums := r.balOpen, stepped := stepped, gap := r.balGap, fin := start.total },
           balOpen := Vector.replicate 24 .zero, balStart := start, balOff := stepped, balGap := false }

/-- The boundary of a balance interval passes between two instants (R275). -/
def balanceTick (old : Nat) (s : State) : State :=
  let p := s.balPeriod
  if old / p < s.gridNs / p then s.modRing (rollBalance false (s.stampAt (s.gridNs / p * p))) else s

/-- One entry of a BALANCE report: circuit, flags, NET (R276). A RETIRED unit's stopped circuits have none (R417). -/
def balEntries (s : State) (i : BalInterval) : List (Byte × Byte × Int) :=
  ((fins 24).filter (fun c => cirEn s.circuits[c].cfg && !s.circuits[c].stopped)).map (fun c =>
    (BitVec.ofNat 8 (c.val + 1), (i.sums[c]).flags ||| (if i.stepped then 16 else 0), roundDiv (i.sums[c]).net 65536))

def balPayload (start : Stamp) (l : List (Byte × Byte × Int)) : List Byte :=
  start.bytes ++ leBytes 1 l.length ++ leBytes 3 0 ++ l.flatMap (fun e => [e.1, e.2.1] ++ leInt 8 e.2.2)

def balEntriesOf (bs : List Byte) : List (Byte × Byte × Int) :=
  (List.range (min (leAt bs 12 1) 24)).map (fun k =>
    (BitVec.ofNat 8 (leAt bs (16 + 10 * k) 1), BitVec.ofNat 8 (leAt bs (17 + 10 * k) 1), sgnBits 64 (leAt bs (18 + 10 * k) 8)))

/-- Fields of a group descriptor (R274). -/
def balEn (d : List Byte) : Bool := bitB (leAt d 1 1) 0
def balTh (d : List Byte) : Nat := leAt d 2 2
def balNAlarm (d : List Byte) : Nat := leAt d 4 1
def balCount (d : List Byte) : Nat := leAt d 5 1
def balMinFeed (d : List Byte) : Nat := leAt d 8 2
def balBranch (d : List Byte) (k : Nat) : Nat := leAt d (10 + 2 * k) 2

/-- The members of a group: unit, circuit, and the sign with which the branch counts. -/
def balMembers (d : List Byte) : List (Nat × Nat) :=
  (leAt d 6 1, leAt d 7 1) :: (List.range (balCount d)).map (fun k => (balBranch d k % 64, bitsN (balBranch d k) 12 8))

def balEntry (reports : List BalReport) (m : Nat × Nat) : Option (Byte × Int) :=
  match reports.find? (fun r => r.unit.toNat == m.1) with
  | none => none
  | some r => (r.entries.find? (fun e => e.1.toNat == m.2)).map (fun e => (e.2.1, e.2.2))

/-- The head's computation of a group beyond the reports of an interval (R277, R278). True when ALARM is newly set. -/
def computeGroup (start : Stamp) (gap : Bool) (reports : List BalReport) (k : Nat) (g : BalGroup) : BalGroup × Bool :=
  if !balEn g.desc then (g, false)
  else
    let ms := balMembers g.desc
    let es := ms.map (balEntry reports)
    let missing := es.any (fun e => e.isNone)
    let has : Nat → Bool := fun b => es.any (fun e => match e with | some e => e.1.getLsbD b | none => false)
    let net : Option (Byte × Int) → Int := fun e => (e.map (fun e => e.2)).getD 0
    let feeder := net (es.headD none)
    let branch := ((List.range (balCount g.desc)).map (fun j =>
      (if bitB (balBranch g.desc j) 7 then (-1 : Int) else 1) * net (es.getD (j + 1) none))).sum
    let imb := feeder - branch
    let low := decide (feeder.natAbs < balMinFeed g.desc * 1000000 * 65536)
    let rel : Int := if low || decide (feeder = 0) then 0 else clampInt (-2147483648) 2147483647 (roundDiv (imb * 6553600) feeder.natAbs)
    let unjudged := missing || has 0 || has 4 || has 3 || gap || low
    let beyond := decide (balTh g.desc * feeder.natAbs < imb.natAbs * 100000)
    let run : Byte := if unjudged then g.run else if beyond then satAdd g.run 1 else 0
    let alarm := if unjudged then g.alarm else if beyond then g.alarm || decide (balNAlarm g.desc ≤ run.toNat) else false
    let seq := g.seq + 1
    let flags := bitN (has 0) + 2 * bitN missing + 4 * bitN (has 4) + 8 * bitN (has 3) + 16 * bitN (has 1) + 32 * bitN (has 2) +
      64 * bitN low + 128 * bitN alarm + 256 * bitN gap
    ({ g with seq := seq, run := run, alarm := alarm,
              result := leBytes 4 seq.toNat ++ leBytes 2 flags ++ leBytes 1 (k + 1) ++ leBytes 1 run.toNat ++ start.bytes ++
                leInt 8 feeder ++ leInt 8 branch ++ leInt 8 imb ++ leInt 4 rel }, alarm && !g.alarm)

/-! ### Mirror (R279, R280). The memory holds 61 entries of 256 bytes, entry of address a at 256 × (a − 2). -/

def mirrorEntry (s : State) (i : Fin 61) : List Byte := memSlice 0 s.ring.mirror (256 * i.val) 256

def setMirror (i : Fin 61) (bs : List Byte) (s : State) : State :=
  s.modRing (fun r => { r with mirror := memPuts 0 r.mirror (256 * i.val) (padTo 256 bs) })

def mirrorHeld (bs : List Byte) : Bool := bitB (leAt bs 11 1) 2

/-- The distinct (QUANTUM, PFS) pairs of the enabled circuits in circuit order (R280). -/
def scalePairs (s : State) : List (Nat × Nat) :=
  dedup (((fins 24).filter (fun c => cirEn s.circuits[c].cfgW)).map (fun c => (s.circuits[c].quantumW.toNat, s.circuits[c].pfsW.toNat)))

def packBits (w : Nat) (l : List Nat) : Nat := l.foldr (fun v acc => v % 2 ^ w + 2 ^ w * acc) 0

/-- The content of this unit's mirror entry (R279): `digest` over the images of CONF0 to CONF3. -/
def mirrorContent (digest : List Byte) (s : State) : List Byte :=
  let pairs := scalePairs s
  let kept := pairs.take 4
  let idx : Fin 24 → Nat := fun c => kept.findIdx (· == (s.circuits[c].quantumW.toNat, s.circuits[c].pfsW.toNat))
  let no : Fin 24 → Bool := fun c => decide (kept.length ≤ idx c)
  leBytes 8 Config.uid.toNat ++ leBytes 1 s.ring.addr.toNat ++ leBytes 2 0 ++ leBytes 1 (1 + 2 * bitN (decide (4 < pairs.length))) ++
    leBytes 4 s.ring.mirrorGen.toNat ++ digest ++ leBytes 8 0 ++
    (fins 24).flatMap (fun c => leBytes 4 s.circuits[c].cfgW.toNat) ++ (fins 24).flatMap (fun p => leBytes 2 s.ports[p].cfgW.toNat) ++
    leBytes 4 s.pqSets[(0 : Fin 2)].cfgW.toNat ++ leBytes 4 s.pqSets[(1 : Fin 2)].cfgW.toNat ++
    leBytes 4 s.pqSets[(0 : Fin 2)].udinW.toNat ++ leBytes 4 s.pqSets[(1 : Fin 2)].udinW.toNat ++
    padTo 48 (kept.flatMap (fun p => leBytes 4 p.1 ++ leBytes 6 p.2 ++ leBytes 2 0)) ++
    leBytes 6 (packBits 2 ((fins 24).map (fun c => if no c then 0 else idx c))) ++
    leBytes 3 (packBits 1 ((fins 24).map (fun c => bitN (no c)))) ++ leBytes 7 0

end Sys2Proof.Machine
end

