-- ==== Sys2Proof/Machine/Mailbox.lean ====
section
/-! DEFINITION. The mailbox: descriptors and responses (R293, R294), tags (R295), response placement, the bulk window
(R299), the hardware consumer (R291, R292), doorbell checks (R291) and MP resets (R306). -/

namespace Sys2Proof.Machine

/-- The status codes of R331. -/
inductive Status where
  | ok | busy | retry | badOpcode | badLength | complement | sealed | deferred | badDate | swapped | notHead | range | stale
  | denied | pageLost | timeout | noTxn | uncalibrated | worn | interrupted | badSignature | noImage | nodeUnknown
  | tableFull | noPanel
  deriving DecidableEq, Repr

def Status.code : Status → Nat
  | .ok => 0x00 | .busy => 0x01 | .retry => 0x02 | .badOpcode => 0x03 | .badLength => 0x04 | .complement => 0x05
  | .sealed => 0x06 | .deferred => 0x07 | .badDate => 0x08 | .swapped => 0x09 | .notHead => 0x0A | .range => 0x0B
  | .stale => 0x0C | .denied => 0x0D | .pageLost => 0x0E | .timeout => 0x0F | .noTxn => 0x10 | .uncalibrated => 0x11
  | .worn => 0x12 | .interrupted => 0x13 | .badSignature => 0x14 | .noImage => 0x15 | .nodeUnknown => 0x16
  | .tableFull => 0x17 | .noPanel => 0x18

/-! ### Descriptors (R293) -/

def dOpcode (d : List Byte) : Nat := leAt d 0 2
def dFlags (d : List Byte) : Nat := leAt d 2 1
def dLane (d : List Byte) : Nat := bitsN (dFlags d) 1 0
def dBulkIn (d : List Byte) : Bool := bitB (dFlags d) 2
def dBulkOut (d : List Byte) : Bool := bitB (dFlags d) 3
def dBulk (d : List Byte) : Bool := dBulkIn d || dBulkOut d
def dUnit (d : List Byte) : Nat := leAt d 3 1
def dTag (d : List Byte) : Nat := leAt d 4 1
def dLen (d : List Byte) : Nat := leAt d 5 1
def dRef (d : List Byte) : Nat := leAt d 6 2
def dBulkLen (d : List Byte) : Nat := leAt d 8 2
def dPayload (d : List Byte) : List Byte := sliceAt d 16 48

/-- Bulk-in bytes that a command waits for (R302). -/
def dBulkInLen (d : List Byte) : Nat := if dBulkIn d then dBulkLen d else 0

/-! ### Responses (R294) -/

/-- The 64 bytes of a response. -/
def respBytes (d : List Byte) (st unit tag : Nat) (payload : List Byte) (bulk yield latency : Nat) : List Byte :=
  leBytes 2 (dOpcode d) ++ leBytes 1 st ++ leBytes 1 unit ++ leBytes 1 tag ++ leBytes 1 (min payload.length 48) ++
    leBytes 2 (dRef d) ++ leBytes 2 bulk ++ leBytes 1 yield ++ leBytes 1 0 ++ leBytes 4 latency ++ padTo 48 payload

def rspBase : Nat := 0x0400
def bulkBase : Nat := 0x2000

/-- A response goes into the slot at RSP_PI (R291, R294). -/
def place (r : List Byte) (s : State) : State :=
  let i := s.hw.rspPi
  (s.modMb (fun m => { m with win := memPuts 0 m.win (rspBase + 64 * (i.toNat % 64)) (padTo 64 r) })).modHw
    (fun h => { h with rspPi := h.rspPi + 1 })

/-- A refusal of the consumer, placed at once with TAG 0xFF (R292). -/
def refuse (d : List Byte) (st : Status) (s : State) : State :=
  place (respBytes d st.code s.unitByte 0xFF [] 0 0 0) s

/-! ### Tags (R295) -/

def freeTags (m : Mailbox) : List (Fin 64) := (fins 64).filter (fun t => (m.tags[t]).isNone)

def tagsFree (m : Mailbox) : Nat := (freeTags m).length

def isLocal (c : Cmd) : Bool := match c.origin with | .ring _ _ => false | _ => true

/-- Local tags in flight (R291). -/
def localTags (m : Mailbox) : Nat :=
  ((fins 64).filter (fun t => match m.tags[t] with | some c => isLocal c | none => false)).length

def unread (h : HwRegs) : Nat := (h.rspPi - h.rspCi).toNat

def freeTag (t : Fin 64) (s : State) : State := s.modMb (fun m => { m with tags := vmod m.tags t (fun _ => none) })

/-- The lowest free tag is claimed (R295). -/
def claimTag (d : List Byte) (o : Origin) (remote : Bool) (got : Nat) (s : State) : Option (Fin 64 × State) :=
  (freeTags s.mb).head?.map (fun t =>
    (t, s.modMb (fun m =>
      { m with
        claims := m.claims + 1,
        tags := vmod m.tags t (fun _ => some { desc := d, origin := o, order := m.claims, remote := remote, started := false,
                                               waiting := false, got := got,
                                               yielded := if s.hw.frozen then 2 else 0, claimed := s.time.ticks }) })))

/-- Yield bits of a command gather (R305). -/
def addYield (t : Fin 64) (y : Byte) (s : State) : State :=
  s.modMb (fun m => { m with tags := vmod m.tags t (fun c => c.map (fun c => { c with yielded := c.yielded ||| y })) })

def setCmd (t : Fin 64) (f : Cmd → Cmd) (s : State) : State :=
  s.modMb (fun m => { m with tags := vmod m.tags t (fun c => c.map f) })

/-! ### The bulk window (R299) -/

/-- A command may claim the window: a host command a FREE or FILLING one, others a FREE one. -/
def bulkClaimable (o : Origin) (b : BulkState) : Bool :=
  match b, o with
  | .free, _ => true
  | .filling, .host => true
  | _, _ => false

def setBulk (b : BulkState) (s : State) : State := s.modMb (fun m => { m with bulk := b })

/-- The window of an answered command waits for the reading of its response, or is FREE when its frames leave. -/
def bulkAnswered (t : Fin 64) (s : State) : State :=
  if s.mb.bulk = .claimed t then setBulk (.answered s.hw.rspPi) s else s

/-- An index lies among those that a move of RSP_CI frees. -/
def passedBy (i old new : Byte) : Bool := decide ((i - old).toNat < (new - old).toNat)

/-- A command is held for a store or for other hardware; its wait in its lane has ended (R295, R305). -/
def holdCmd (t : Fin 64) (s : State) : State :=
  setCmd t (fun c => { c with started := true, waiting := true, startedAt := some s.time.ticks }) s

/-- Bulk-out data placed from window offset 0x2000. -/
def putBulk (bs : List Byte) (s : State) : State :=
  if bs.isEmpty then s else s.modMb (fun m => { m with win := memPuts 0 m.win bulkBase bs })

/-! ### Answers -/

/-- LANE is set where a command of this unit waited more than 1 ms in its lane, from its claim to its start (R305). -/
def laneWait (c : Cmd) (draw now : Nat) : Byte :=
  if !c.remote && decide (1000000 < elapsedNs draw 1 (c.startedAt.getD now - c.claimed)) then 16 else 0

def yieldByte (c : Cmd) (draw now : Nat) : Nat := (c.yielded ||| laneWait c draw now).toNat

/-- LATENCY: from the tag claim to the placement of the response, in µs (R294). -/
def latencyUs (c : Cmd) (draw now : Nat) : Nat := min (elapsedUs draw 0 (now - c.claimed)) 0xFFFFFFFF

/-- A command's response (R294, R295): a local one goes into the response ring and frees its tag; a ring-relayed one leaves
in MBOX frames, bulk data first (R302), and its tag is freed when the last has been sent. -/
def answer (t : Fin 64) (st : Status) (payload bulk : List Byte) (s : State) : State :=
  match s.mb.tags[t] with
  | none => s
  | some c =>
    let d := s.draw
    let s := d.2
    match c.origin with
    | .ring a otag =>
      let r := respBytes c.desc st.code s.unitByte otag.toNat payload bulk.length (yieldByte c d.1 s.time.ticks) 0
      let s := setCmd t (fun c => { c with started := true, waiting := false }) s
      let s := if bulk.isEmpty then s else sendBulk a a bulk (putBulk bulk s)
      sendFrame tyMbox a (mboxPayload 2 a a 0 0 r) (some t) s
    | _ =>
      let r := respBytes c.desc st.code s.unitByte t.val payload bulk.length (yieldByte c d.1 s.time.ticks) (latencyUs c d.1 s.time.ticks)
      freeTag t (place r (bulkAnswered t (putBulk bulk s)))

/-- A response that the hardware places for a tag without the MP (R301, R306). -/
def answerHw (t : Fin 64) (st : Status) (s : State) : State := answer t st [] [] s

/-- A frame of the ring with this tag has left (R295): the tag of an answered ring command and its window are freed. -/
def releaseSent (t : Fin 64) (s : State) : State :=
  match s.mb.tags[t] with
  | some c =>
    if c.started && !c.waiting && !isLocal c && !s.ring.txq.any (fun f => f.tag == some t) then
      freeTag t (if s.mb.bulk = .claimed t then setBulk .free s else s)
    else s
  | none => s

/-! ### The consumer (R291, R292) -/

/-- The descriptor in slot CMD_CI mod 16. -/
def nextDesc (s : State) : List Byte := memSlice 0 s.mb.win (64 * (s.hw.cmdCi.toNat % 16)) 64

/-- Checks 1 to 3 of R292. -/
def descCheck (d : List Byte) : Option Status :=
  if leAt d 10 2 + dOpcode d ≠ 0xFFFF then some .complement
  else if 48 < dLen d ∨ 4096 < dBulkLen d then some .badLength
  else if dFlags d / 16 ≠ 0 ∨ leAt d 12 4 ≠ 0 ∨ 62 < dUnit d ∨ (dBulk d ∧ dLane d ≠ 3) then some .range
  else none

/-- A command for another unit (R300). -/
def isRemote (s : State) (d : List Byte) : Bool := decide (dUnit d ≠ 0) && decide (dUnit d ≠ s.unitByte)

/-- The consumer has response room (R291). -/
def hasRoom (s : State) : Bool := decide (unread s.hw + localTags s.mb < 64)

/-- The slot is taken: CMD_CI advances and CMD_SPACE is set. -/
def slotTaken (s : State) : State := (s.modHw (fun h => { h with cmdCi := h.cmdCi + 1 })).raise irqCmdSpace

/-- A command of this unit goes to another unit (R300, R302). -/
def sendCommand (t : Fin 64) (d : List Byte) (s : State) : State :=
  let a := BitVec.ofNat 6 (dUnit d)
  let s := sendFrame tyMbox a (mboxPayload 1 s.ring.addr a 0 0 (overlay d 4 (leBytes 1 t.val))) (some t) s
  if dBulkIn d then sendBulk a s.ring.addr (memSlice 0 s.mb.win bulkBase (dBulkLen d)) s else s

/-- Checks 4 to 6 of R292 and the claim of a host command that passes. -/
def acceptDesc (d : List Byte) (s : State) : State :=
  if dBulk d && !bulkClaimable .host s.mb.bulk then refuse d .busy s
  else
    let back := if dBulk d then setBulk .filling s else s
    match claimTag d .host (isRemote s d) (dBulkInLen d) s with
    | none => refuse d .busy back
    | some (t, s') =>
      if s.hw.swapping then refuse d .swapped back
      else if !s.hw.mpReady then refuse d .retry back
      else
        let s' := if dBulk d then setBulk (.claimed t) s' else s'
        if isRemote s d then sendCommand t d s' else s'

/-- The consumer at slot CMD_CI (R291, R292). -/
def consume (s : State) : State :=
  if !s.coreOn || decide (s.hw.cmdCi = s.hw.cmdPi) then s
  else if !hasRoom s then
    s.modHw (fun h => { h with rspFull := true, rspStalls := if h.rspFull then h.rspStalls else satAdd h.rspStalls 1 })
  else
    let s := s.modHw (fun h => { h with rspFull := false })
    let d := nextDesc s
    slotTaken (match descCheck d with
      | some st => refuse d st s
      | none => acceptDesc d s)

/-! ### Doorbell (R291) -/

def dbErr (s : State) : State := (s.modHw (fun h => { h with dbErr := true })).raise irqErr

/-- A write of CMD_PI. -/
def writeCmdPi (v : Byte) (s : State) : State :=
  if v = s.hw.cmdPi then s
  else if decide ((v - s.hw.cmdCi).toNat ≤ 16) && decide ((s.hw.cmdPi - s.hw.cmdCi).toNat ≤ (v - s.hw.cmdCi).toNat) then
    s.modHw (fun h => { h with cmdPi := v })
  else dbErr s

/-- A write of RSP_CI; it releases the bulk window when it passes the claiming command's response (R299). -/
def writeRspCi (v : Byte) (s : State) : State :=
  if v = s.hw.rspCi then s
  else if decide ((s.hw.rspPi - v).toNat ≤ 64) && decide ((s.hw.rspPi - v).toNat ≤ (s.hw.rspPi - s.hw.rspCi).toNat) then
    let old := s.hw.rspCi
    let s := s.modHw (fun h => { h with rspCi := v })
    match s.mb.bulk with
    | .answered i => if passedBy i old v then setBulk .free s else s
    | _ => s
  else dbErr s

/-! ### MP reset (R306) -/

/-- What an MP reset or a swap answers to each command that has no response (R306, R307). -/
def flushTag (started queued : Status) (t : Fin 64) (s : State) : State :=
  match s.mb.tags[t] with
  | some c =>
    if c.remote then s
    else if c.started && c.waiting then answerHw t started s
    else if !c.started then answerHw t queued s
    else s
  | none => s

/-- Every command without a response is answered; an owner that is gone no longer waits in a store request. -/
def flushTags (started queued : Status) (keep : Option (Fin 64)) (s : State) : State :=
  let s := s.forEach ((fins 64).filter (fun t => decide (some t ≠ keep))) (flushTag started queued)
  s.modFirn (fun f => { f with reqs := f.reqs.map (fun r => if r.tag = keep then r else { r with tag := none }) })

/-- Nonces are void (R425). -/
def voidNonces (s : State) : State := s.modSec (fun k => { k with unsealNonce := none, debugNonce := none })

/-- The debug level returns to D0 (R429). -/
def dropDebug (s : State) : State :=
  if s.sec.debug = 0 then s.modSec (fun k => { k with debugLeft := none })
  else (s.modSec (fun k => { k with debug := 0, debugLeft := none })).raise irqLifecycle

/-- An MP reset discards open transactions, and DONE ones are no longer reportable (R141, R320). -/
def mpResetTxns (s : State) : State :=
  s.modCal (fun k => { k with txns := k.txns.filter (fun t => decide (t.st ≠ .opened) && decide (t.st ≠ .done) && decide (t.st ≠ .stale)) })

/-- The MP is reset (R306, R425, R429). -/
def resetMp (s : State) : State :=
  let s := s.modHw (fun h => { h with mpReady := false, mpRun := true, mpResets := satAdd h.mpResets 1 })
  let s := s.raise irqMpReset
  let s := s.modMp (fun m => { m with halted := false })
  let s := mpResetTxns (dropDebug (voidNonces s))
  flushTags .interrupted .retry none s

/-- A running or interrupted swap leaves its tag. -/
def clearSwap (s : State) : State :=
  (s.modMp (fun m => { m with swapTag := none })).modHw (fun h => { h with swapping := false })

end Sys2Proof.Machine
end

