-- ==== Sys2Proof/Machine/Flags.lean ====
section
/-! DEFINITION. The direct registers of the host port as words (R285 to R287), what a read clears, and what a write sets. -/

namespace Sys2Proof.Machine

/-- HW_ID (R287). -/
def hwId : Nat := 0x01B04824

/-- HW_STATUS (R287). -/
def hwStatus (s : State) : Nat :=
  let h := s.hw
  bitN h.loaded + 2 * bitN h.mpReady + 4 * bitN h.mpRun + 8 * bitN h.bank + 16 * bitN h.swapping + 32 * bitN h.frozen +
    64 * bitN h.crcErr + 128 * bitN h.winViol + 256 * bitN h.dbErr + 512 * bitN h.notAvail + 1024 * bitN h.rspFull +
    2048 * bitN h.winExpired + 4096 * tagsFree s.mb + 2 ^ 20 * h.crcCnt.toNat + 2 ^ 24 * h.rspStalls.toNat

/-- HW_IRQ (R287). -/
def hwIrq (h : HwRegs) : Nat := h.flags.toNat + 2 ^ 16 * h.irqEn.toNat

/-- HW_DOORBELL (R287). -/
def hwDoorbell (h : HwRegs) : Nat := h.cmdPi.toNat + 256 * h.cmdCi.toNat + 2 ^ 16 * h.rspPi.toNat + 2 ^ 24 * h.rspCi.toNat

/-- HW_WDOG (R287). -/
def hwWdog (h : HwRegs) : Nat := h.mpResets.toNat + 256 * bitN h.wdogFired

def lifecycleCode : Lifecycle → Nat
  | .factory => 0 | .opened => 1 | .sealed => 2 | .retired => 3

/-- HW_LIFECYCLE (R287, R423). -/
def hwLifecycle (k : Security) : Nat := lifecycleCode k.state + 4 * (k.debug).toNat + 256 * (k.sealBreaks.toNat % 2 ^ 24)

/-- The register needs the core, or LOADED (R285, R286); HW_LIFECYCLE, whose fields are restored, is not readable between a reset of PD_AO and the
start-up that restores them (R10, assumption log row 30). -/
def regAvail (s : State) (a : Nat) : Bool :=
  if a = 0x0C ∨ a = 0x14 then s.coreOn
  else if a = 0x10 then s.coreOn && s.hw.loaded
  else if a = 0x18 then !s.power.aoReset
  else true

/-- The word at a register address; addresses outside the map read 0 (R283, R285). -/
def regWord (s : State) (a : Nat) : Nat :=
  if !regAvail s a then 0
  else match a with
    | 0x00 => hwId
    | 0x04 => hwStatus s
    | 0x08 => hwIrq s.hw
    | 0x0C => hwDoorbell s.hw
    | 0x10 => s.energy.hostLatch.seq.toNat
    | 0x14 => hwWdog s.hw
    | 0x18 => hwLifecycle s.sec
    | _ => 0

/-- Byte k of a register read that starts at ADDR. -/
def regByte (s : State) (addr k : Nat) : Byte := BitVec.ofNat 8 (regWord s (addr + k / 4 * 4) / 256 ^ (k % 4))

def regBytes (s : State) (addr n : Nat) : List Byte := (List.range n).map (regByte s addr)

/-- The byte of register a with number j is among the n bytes sent from ADDR. -/
def byteSent (addr n a j : Nat) : Bool := (List.range n).any (fun k => addr + k / 4 * 4 == a && k % 4 == j)

/-- What a register read changes: RC fields that were sent, and NOT_AVAIL (R286, R288). -/
def regReadEffect (addr n : Nat) (s : State) : State :=
  let na := (List.range n).any (fun k => !regAvail s (addr + k / 4 * 4))
  s.modHw (fun h => { h with
    crcCnt := if byteSent addr n 0x04 2 then 0 else h.crcCnt,
    rspStalls := if byteSent addr n 0x04 3 then 0 else h.rspStalls,
    mpResets := if byteSent addr n 0x14 0 && s.coreOn then 0 else h.mpResets,
    notAvail := h.notAvail || na })

/-- The host port is supplied (R282, R439). -/
def spiOn (s : State) : Bool := decide (s.power.state ≠ .off)

/-- A read of n bytes clocked plainly, or with the check value of R284 over the header and the data. -/
def sendData (hdr : List Byte) (form : ReadForm) (data : List Byte) (s : State) : State :=
  s.modHw (fun h => { h with hmiso := match form with
    | .plain _ => data
    | .crc _ => data ++ leBytes 2 (crc16 (hdr ++ data)).toNat })

/-- The number of data bytes a read clocks. -/
def formLen : ReadForm → Nat
  | .plain n => n
  | .crc c => c.toNat + 1

def formHdr (code : Nat) (addr : List Byte) : ReadForm → List Byte
  | .plain _ => []
  | .crc c => leBytes 1 (code + 0x80) ++ addr ++ [c]

/-- What a host SPI transaction leaves on HMISO when the device sends nothing. -/
def sendNothing (s : State) : State := s.modHw (fun h => { h with hmiso := [] })

/-- A CRC-form write is discarded for its check value (R284). -/
def crcFail (s : State) : State :=
  (s.modHw (fun h => { h with crcErr := true, crcCnt := satAdd h.crcCnt 1 })).raise irqErr

/-- Whether a write in a form is applied: `none` where R284 discards it without CRC_ERR. -/
inductive WriteCheck where
  | apply
  | crcBad
  | discard
  deriving DecidableEq, Repr

/-- The check of a CRC-form write over instruction, address, COUNT and data (R284). -/
def writeCheck (code : Nat) (addr data : List Byte) (want : Option Nat) : Option CrcForm → WriteCheck
  | none => .apply
  | some f =>
    if (match want with | some n => decide (f.count.toNat + 1 ≠ n) | none => false) then .discard
    else if f.check = some (crc16 (leBytes 1 (code + 0x80) ++ addr ++ [f.count] ++ data)) ∧ data.length = f.count.toNat + 1 then .apply
    else .crcBad

/-- W1C and RW fields of HW_STATUS and HW_IRQ (R287). -/
def writeStatus (v : Nat) (h : HwRegs) : HwRegs :=
  { h with crcErr := h.crcErr && !bitB v 6, winViol := h.winViol && !bitB v 7, dbErr := h.dbErr && !bitB v 8,
           notAvail := h.notAvail && !bitB v 9, winExpired := h.winExpired && !bitB v 11 }

def writeIrq (v : Nat) (h : HwRegs) : HwRegs :=
  { h with irq := h.irq &&& ~~~(BitVec.ofNat 9 v &&& 0x1FE), irqEn := BitVec.ofNat 9 (v / 2 ^ 16) }

/-- A host snapshot into the host latch (R80, R289). -/
def snapHost (s : State) : State :=
  { s with energy := { s.energy with hostLatch := { image := some s.totalsImage, seq := s.energy.hostLatch.seq + 1 } } }

/-- NOT_AVAIL is set (R286). -/
def notAvail (s : State) : State := s.modHw (fun h => { h with notAvail := true })

/-- TRIGGER = 1: a host snapshot; before LOADED it is ignored and sets NOT_AVAIL (R80, R289). -/
def triggerSnap (s : State) : State := if s.coreOn && s.hw.loaded then snapHost s else notAvail s

/-- The MP is reset by FORCE (R287, R435). -/
def forceReset (v : Byte) (s : State) : State := if v = 0x5A ∧ s.coreOn then clearSwap (resetMp s) else s

/-- A write of one HW_ register (R287, R291). -/
def writeReg (a v : Nat) (s : State) : State :=
  if a = 0x10 then (if bitB v 16 then triggerSnap s else s)
  else if !regAvail s a then s
  else match a with
    | 0x04 => s.modHw (writeStatus v)
    | 0x08 => s.modHw (writeIrq v)
    | 0x0C => writeRspCi (BitVec.ofNat 8 (v / 2 ^ 24)) (writeCmdPi (BitVec.ofNat 8 v) s)
    | 0x14 => forceReset (BitVec.ofNat 8 (v / 2 ^ 24)) (s.modHw (fun h => { h with wdogFired := h.wdogFired && !bitB v 8 }))
    | _ => s

/-! ### The window (R290, R299) -/

/-- A command slot from CMD_CI up to CMD_PI is locked (R290). -/
def slotLocked (h : HwRegs) (slot : Nat) : Bool :=
  decide ((slot + 16 - h.cmdCi.toNat % 16) % 16 < (h.cmdPi - h.cmdCi).toNat)

def winViol (s : State) : State := (s.modHw (fun h => { h with winViol := true })).raise irqErr

/-- A host write of one window byte (R290, R299). -/
def writeWinByte (a : Nat) (b : Byte) (s : State) : State :=
  if a < rspBase then
    if slotLocked s.hw (a / 64) then winViol s else s.modMb (fun m => { m with win := memPut 0 m.win a b })
  else if bulkBase ≤ a ∧ a < 0x3000 then
    match s.mb.bulk with
    | .free | .filling => s.modMb (fun m => { m with win := memPut 0 m.win a b, bulk := .filling, fillAt := s.time.ticks })
    | .claimed _ | .answered _ => winViol s
  else s

def writeWin : Nat → List Byte → State → State
  | _, [], s => s
  | a, b :: bs, s => writeWin (a + 1) bs (writeWinByte a b s)

/-- n window bytes; addresses outside the map read 0 (R283). -/
def winBytes (s : State) (a n : Nat) : List Byte := memSlice 0 s.mb.win a n

/-- The host snapshot image (R81, R289); beyond 0x0BFF zeros (R283). -/
def coldBytes (s : State) (a n : Nat) : List Byte :=
  match s.energy.hostLatch.image with
  | some v => sliceAt (imageBytes v) a n
  | none => List.replicate n 0

end Sys2Proof.Machine
end

