-- ==== Sys2Proof/Machine/AuxOps.lean ====
section
/-! DEFINITION. The aux converter: power of PD_AUX (R365), the order of conversions and calibrations (R357 to R361), results
and window comparators (R362, R363), and the KETTLE reading that the Firn store tests (R174). -/

namespace Sys2Proof.Machine

def kettleIn : Fin 16 := 11
def crevasseIn : Fin 16 := 12
def dieTempIn : Fin 16 := 8

/-- The code of 4.6 V (R355). -/
def kettleReady : Nat := 30147

/-- Rank of a source of injected conversions (R358). -/
def convRank : ConvSource → Nat
  | .firn => 0 | .housekeeping => 1 | .sequence => 2 | .inject _ => 3 | .regular => 4

/-- PD_AUX is wanted (R365). -/
def auxWanted (s : State) : Bool :=
  !s.aux.regular.isEmpty || !s.aux.injected.isEmpty || s.s0.toList.any (fun i => i.en) || decide (s.disp.mode ≠ 0) ||
    s.firn.reqs.any (fun r => decide (r.stage = .ask) || decide (r.stage = .kwait) || r.deferred) ||
    s.aux.pending.any (fun c => match c.src with | .inject _ => true | .firn => true | _ => false)

/-- The pending conversion that starts next: the highest rank, in order of request. -/
def nextConv (l : List Conv) : Option Conv :=
  (List.range 4).findSome? (fun k => l.find? (fun c => convRank c.src == k))

/-- A pending injected conversion starts; the lower ranks that wait behind it are counted once (R358). -/
def startConv (c : Conv) (a : Aux) : Aux :=
  let rest := a.pending.erase c
  let behind := fun (d : Conv) => decide (convRank c.src < convRank d.src) && !d.waited
  { a with running := some c, pending := rest.map (fun d => if behind d then { d with waited := true } else d),
           injWaits := satAdd a.injWaits (rest.filter behind).length }

/-- A self-calibration starts on a tick (R360). -/
def startCal (now : Nat) (a : Aux) : Aux :=
  { a with cal := true, calDue := false, cals := satAdd a.cals 1, calTick := now,
           calTemp := (a.inputs[dieTempIn]).tick.map (fun _ => (a.inputs[dieTempIn]).result.toInt) }

/-- A change of mode takes effect between conversions and is followed by a calibration (R356, R360). -/
def takeMode (a : Aux) : Aux :=
  match a.lowPowerPend with
  | some m => { a with lowPower := m, lowPowerPend := none, calDue := a.calDue || decide (m ≠ a.lowPower) }
  | none => a

/-- At a conversion boundary on a tick the converter takes the next conversion or a due calibration (R358, R361); `regular` is false
while the regular sequence is suspended (LEAN, R408). -/
def auxNext (now : Nat) (regular : Bool) (a : Aux) : Aux :=
  if !a.powered || a.running.isSome || a.cal then a
  else
    let a := takeMode a
    match nextConv a.pending with
    | some c => startConv c a
    | none =>
      if a.calDue then startCal now a
      else if regular then
        match a.passLeft with
        | i :: rest => { a with passLeft := rest, running := some { src := .regular, input := Fin.ofNat 16 i.toNat, late := false, waited := false } }
        | [] =>
          if a.passPend then
            match a.regular with
            | i :: rest => { a with passPend := false, passLeft := rest,
                                    running := some { src := .regular, input := Fin.ofNat 16 i.toNat, late := false, waited := false } }
            | [] => { a with passPend := false }
          else a
      else a

/-- PD_AUX powers up in normal mode and its calibration runs first (R361). -/
def auxPowerUp (now : Nat) (a : Aux) : Aux :=
  if a.powered then a else startCal now { a with powered := true, ready := false, lowPower := a.lowPowerPend.getD a.lowPower, lowPowerPend := none }

/-- DIE_TEMP has moved by more than 5 °C, in 2^-7 °C, since the last calibration: one falls due (R360). A calibration before the first reading
counts from that reading. -/
def tempMoved (code : BitVec 16) (a : Aux) : Aux :=
  match a.calTemp with
  | some t => { a with calDue := a.calDue || decide (640 < (code.toInt - t).natAbs) }
  | none => { a with calTemp := some code.toInt }

/-- A calibration is 60 s old (R360). -/
def calOld (now : Nat) (a : Aux) : Bool := decide (a.calTick + 60 * 32000 ≤ now)

/-- PD_AUX powers down: nothing stays pending (R365). -/
def auxPowerDown (a : Aux) : Aux :=
  { a with powered := false, ready := false, cal := false, calDue := false, running := none, pending := [], passLeft := [], passPend := false }

/-- The power of PD_AUX follows R365: down only once the conversion in progress has ended. Requests wait while AUXDN is stalled (R400). -/
def auxSync (s : State) : State :=
  if !s.coreOn then s
  else if auxWanted s then s.modAux (fun a => if s.stalled 10 then auxPowerUp s.time.ticks a else auxNext s.time.ticks (decide (s.power.state = .run)) (auxPowerUp s.time.ticks a))
  else if s.aux.running.isNone then s.modAux auxPowerDown
  else s

/-- An injected conversion is requested (R358); one that finds a calibration running, or the domain off, is LATE (R361). -/
def injectConv (src : ConvSource) (input : Fin 16) (s : State) : State :=
  let late := s.aux.cal || !s.aux.powered
  auxSync (s.modAux (fun a =>
    let a := auxPowerUp s.time.ticks a
    { a with pending := a.pending ++ [{ src := src, input := input, late := late, waited := false }] }))

/-- The comparator on a result (R363): the new state (`none` inside, `some` above or below) and whether it is an exit. -/
def windowTest (i : AuxInput) (code : Nat) : Option Bool × Bool :=
  if code < i.low.toNat then (some false, decide (i.outside ≠ some false))
  else if i.high.toNat < code then (some true, decide (i.outside ≠ some true))
  else (none, false)

/-- A result of an input: value, stamp and age, comparator; true on an exit (R362, R363). -/
def takeResult (code : BitVec 16) (t : Stamp) (tick : Nat) (i : AuxInput) : AuxInput × Bool :=
  let i := { i with result := code, stamp := t, tick := some tick }
  if !i.en then (i, false)
  else
    let w := windowTest i code.toNat
    ({ i with outside := w.1, flag := i.flag || w.2 }, w.2)

/-- The latest KETTLE reading is at most 1 ms old (R174); Kettle checks wait while AUXUP is stalled (R400). -/
def kettleFresh (s : State) : Bool :=
  match (s.aux.inputs[kettleIn]).tick with
  | some k => decide (s.time.ticks ≤ k + 32) && !s.stalled 9
  | none => false

/-- The latest KETTLE reading is at or above 4.6 V (R174, R355). -/
def kettleOk (s : State) : Bool := decide (kettleReady ≤ (s.aux.inputs[kettleIn]).result.toNat)

/-- AUX_STAT (R364). -/
def auxStat (a : Aux) : Nat :=
  (if !a.powered then 0 else if a.lowPower then 2 else 1) + 4 * bitN a.cal + 8 * bitN a.lateSeen + 256 * a.injWaits.toNat +
    2 ^ 16 * a.regLate.toNat + 2 ^ 24 * a.cals.toNat

/-- The conversion time of a mode in µs (R356). -/
def convTime (low : Bool) : Nat := if low then 100 else 1

end Sys2Proof.Machine
end

