-- ==== Sys2Proof/Machine/ClockOps.lean ====
section
/-! DEFINITION. The legal and service clocks: trim, slew, writes, weekdays, alarms, billing boundaries, the calendar, and
the clock registers as read (R192 to R223). -/

namespace Sys2Proof.Machine

/-! ### Registers -/

def clkTcEn (w : Word) : Bool := bitB w.toNat 0
def clkTcSrc (w : Word) : Bool := bitB w.toNat 1
def clkTcAux (w : Word) : Nat := bitsN w.toNat 4 2
def clkTestSel (w : Word) : Nat := bitsN w.toNat 6 5
def clkChgEn (w : Word) : Bool := bitB w.toNat 7
def clkChgStop (w : Word) : Nat := 2400 + 100 * bitsN w.toNat 15 12

def clkCfgOk (w : Nat) : Bool :=
  decide (w < 65536) && decide (1 ≤ bitsN w 11 8) && decide (bitsN w 11 8 ≤ 9) && decide (bitsN w 15 12 ≤ 12)

def slewRateOf (w : Word) : Nat := bitsN w.toNat 5 0
def slewLimitOf (w : Word) : Nat := bitsN w.toNat 19 8

/-- Reserved bits of SLEW_CFG (R9, R214). -/
def slewCfgRsv (w : Nat) : Bool := bitsN w 7 6 != 0 || decide (2 ^ 20 ≤ w)

def slewCfgOk (w : Nat) : Bool :=
  decide (bitsN w 5 0 ≤ 32) && decide (1 ≤ bitsN w 19 8) && decide (bitsN w 19 8 ≤ 3600) && !slewCfgRsv w

def billCfgOk (w : Nat) : Bool := decide (w ≤ 5)

/-- The billing period in seconds (R221). -/
def billPeriod (w : Word) : Nat := [60, 300, 600, 900, 1800, 3600].getD w.toNat 900

/-- LTRIM as a signed number (R197). -/
def ltrimOf (w : Word) : Int := sgnBits 16 w.toNat

/-- T of the service clock before the clamp (R197). -/
def serviceTrimRaw (k : Clocks) : Int := ltrimOf k.ltrim + k.ctheta

def serviceTrim (k : Clocks) : Int := clampInt (-512) 512 (serviceTrimRaw k)

/-- SLEW_HOLD (R217). -/
def slewHold (s : State) : Bool :=
  decide (s.time.mode ≠ .lock) || !s.time.valid || s.clk.legalInvalid || !s.coreOn

/-- No slew event is applied (R217); the pull after a step does not cancel the slew of its ring second (R219). -/
def slewStopped (s : State) : Bool :=
  (decide (s.time.mode ≠ .lock) && !s.time.stepPull) || !s.time.valid || s.clk.legalInvalid || !s.coreOn

/-- CLK_STAT[15:0] (R205). -/
def clkStatLow (s : State) : Nat :=
  let k := s.clk
  bitN k.oscStopped + 2 * bitN k.legalInvalid + 4 * bitN k.slewing + 8 * bitN k.legalFar + 16 * bitN (slewHold s) +
    32 * bitN k.tcFallback + 64 * bitN k.tcClamp + 128 * bitN k.vbakLow + 256 * bitN k.chgOn + 512 * bitN k.bndMissed

/-- What a clock read would latch now: the clocks as the latest crystal tick left them (R193). -/
def clkImage (s : State) : ClkImage :=
  { legal := s.clk.legal.count, lwday := s.clk.legal.wday, service := s.clk.service.count, swday := s.clk.service.wday, stat := clkStatLow s,
    time := if s.time.mode = .free then none else some (s.stampAt s.clk.lfNs) }

/-- The signal on LCK_OUT: a level, or the raw crystal, whose edges are no state of the model. -/
inductive LckOut where
  | level (high : Bool)
  | crystal
  deriving DecidableEq, Repr

/-- LCK_OUT (R198). -/
def lckOut (k : Clocks) : LckOut :=
  match clkTestSel k.cfg with
  | 0 => .level false
  | 1 => .level (!k.legal.count.getLsbD 14)
  | 2 => .level (!k.service.count.getLsbD 14)
  | _ => .crystal

/-! ### One tick -/

/-- The trim accumulator: true when an add or skip falls due (R196). -/
def trimStep (acc : BitVec 20) (t : Int) : BitVec 20 × Bool :=
  (acc + BitVec.ofNat 20 t.natAbs, decide (2 ^ 20 ≤ acc.toNat + t.natAbs))

/-- Seconds field of a count. -/
def secondsOf (c : BitVec 48) : Nat := c.toNat / 32768

/-- The seconds field passes a multiple of m between two counts (R209, R221). -/
def passes (m : Nat) (old new : BitVec 48) : Bool := decide (secondsOf old / m < secondsOf new / m)

/-- How many of the n slew events of a ring second fall due before its tick k: they lie in the middles of n equal parts of 32,768 ticks (R215;
where in its part an event lies is a DESIGN CHOICE, assumption log row 77). -/
def slewBefore (n k : Nat) : Nat := (2 * min k 32768 * n + 32768) / 65536

/-- A slew event falls due on tick k of a ring second with n events (R215). -/
def slewDue (n k : Nat) : Bool := decide (slewBefore n k < slewBefore n (k + 1))

/-- A clock write on its tick: the count, and whether it lands now. -/
def landing (c : RtClock) : Option (BitVec 48 × Option (BitVec 3)) :=
  match c.write with
  | some (sec, wd, 0) => some (BitVec.ofNat 48 (sec.toNat * 32768), wd)
  | _ => none

def writeWait (c : RtClock) : Option (BitVec 33 × Option (BitVec 3) × Nat) :=
  match c.write with
  | some (_, _, 0) => none
  | some (sec, wd, n + 1) => some (sec, wd, n)
  | none => none

/-- One clock on one tick: `adj` is the net of adds and skips (R194, R196, R216). -/
def RtClock.tick (c : RtClock) (acc : BitVec 20) (adj : Int) : RtClock :=
  match landing c with
  | some (n, wd) => { c with count := n, wday := wd.getD c.wday, trimAcc := acc, write := writeWait c, wdayDue := false }
  | none =>
    let n := c.count + BitVec.ofInt 48 (1 + adj)
    { c with count := n, trimAcc := acc, write := writeWait c, wdayDue := passes 86400 c.count n }

/-- An alarm on one tick of its clock (R207, R208): which firing falls due. -/
def Alarm.tick (a : Alarm) (new : BitVec 48) (written : Bool) : Alarm :=
  if a.arm && (a.late || decide (a.time.toNat ≤ new.toNat)) then
    { a with due := true, dueSkip := a.late || written, late := false }
  else a

/-- The alarm fires (R207). -/
def Alarm.fire (a : Alarm) : Alarm :=
  { a with arm := false, fired := true, skipped := a.skipped || a.dueSkip, due := false, dueSkip := false }

/-- ALMn_CTL as read (R206). -/
def Alarm.ctl (a : Alarm) : Nat := bitN a.arm + 2 * bitN a.fired + 4 * bitN a.skipped + 8 * bitN a.wake

/-- The weekday after 6 is 0 (R209). -/
def nextWday (w : BitVec 3) : BitVec 3 := if w = 6 then 0 else w + 1

/-- The signs of a trim and a slew event on one tick (R216): the net adjustment, and whether the slew waits. -/
def mixSlew (trim slew : Int) : Int × Bool :=
  if trim ≠ 0 ∧ slew ≠ 0 ∧ trim = slew then (trim, true) else (trim + slew, false)

/-- The legal clock's slew and trim on one tick (R216, R217): adjustment, and the slew bookkeeping. An event that waits keeps its sign. -/
def legalAdjust (hold : Bool) (trim : Int) (k : Clocks) : Int × Clocks :=
  let slew : Int := if hold then 0
    else if k.slewHeld ≠ 0 then k.slewHeld
    else if slewDue k.slewTotal k.slewTick then (if k.slewPos then 1 else -1) else 0
  let m := mixSlew trim slew
  (m.1, { k with slewHeld := if m.2 then slew else 0, slewTick := k.slewTick + 1 })

/-- The flags that a tick adds to the open interval (R223). -/
def billTickFlags (k : Clocks) : BitVec 16 :=
  BitVec.ofNat 16 (2 * bitN k.slewing + 16 * bitN k.oscStopped + 64 * bitN k.legalFar)

/-- The open interval closes at a count with the image just taken; a boundary not yet copied is spanned (R223). -/
def closeInterval (stop next : BitVec 48) (t : Stamp) (extra : BitVec 16) (k : Clocks) : Clocks :=
  let flags := k.billFlags ||| extra
  if !k.billIsOpen then
    { k with billIsOpen := true, billStart := next, billSeq := 0, billFlags := billTickFlags k &&& 0x50, billExtra := 0,
             billCfg := k.billCfgW }
  else
    match k.boundary with
    | none =>
      { k with boundary := some { stop := stop, next := next, time := t, flags := flags, spans := 1 },
               billFlags := billTickFlags k &&& 0x50,
               billCfg := k.billCfgW }
    | some b =>
      { k with boundary := some { stop := stop, next := next, time := t, flags := b.flags ||| flags ||| 0x20,
                                  spans := b.spans + 1 },
               billFlags := billTickFlags k &&& 0x50, bndMissed := true, billCfg := k.billCfgW }

/-- A snapshot into the MP latch (R80, R222). -/
def snapMp (s : State) : State :=
  { s with energy := { s.energy with mpLatch := { image := some s.totalsImage, seq := s.energy.mpLatch.seq + 1 } } }

/-- A boundary on the legal clock: a snapshot into the MP latch, and the interval closes (R222, R223). The core takes it
only while powered and not frozen. -/
def takeBoundary (stop next : BitVec 48) (extra : BitVec 16) (s : State) : State :=
  if s.coreOn && s.hw.loaded then
    let s := snapMp s
    s.modClk (closeInterval stop next (s.stampAt s.clk.lfNs) extra)
  else s

/-- A boundary at least 900 s after the legal strip's last redraw makes another one due (R392). -/
def noteStrip (count : BitVec 48) (d : Display) : Display :=
  let far := match d.lastRedraw with | some r => decide (r.toNat + 900 * 32768 ≤ count.toNat) | none => true
  { d with stripDue := d.stripDue || (decide (d.legalMask ≠ 0) && far) }

/-- What an earlier tick left due is done before the next one: alarms, weekdays, a boundary. -/
def doAlarm (n : Fin 4) (s : State) : State :=
  let a := s.clk.alarms[n]
  if a.due then
    let s := (s.modClk (fun k => { k with alarms := vmod k.alarms n Alarm.fire })).raise irqClock
    if a.wake && decide (s.power.state = .hold) then s.modPower (fun p => { p with pwrWake := true }) else s
  else s

def doWeekday (legal : Bool) (s : State) : State :=
  s.modClk (fun k =>
    if legal then { k with legal := if k.legal.wdayDue then { k.legal with wday := nextWday k.legal.wday, wdayDue := false } else k.legal }
    else { k with service := if k.service.wdayDue then { k.service with wday := nextWday k.service.wday, wdayDue := false } else k.service })

def doBoundary (s : State) : State :=
  if s.clk.boundaryDue then
    (takeBoundary s.clk.legal.count s.clk.legal.count 0 (s.modClk (fun k => { k with boundaryDue := false }))).modDisp (noteStrip s.clk.legal.count)
  else s

/-! ### Compensation (R199, R200) -/

/-- C(θ) of the curve at θ in 2^-6 °C, by linear interpolation to the nearest step (R199). -/
def compensation (points : List Int) (theta : Int) : Int :=
  if points.length ≠ 32 then 0
  else if theta ≤ -2560 then points.headD 0
  else if 7360 ≤ theta then points.getLastD 0
  else
    let d := (theta + 2560).toNat
    let i := d / 320
    let a := points.getD i 0
    let b := points.getD (i + 1) 0
    roundDiv (a * 320 + (b - a) * (d % 320 : Nat)) 320

/-- Signed 16-bit points of a page. -/
def points16 (bs : List Byte) : List Int := (List.range (bs.length / 2)).map (fun i => sgnBits 16 (leAt bs (2 * i) 2))

/-- The temperature that the compensation uses: the PD_AO sensor's, or TC_TEMP (R200). -/
def tcTheta (theta : Int) (k : Clocks) : Int := if clkTcSrc k.cfg && !k.tcFallback then k.tcTemp.toInt else theta

/-- C(θ) (R199): 0 with TC_EN = 0 or with TCOMP lost. The update that was due is done. -/
def updateTheta (theta : Int) (k : Clocks) : Clocks :=
  { k with ctheta := if clkTcEn k.cfg then compensation (points16 k.tcomp) (tcTheta theta k) else 0, tcDue := false }

/-- An update that no TC_UPDATE has brought: the device reads its sensor, or TC_TEMP (R199). -/
def doTheta (s : State) : State :=
  if s.clk.tcDue then let d := s.draw; d.2.modClk (updateTheta (Config.sensorTheta d.1)) else s

def settleTick (s : State) : State :=
  doTheta (doBoundary (doWeekday false (doWeekday true (s.forEach (fins 4) doAlarm))))

/-- Ticks without a write of TC_TEMP after which the device falls back on its own sensor: 16 s (R200). -/
def tcLimit : Nat := 524288

/-- The compensation's timing on one crystal tick: an update every 2^18 ticks (R199), and the age of TC_TEMP (R200). -/
def tcTick (k : Clocks) : Clocks :=
  let old := decide (tcLimit ≤ k.tcAge)
  { k with tcTicks := (k.tcTicks + 1) % 2 ^ 18, tcDue := decide (k.tcTicks + 1 = 2 ^ 18), tcAge := min (k.tcAge + 1) tcLimit,
           tcFallback := k.tcFallback || (clkTcSrc k.cfg && old) }

/-- The clocks on one crystal tick (R196, R207, R215, R216, R221). -/
def tickClocks (hold : Bool) (k : Clocks) : Clocks :=
  let lt := trimStep k.legal.trimAcc (ltrimOf k.ltrim)
  let sv := trimStep k.service.trimAcc (serviceTrim k)
  let sgn : Int → Bool → Int := fun t due => if due then (if t < 0 then -1 else 1) else 0
  let la := legalAdjust hold (sgn (ltrimOf k.ltrim) lt.2) k
  let k := tcTick la.2
  let oldL := k.legal.count
  let wL := (landing k.legal).isSome
  let wS := (landing k.service).isSome
  let legal := k.legal.tick lt.1 la.1
  let service := k.service.tick sv.1 (sgn (serviceTrim k) sv.2)
  { k with
      legal := legal, service := service,
      tcClamp := k.tcClamp || decide (serviceTrim k ≠ serviceTrimRaw k),
      alarms := Vector.ofFn (fun i => if i.val < 2 then k.alarms[i].tick legal.count wL else k.alarms[i].tick service.count wS),
      boundaryDue := !wL && passes (billPeriod k.billCfg) oldL legal.count,
      billFlags := k.billFlags ||| billTickFlags k }

/-- PD_AO goes back to VSUP on the tick after VSUP has become valid (R201). -/
def takeVsup (p : Power) : Power := if p.vsupDue then { p with supply := .vsup, vsupDue := false } else p

/-- A crystal tick (R196): what the last tick left due is done, both clocks move, and a legal-time set that lands closes the
billing interval, its flags cleared first for the interval that opens (R220, R223). -/
def crystal (s : State) : State :=
  let s := settleTick s
  let oldL := s.clk.legal.count
  let lands := (landing s.clk.legal).isSome
  let hold := slewStopped s
  let at_ := s.nowNs + Config.tickPhase s.time.ticks s.clk.service.count.toNat % 31250
  let s := (s.modClk (fun k => { tickClocks hold k with lfNs := at_ })).modPower takeVsup
  if lands then
    let inv := s.clk.legalInvalid
    takeBoundary oldL s.clk.legal.count (if inv then 5 else 1) (s.modClk (fun k => { k with legalInvalid := false, legalFar := false }))
  else s

/-! ### Following ring time -/

/-- The target of R212 at an instant of ring time. -/
def legalTarget (base : BitVec 64) (ns : Nat) : Int :=
  (((ns / 1000000000 : Nat) : Int) - base.toInt) * 32768 + ((ns % 1000000000 * 32768 / 1000000000 : Nat) : Int)

/-- LCLK_OFS at a sample (R213). -/
def legalOffset (k : Clocks) (ns : Nat) : Int :=
  clampInt (-2147483647) 2147483647 (legalTarget k.base ns - k.legal.count.toNat)

/-- The sample of R213 and the slew of the next ring second (R215, R218, R219). In the second of a step the sample is discarded, and the slew in
force goes on until all its events are applied, also where the step has cut its second short. -/
def sampleOffset (hold : Bool) (ns : Nat) (k : Clocks) : Clocks :=
  if k.skipSample then
    { k with skipSample := false, slewing := k.slewing && decide (slewBefore k.slewTotal k.slewTick < k.slewTotal) }
  else
    let o := legalOffset k ns
    let far := decide (slewLimitOf k.slewCfg * 32768 < o.natAbs)
    let n := if hold || far || decide (o.natAbs ≤ 1) then 0 else min o.natAbs (slewRateOf k.slewCfg)
    { k with ofs := BitVec.ofInt 32 o, legalFar := far, slewTotal := n, slewTick := 0,
             slewPos := decide (0 < o), slewing := decide (n ≠ 0),
             slewSeconds := satAdd k.slewSeconds (if n = 0 then 0 else 1) }

/-! ### The thermistor (R200) -/

/-- The thermistor table as (code, temperature) pairs (R200). -/
def tablePoints (bs : List Byte) : List (Nat × Int) :=
  (List.range (bs.length / 4)).map (fun i => (leAt bs (4 * i) 2, sgnBits 16 (leAt bs (4 * i + 2) 2)))

def risingCodes : List (Nat × Int) → Bool
  | a :: b :: l => decide (a.1 < b.1) && risingCodes (b :: l)
  | _ => true

/-- The temperature of a code, linear between neighbours, the end points' beyond them (R200), 2^-6 °C. -/
def thermistor : List (Nat × Int) → Nat → Int
  | [], _ => 0
  | [a], _ => a.2
  | a :: b :: l, x =>
    if x ≤ a.1 then a.2
    else if x ≤ b.1 then a.2 + roundDiv ((b.2 - a.2) * ((x - a.1 : Nat) : Int)) (b.1 - a.1)
    else thermistor (b :: l) x

/-! ### Calendar (R210, R211) -/

def maxSeconds : Nat := 6311433599

def isLeap (y : Nat) : Bool := decide (y % 4 = 0) && decide (y ≠ 2100)

def monthLen (y m : Nat) : Nat :=
  match m with
  | 2 => if isLeap y then 29 else 28
  | 4 => 30 | 6 => 30 | 9 => 30 | 11 => 30
  | _ => 31

/-- Days from 2000-01-01 to the first of January of y. -/
def daysToYear (y : Nat) : Nat := 365 * (y - 2000) + (y - 2000 + 3) / 4 - (if 2100 < y then 1 else 0)

def daysToMonth (y m : Nat) : Nat := ((List.range (m - 1)).map (fun k => monthLen y (k + 1))).sum

/-- The checks of R211 on a record; none when it is a date that exists. -/
inductive DateFault where
  | range
  | badDate
  deriving DecidableEq, Repr

def dateFault (bs : List Byte) : Option DateFault :=
  let y := leAt bs 0 2
  let m := leAt bs 2 1
  let d := leAt bs 3 1
  if y < 2000 ∨ 2199 < y then some .range
  else if m < 1 ∨ 12 < m ∨ d < 1 ∨ monthLen y m < d ∨ 23 < leAt bs 4 1 ∨ 59 < leAt bs 5 1 ∨ 59 < leAt bs 6 1 then some .badDate
  else none

/-- The seconds field of a calendar record (R210). -/
def dateSeconds (bs : List Byte) : Nat :=
  let y := leAt bs 0 2
  (daysToYear y + daysToMonth y (leAt bs 2 1) + leAt bs 3 1 - 1) * 86400 + leAt bs 4 1 * 3600 + leAt bs 5 1 * 60 + leAt bs 6 1

/-- The calendar record of a seconds field (R210); zeros beyond the calendar. -/
def dateBytes (sec : Nat) : List Byte :=
  if maxSeconds < sec then leBytes 8 0
  else
    let day := sec / 86400
    let y := 2000 + ((List.range 200).filter (fun k => decide (daysToYear (2000 + k) ≤ day))).length - 1
    let rest := day - daysToYear y
    let m := ((List.range 12).filter (fun k => decide (daysToMonth y (k + 1) ≤ rest))).length
    leBytes 2 y ++ leBytes 1 m ++ leBytes 1 (rest - daysToMonth y m + 1) ++ leBytes 1 (sec % 86400 / 3600) ++
      leBytes 1 (sec % 3600 / 60) ++ leBytes 1 (sec % 60) ++ leBytes 1 0

/-! ### Charger (R203) -/

/-- The charger starts: with VBAK below the stop level at once, otherwise it waits (R203). -/
def chargerStart (cfg : Word) (mv : Nat) : Bool := clkChgEn cfg && decide (mv < clkChgStop cfg)

/-- The charger's comparator at a VBAK level in mV. -/
def chargerAt (on : Bool) (cfg : Word) (mv : Nat) : Bool :=
  if !clkChgEn cfg then false
  else if clkChgStop cfg ≤ mv then false
  else if mv + 50 ≤ clkChgStop cfg then true
  else on

/-! ### Billing records (R223) -/

/-- The 40 bytes of an interval record. -/
def billBytes (r : BillRec) : List Byte :=
  leBytes 4 r.seq.toNat ++ leBytes 2 r.flags.toNat ++ leBytes 2 0 ++ leBytes 6 r.start.toNat ++ leBytes 6 r.stop.toNat ++
    r.time.bytes ++ leBytes 4 r.snap.toNat ++ leBytes 4 0

/-- The MP forms the record of a closed interval from the boundary image in its latch (R223). -/
def formRecord (s : State) : State :=
  match s.clk.boundary with
  | none => s
  | some b =>
    let rec_ : BillRec :=
      { seq := s.clk.billSeq, flags := b.flags, start := s.clk.billStart, stop := b.stop, time := b.time,
        snap := s.energy.mpLatch.seq, image := s.energy.mpLatch.image.getD (Vector.replicate 24 .zero) }
    s.modClk (fun k => { k with
      records := (rec_ :: k.records).take 4, boundary := none,
      billSeq := k.billSeq + BitVec.ofNat 32 (b.spans + k.billExtra), billExtra := 0, billStart := b.next })

end Sys2Proof.Machine
end

