-- ==== Sys2Proof/Machine/Spectrum.lean ====
section
/-! DEFINITION. Spectra of power-quality windows: resampling and transform (R102), front-end correction (R103), harmonic and interharmonic
groups and phases (R102, R104), distortion (R105), harmonic power (R106) and unbalance (R100). -/

namespace Sys2Proof.Machine

/-- Full scale in nV (R17, R94). -/
def fsNv : Rat := 500000000

/-! ### Bins -/

def Bin.add (a b : Bin) : Bin := { re := a.re + b.re, im := a.im + b.im }

def Bin.neg (a : Bin) : Bin := { re := -a.re, im := -a.im }

def Bin.mul (a b : Bin) : Bin := { re := a.re * b.re - a.im * b.im, im := a.re * b.im + a.im * b.re }

/-- Squared magnitude. -/
def Bin.sq (a : Bin) : Rat := a.re * a.re + a.im * a.im

/-- Bin k of the discrete Fourier transform of a list, divided by its length. -/
def dftBin (k : Nat) (xs : List Rat) : Bin :=
  let n := xs.length
  let sum := xs.foldl (fun (a : Nat × Bin) x =>
    let t := mkRat ((k * a.1 % n : Nat) : Int) n
    (a.1 + 1, { re := a.2.re + x * cosTurn t, im := a.2.im - x * sinTurn t })) (0, { re := 0, im := 0 })
  { re := sum.2.re / n, im := sum.2.im / n }

/-- Y(k)², the squared rms magnitude of a bin: twice the squared bin but for DC (R102). -/
def rmsSq (k : Nat) (b : Bin) : Rat := if k = 0 then b.sq else 2 * b.sq

/-! ### The transform of a window -/

/-- The value of the samples at a position, counted from the first one: the sample at a whole position, else a value of the device's resampling
filter, which the spec does not give (R102). -/
def sampleAt (xs : List Rat) (p : Rat) : Rat := if p.den = 1 ∧ 0 ≤ p then xs.getD p.num.toNat 0 else Config.resampled p xs

/-- The 4,096 points of a window, evenly spaced from its start to its end; `first` is where its first sample lies after its start. -/
def resample (first len : Rat) (xs : List Rat) : List Rat :=
  (List.range 4096).map (fun m => sampleAt xs (len * m / 4096 - first))

/-- Length of a window in samples (R96). -/
def WinClosed.span (w : WinClosed) : Rat := mkRat ((w.stop : Int) - w.start) 1024

/-- The points of a channel's samples, newest first, in a window. -/
def winPoints (w : WinClosed) (xs : List Rat) : List Rat :=
  resample (mkRat (((w.start + 1023) / 1024 * 1024 : Nat) - (w.start : Int)) 1024) w.span xs.reverse

/-- Bin k corrected for a first-order front end of CORNER × 10 Hz, at the bin's frequency (R103): times 1 + j f/fc. -/
def feCorrect (fe : Word) (span : Rat) (k : Nat) (b : Bin) : Bin :=
  if fe.toNat % 65536 = 0 ∨ k = 0 then b
  else b.mul { re := 1, im := k * 32000 / span / (10 * (fe.toNat % 65536) : Nat) }

/-- The bins of a channel in a window, corrected for its front end (R102, R103). -/
def winBin (w : WinClosed) (fe : Word) (xs : List Rat) (k : Nat) : Bin := feCorrect fe w.span k (dftBin k (winPoints w xs))

/-! ### Groups (R102) -/

/-- Cycles in a window (R96). -/
def winCycles (w : Word) : Nat := if vsNomf w then 12 else 10

/-- The bin at which order h lies: hN, or in an UNSYNC window the one nearest to its nominal frequency (R96, R102). -/
def orderBin (cfg : Word) (w : WinClosed) (h : Nat) : Nat :=
  if w.status.getLsbD 1 then (roundRat ((h * (if vsNomf cfg then 60 else 50) : Nat) * w.span / 32000)).toNat else h * winCycles cfg

/-- Sum of Y² over the bins c + lo to c + hi. -/
def bandSq (y : Nat → Rat) (c : Int) (lo hi : Int) : Rat :=
  sumRats ((List.range (hi + 1 - lo).toNat).map (fun i => y (c + lo + i).toNat))

/-- G(h)², SG(h)², IG(h)² and IC(h)² about centre bin c (R102). -/
def groupsSq (n : Nat) (y : Nat → Rat) (h c : Nat) : List Rat :=
  [ if h = 0 then y 0 else y (c - n / 2) / 2 + bandSq y c (1 - (n / 2 : Nat)) ((n / 2 : Nat) - 1) + y (c + n / 2) / 2,
    if h = 0 then y 0 else bandSq y c (-1) 1,
    bandSq y c 1 (n - 1),
    bandSq y c 2 (n - 2) ]

/-- A squared magnitude in full-scale units as whole nV (R94). -/
def nvOf (sq : Rat) : Int := roundRat (sqrtRat (sq * (fsNv * fsNv)))

/-- The four groups of orders 0 to 127 in nV, order by order (R104). -/
def harmWords (cfg : Word) (w : WinClosed) (bin : Nat → Bin) : List Int :=
  (List.range 128).flatMap (fun h => (groupsSq (winCycles cfg) (fun k => rmsSq k (bin k)) h (orderBin cfg w h)).map nvOf)

/-- G(h) of a channel's harmonic words. -/
def orderGroup (words : List Int) (h : Nat) : Nat := (words.getD (4 * h) 0).toNat

/-! ### Phase (R104) -/

/-- The quarter turn in which a bin's phase lies. -/
def quarterOf (b : Bin) : Nat :=
  if 0 < b.re ∧ 0 ≤ b.im then 0 else if b.re ≤ 0 ∧ 0 < b.im then 1 else if b.re < 0 ∧ b.im ≤ 0 then 2 else 3

/-- Bits of a phase within its quarter turn, in 2^-24 turn: each is set where the phase reaches it. -/
def phaseBits (b : Bin) : Nat → Nat → Nat
  | 0, acc => acc
  | k + 1, acc =>
    let c := acc + 2 ^ k
    phaseBits b k (if 0 ≤ b.im * cosTurn (mkRat c (2 ^ 24)) - b.re * sinTurn (mkRat c (2 ^ 24)) then c else acc)

/-- Phase of a bin in 2^-24 turn; 0 has none. -/
def phaseOfBin (b : Bin) : Option Nat :=
  if b.re = 0 ∧ b.im = 0 then none else some (phaseBits b 22 (quarterOf b * 2 ^ 22))

/-- PHASE: a bin's phase minus the reference's, in 2^-16 turn; where one of them has no phase, the spec gives no value (R104). -/
def phaseWord (free : Nat) (b : Bin) (ref : Option Bin) : Nat :=
  match phaseOfBin b, ref.bind phaseOfBin with
  | some a, some r => (a + 2 ^ 24 - r + 128) / 256 % 65536
  | _, _ => free % 65536

/-! ### Derived values -/

/-- 2^-16 % of a ratio of squares, at most 32 bits. -/
def percentOf (num den : Rat) : Nat := min (roundRat (sqrtRat (num / den) * 6553600)).toNat 0xFFFFFFFF

/-- The highest order in THD and TDD (R91). -/
def thdOrder (cfg : Word) : Nat :=
  match cfg.toNat / 16 % 4 with
  | 0 => 40
  | 1 => 50
  | 2 => 63
  | _ => 127

/-- Sum of G(h)² over h = 2 to H (R105). -/
def distortionSq (cfg : Word) (words : List Int) : Nat :=
  ((List.range (thdOrder cfg - 1)).map (fun i => orderGroup words (i + 2) ^ 2)).sum

/-- THD (R105): 0 below `floor`, a bound on 100 × G(1). -/
def thdOf (cfg : Word) (floor : Nat) (words : List Int) : Nat :=
  let g := orderGroup words 1
  if 100 * g < floor ∨ g = 0 then 0 else percentOf (distortionSq cfg words) ((g ^ 2 : Nat) : Rat)

/-- TDD (R105): 0 without IL. -/
def tddOf (cfg il : Word) (words : List Int) : Nat :=
  if il = 0 then 0 else percentOf (distortionSq cfg words) ((il.toNat ^ 2 : Nat) : Rat)

/-- A third of a turn and its square. -/
def aTurn : Bin := { re := -1 / 2, im := sqrtRat (3 / 4) }
def aTurn2 : Bin := { re := -1 / 2, im := -sqrtRat (3 / 4) }

/-- Three times a symmetrical component of three bins, with b and c turned. -/
def symComp (a b c : Bin) (tb tc : Bin) : Bin := (a.add (b.mul tb)).add (c.mul tc)

/-- u2 and u0 in 2^-16 % from the order-1 bins of the event channels; none while the positive sequence is below 10 % of UDIN (R100). -/
def unbalance (delta : Bool) (udin : Nat) (a b c : Bin) : Option (Nat × Nat) :=
  let pos := symComp a b c aTurn aTurn2
  let neg := symComp a b c aTurn2 aTurn
  let zero := (a.add b).add c
  if rmsSq 1 pos * (fsNv * fsNv) * 100 < 9 * (udin * udin : Nat) ∨ pos.sq = 0 then none
  else some (percentOf neg.sq pos.sq, if delta then 0 else percentOf zero.sq pos.sq)

/-- Re(V × conj(I)) of order h, normalised to PFS in the format of R60 (R106). -/
def harmPower (v i : Bin) (k : Nat) : Int :=
  roundRat ((if k = 0 then 1 else 2) * (v.re * i.re + v.im * i.im) * 2 ^ 28)

/-- A mean square in nV² as NOISE or as the level of a carrier: 0.5 dB steps above 1 µV rms, to the nearest (R123, R340; the rounding is a DESIGN CHOICE, assumption log row 76). -/
def noiseLevel (p : Rat) : Nat :=
  ((List.range 255).filter (fun n => decide ((10 : Rat) ^ (2 * n + 1) ≤ (p / 1000000) ^ 40))).length

end Sys2Proof.Machine
end

