-- ==== Sys2Proof/Machine/PqOps.lean ====
section
/-! DEFINITION. The power-quality engine: reference channel and windows (R95 to R98, R464), half-cycle values and events
(R115 to R119) and transients (R117). -/

namespace Sys2Proof.Machine

/-- The status bits of R112. -/
def stFlagged : BitVec 16 := 1
def stUnsync : BitVec 16 := 2
def stRefchg : BitVec 16 := 4
def stClip : BitVec 16 := 8
def stUnaligned : BitVec 16 := 16
def stShort : BitVec 16 := 32
def stStepped : BitVec 16 := 64
def stPartial : BitVec 16 := 128

/-- The three event channels from the set's voltages (R91): star V1 to V3; delta U12, U23 = −U32, U31 = U32 − U12. -/
def eventChans (w : Word) (v : Vector Rat 4) : Vector Rat 3 :=
  if vsDelta w then #v[v[0], -v[2], v[2] - v[0]] else #v[v[0], v[1], v[2]]

/-- The channels of URMS (R113). -/
def urmsChans (w : Word) (v : Vector Rat 4) : Vector Rat 4 :=
  let e := eventChans w v
  #v[e[0], e[1], e[2], v[3]]

/-- The order of reference channels, as voltage numbers (R95). -/
def refOrder (w : Word) : List (Fin 3) := if vsDelta w then [0, 2] else [0, 1, 2]

/-- The event channel whose half-cycle value judges a reference channel: U32 has the magnitude of U23. -/
def refEventChan (w : Word) (r : Fin 3) : Fin 3 := if vsDelta w && r == 2 then 1 else r

/-- Half-cycle values per steady-state test, M of R116. -/
def rvcM (w : Word) : Nat := if vsNomf w then 120 else 100

/-- The lengths of n cycles, in 1/1024 sample, that 42.5 Hz to 69 Hz give (R96). -/
def cyclesInBand (n len : Nat) : Bool := decide (n * 32768000 ≤ 69 * len) && decide (85 * len ≤ 2 * n * 32768000)

/-- The latest full-cycle length is one that 42.5 Hz to 69 Hz give, or not known yet. -/
def cycleOk (q : PqSet) : Bool := q.cycleLen == 0 || cyclesInBand 1 q.cycleLen

/-- The cycle that R117 compares over: the latest full-cycle length in whole samples. -/
def compareLen (q : PqSet) : Nat :=
  if q.ref.isSome && cyclesInBand 1 q.cycleLen then (2 * q.cycleLen + 1024) / 2048 else if vsNomf q.cfg then 533 else 640

/-- Samples between values while unsynchronised (R98). -/
def fixedHalf (w : Word) (phase : Nat) : Nat := if vsNomf w then (if phase = 2 then 266 else 267) else 320

/-- RMS in whole nV of a sum of n squares in full-scale units. -/
def rmsNv (sq : Rat) (n : Nat) : Nat := if n = 0 then 0 else (roundRat (sqrtRat (sq / n * (fsNv * fsNv)))).toNat

def addSq3 (a : Vector Rat 3) (v : Vector Rat 3) : Vector Rat 3 := Vector.ofFn (fun k => a[k] + v[k] * v[k])

/-! ### Sample by sample -/

/-- The instant, in 1/1024 sample, at which the detector's output passes zero between the samples of tick now − 1 and now (R96). -/
def crossAt (now : Nat) (y0 y1 : Rat) : Nat :=
  if y0 < 0 then (now - 1) * 1024 + max 1 (roundRat (1024 * y0 / (y0 - y1))).toNat else now * 1024

/-- A positive-going crossing of the reference: the latest cycle (R96, R117), and the whole cycles of the 10 s interval (R101). -/
def noteCross (c : Nat) (q : PqSet) : PqSet :=
  { q with cycleLen := match q.prevCross with | some p => c - p | none => q.cycleLen,
           lastCross := some c, prevCross := some c, freqCycles := q.freqCycles + 1,
           freqFirst := if q.freqCycles = 0 then c else q.freqFirst, freqLast := c }

/-- The reference's detector: filter, positive and negative crossings (R62, R96, R98). -/
def pqDetect (now : Nat) (v : Rat) (q : PqSet) : PqSet × Option Nat × Bool :=
  let o := Config.lowpass300 (q.det.filt.a, q.det.filt.b) v
  let armed := q.det.armed || decide (o.2 < -(1 / 64))
  let negArmed := q.negArmed || decide ((1 / 64 : Rat) < o.2)
  let since := q.det.since.map (· + 1)
  let held := match since with | some n => decide (n < 416) | none => false
  let pos := armed && decide (0 ≤ o.2) && !held
  let neg := negArmed && decide (o.2 < 0)
  ({ q with det := { filt := { a := o.1.1, b := o.1.2 }, armed := armed && !pos, since := if pos then some 0 else since },
            negArmed := negArmed && !neg, detY := o.2 }, if pos then some (crossAt now q.detY o.2) else none, neg)

/-- A half period ends before this sample: the value over the last two is produced, and a new half begins (R98). -/
def closeHalf (q : PqSet) : PqSet :=
  let n := q.halfLen + q.halfPrevLen
  { q with halfVal := if q.halfPrevLen = 0 then none else some (Vector.ofFn (fun k => rmsNv (q.halfSq[k] + q.halfPrevSq[k]) n)),
           halfPrevLen := q.halfLen, halfPrevSq := q.halfSq, halfLen := 0, halfSq := Vector.replicate 3 0 }

/-- A window starts at an instant, with no sample yet. -/
def startWin (c : Nat) (q : PqSet) : PqSet :=
  { q with winStart := c, crossings := 0, winLen := 0, winV := Vector.replicate 4 [], winI := Vector.replicate 24 [], winStatus := 0 }

/-- A whole sample at or after an instant. -/
def wholeSample (c : Nat) : Nat := (c + 1023) / 1024 * 1024

/-- The window ends before this sample, at its crossing c, and the next one starts there (R96). -/
def closeSync (c : Nat) (q : PqSet) : PqSet :=
  { startWin c q with winPend := some { volts := q.winV, ports := q.winI, len := q.winLen, start := q.winStart, stop := c, status := q.winStatus } }

/-- The window ends before this sample as an UNSYNC one of whole samples, and the next one starts at `next` (R96, R464). -/
def closeUnsync (next : Nat) (q : PqSet) : PqSet :=
  let start := wholeSample q.winStart
  let w : WinClosed := { volts := q.winV, ports := q.winI, len := q.winLen, start := start, stop := start + 1024 * q.winLen,
                         status := q.winStatus ||| stUnsync }
  { startWin next q with winPend := if q.winLen = 0 then q.winPend else some w }

/-- A synchronised window that closes at c would be longer than 42.5 Hz gives. -/
def tooLong (c : Nat) (q : PqSet) : Bool := decide (2 * winCycles q.cfg * 32768000 < 85 * (c - q.winStart))

/-- Windows at a tick (R96, R464): a synchronised one closes at a crossing; whether its length stays in range is judged at each crossing and
half-cycle value; a fixed one closes after 6,400 samples, or at the first crossing of a reference whose cycles are in range. -/
def windowStep (now : Nat) (half : Bool) (pos : Option Nat) (q : PqSet) : PqSet :=
  match q.ref, pos with
  | none, _ => if !q.waitCross && decide (6400 ≤ q.winLen) then closeUnsync (now * 1024) q else q
  | some _, some c =>
    if q.waitCross then { startWin (if cycleOk q then c else now * 1024) q with waitCross := false, synced := cycleOk q }
    else if q.synced then
      if q.crossings + 1 < winCycles q.cfg && !tooLong c q then { q with crossings := q.crossings + 1 }
      else if q.crossings + 1 = winCycles q.cfg ∧ cyclesInBand (winCycles q.cfg) (c - q.winStart) then closeSync c q
      else { closeUnsync (now * 1024) q with synced := false }
    else if cycleOk q then { closeUnsync c q with synced := true }
    else if 6400 ≤ q.winLen then closeUnsync (now * 1024) q
    else q
  | some _, none =>
    if q.waitCross then q
    else if q.synced then (if half && tooLong (now * 1024) q then { closeUnsync (now * 1024) q with synced := false } else q)
    else if 6400 ≤ q.winLen then closeUnsync (now * 1024) q
    else q

/-- A transient's comparison on one channel (R117): beyond TR_TH × √2 × UDIN. -/
def transBeyond (q : PqSet) (d : Rat) : Bool :=
  decide (2 * ((evTr q.evt * q.udin.toNat : Nat) : Rat) ^ 2 < (d * fsNv * 100) ^ 2)

/-- One event channel of the transient detector at a sample (R117). -/
def transStep (now : Nat) (t : Stamp) (q : PqSet) (k : Fin 3) (x : Rat) : Option TransEvent × Bool :=
  let n := compareLen q
  match q.past[k][n - 1]? with
  | none => (q.trans[k], false)
  | some old =>
    let d := |x - old|
    let beyond := transBeyond q d
    match q.trans[k] with
    | none =>
      if beyond && evEn q.evt 4 then
        (some { start := t, startTick := now, lastTick := now, quiet := 0, extreme := d, cycle := n,
                unsync := q.ref.isNone, stepped := false }, false)
      else (none, false)
    | some e =>
      let e := { e with quiet := if beyond then 0 else e.quiet + 1, lastTick := if beyond then now else e.lastTick,
                        extreme := if beyond then max e.extreme d else e.extreme, unsync := e.unsync || q.ref.isNone }
      (some e, decide (32 ≤ e.quiet) || decide (e.startTick + e.cycle ≤ now + 1))

/-- The sample of this tick joins the half period, the window and the samples that R117 compares with; `cur` are the ports' samples. -/
def joinSet (ns : Nat) (v : Vector Rat 4) (cur : Vector Rat 24) (status : BitVec 16) (q : PqSet) : PqSet :=
  let ev := eventChans q.cfg v
  let q := { q with halfLen := q.halfLen + 1, halfSq := addSq3 q.halfSq ev, past := Vector.ofFn (fun k => (ev[k] :: q.past[k]).take 760) }
  if q.waitCross then q
  else { q with winLen := q.winLen + 1, winV := Vector.ofFn (fun j => v[j] :: q.winV[j]), winI := Vector.ofFn (fun p => cur[p] :: q.winI[p]),
                winStatus := q.winStatus ||| status, winClose := if q.firstWin && q.winLen == 0 then ns else q.winClose }

/-- Samples after which a reference without any crossing is judged anew: no half period of a voltage that R96 knows is as long
(assumption log row 26). -/
def crossLimit : Nat := 753

/-- A set at a sample tick: detector, half cycles (R98), windows, transients, sums. -/
def setTick (now ns : Nat) (t : Stamp) (v : Vector Rat 4) (cur : Vector Rat 24) (clip unaligned : Bool) (q : PqSet) : PqSet :=
  if !vsEn q.cfg || q.settle ≠ 0 then q
  else
    let ev := eventChans q.cfg v
    let d := pqDetect now (match q.ref with | some r => vget v r.val 0 | none => v[0]) q
    let q := d.1
    let pos := if q.ref.isSome then d.2.1 else none
    let cross := q.ref.isSome && (pos.isSome || d.2.2)
    let forced := q.ref.isSome && !cross && decide (crossLimit ≤ q.halfLen)
    let fixed := q.ref.isNone && decide (fixedHalf q.cfg q.halfPhase ≤ q.halfLen)
    let q := match pos with | some c => noteCross c q | none => q
    let q := if cross || forced || fixed then { closeHalf q with halfPhase := if fixed then (q.halfPhase + 1) % 3 else 0 } else q
    let q := windowStep now (cross || forced) pos q
    let tr := Vector.ofFn (fun (k : Fin 3) => transStep now t q k ev[k])
    let due := (fins 3).foldl (fun m k => if tr[k].2 then m ||| BitVec.ofNat 3 (2 ^ k.val) else m) q.transDue
    let flagged := q.dip.isSome || q.swell.isSome || q.intr.isSome
    joinSet ns v cur ((if clip then stClip else 0) ||| (if unaligned then stUnaligned else 0) ||| (if flagged then stFlagged else 0))
      { q with trans := Vector.ofFn (fun k => tr[k].1), transDue := due }

/-! ### Event records -/

/-- Value in units of 2^-14 of a base, saturating at 0xFFFF (R118); true when it saturates. -/
def unit14 (num den : Nat) : BitVec 16 × Bool :=
  let n := if den = 0 then 0 else (2 * num * 16384 + den) / (2 * den)
  if 0xFFFF < n then (0xFFFF, true) else (BitVec.ofNat 16 n, false)

/-- A signed value in units of 2^-14 × UDIN, saturating at ±0x7FFF (R118). -/
def signed14 (num : Int) (den : Nat) : BitVec 16 × Bool :=
  let n := roundDiv (num * 16384) (max den 1)
  if 0x7FFF < n.natAbs then (BitVec.ofInt 16 (if n < 0 then -0x7FFF else 0x7FFF), true) else (BitVec.ofInt 16 n, false)

/-- A finished record takes its SEQ and enters the FIFO, or is counted in EV_OVF (R119). -/
def pushEvent (r : EventRec) (s : State) : State :=
  let r := { r with seq := s.pq.evSeq, unit := BitVec.ofNat 8 s.unitByte }
  let s := s.modPq (fun p =>
    { p with
        evSeq := p.evSeq + 1, latest := (r :: p.latest).take 8,
        fifo := if p.fifo.length < 64 then p.fifo ++ [r] else p.fifo,
        evOvf := if p.fifo.length < 64 then p.evOvf else satAdd p.evOvf 1 })
  s.postEvent

def chanByte (b : Fin 2) (chans : BitVec 3) : Byte := BitVec.ofNat 8 (chans.toNat + 128 * b.val)

def flagByte (cut unsync stepped hasInt long sat : Bool) : Byte :=
  BitVec.ofNat 8 (bitN cut + 2 * bitN unsync + 4 * bitN stepped + 16 * bitN hasInt + 32 * bitN long + 64 * bitN sat)

/-- The record of a dip, swell or interruption that ends on tick `now` (R115, R118). -/
def levelRec (b : Fin 2) (typ : Nat) (udin : Nat) (now : Nat) (cut : Bool) (e : LevelEvent) : EventRec :=
  let x := unit14 e.extreme udin
  { seq := 0, typ := BitVec.ofNat 8 typ, chan := chanByte b e.chans, start := e.start,
    duration := BitVec.ofNat 32 (min (now - e.startTick) (2 ^ 32 - 1)), extreme := x.1, second := 0,
    worst := BitVec.ofNat 8 e.worst.val, flags := flagByte cut e.unsync e.stepped e.hasInt false x.2, unit := 0 }

/-- The RVC record (R116): `mean` are sum and count of the new values per channel. -/
def rvcRec (b : Fin 2) (udin : Nat) (endTick : Nat) (cut : Bool) (mean : Fin 3 → Nat × Nat) (e : RvcEvent) : EventRec :=
  let worst : Fin 3 := if e.dmax[0] < e.dmax[1] then (if e.dmax[1] < e.dmax[2] then 2 else 1)
    else (if e.dmax[0] < e.dmax[2] then 2 else 0)
  let m := e.m
  let x := unit14 e.dmax[worst] (udin * m)
  let n := mean worst
  let y := signed14 (((n.1 * m : Nat) : Int) - (e.prior[worst] * n.2 : Nat)) (udin * m * max n.2 1)
  { seq := 0, typ := 4, chan := chanByte b e.chans, start := e.start,
    duration := BitVec.ofNat 32 (min (endTick - e.startTick) (2 ^ 32 - 1)), extreme := x.1, second := y.1,
    worst := BitVec.ofNat 8 worst.val, flags := flagByte cut e.unsync e.stepped false false (x.2 || y.2), unit := 0 }

/-- EXTREME of a transient, 2^-14 × √2 × UDIN (R117). -/
def transExtreme (udin : Nat) (d : Rat) : BitVec 16 × Bool :=
  let n := (roundRat (sqrtRat ((d * fsNv) ^ 2 * 2 ^ 28 / (2 * (max udin 1 : Nat) ^ 2)))).toNat
  if 0xFFFF < n then (0xFFFF, true) else (BitVec.ofNat 16 n, false)

def transRec (b : Fin 2) (ch : Fin 3) (udin : Nat) (duration : Nat) (cut long : Bool) (e : TransEvent) : EventRec :=
  let x := transExtreme udin e.extreme
  { seq := 0, typ := 5, chan := chanByte b (BitVec.ofNat 3 (2 ^ ch.val)), start := e.start,
    duration := BitVec.ofNat 32 duration, extreme := x.1, second := 0, worst := BitVec.ofNat 8 ch.val,
    flags := flagByte cut e.unsync e.stepped false long x.2, unit := 0 }

/-- The transient on a channel ends (R117). -/
def endTransient (b : Fin 2) (ch : Fin 3) (s : State) : State :=
  let q := s.pqSets[b]
  match q.trans[ch] with
  | none => s
  | some e =>
    if q.transDue.getLsbD ch.val then
      let long := decide (e.quiet < 32)
      let dur := if long then e.cycle else e.lastTick - e.startTick + 1
      pushEvent (transRec b ch q.udin.toNat dur false long e)
        (s.modSet b (fun q => { q with trans := vmod q.trans ch (fun _ => none),
                                       transDue := q.transDue &&& ~~~(BitVec.ofNat 3 (2 ^ ch.val)) }))
    else s

/-! ### Half-cycle values -/

/-- A value against a percentage of UDIN, exactly. -/
def below (v pct udin : Nat) : Bool := decide (v * 100 < pct * udin)

def atLeast (v pct udin : Nat) : Bool := decide (pct * udin ≤ v * 100)

def maskOf (f : Fin 3 → Bool) : BitVec 3 :=
  BitVec.ofNat 3 (bitN (f 0) + 2 * bitN (f 1) + 4 * bitN (f 2))

def lowest (v : Vector Nat 3) : Fin 3 :=
  if v[1] < v[0] then (if v[2] < v[1] then 2 else 1) else (if v[2] < v[0] then 2 else 0)

def highest (v : Vector Nat 3) : Fin 3 :=
  if v[0] < v[1] then (if v[1] < v[2] then 2 else 1) else (if v[0] < v[2] then 2 else 0)

def newLevel (t : Stamp) (now : Nat) (chans : BitVec 3) (worst : Fin 3) (x : Nat) (unsync hasInt : Bool) : LevelEvent :=
  { start := t, startTick := now, chans := chans, extreme := x, worst := worst, unsync := unsync, stepped := false,
    hasInt := hasInt }

/-- A level event with one more value: a lower (or higher) extreme moves EXTREME and WORST. -/
def moreLevel (low : Bool) (v : Vector Nat 3) (chans : BitVec 3) (unsync : Bool) (e : LevelEvent) : LevelEvent :=
  let w := if low then lowest v else highest v
  let better := if low then decide (v[w] < e.extreme) else decide (e.extreme < v[w])
  { e with chans := e.chans ||| chans, extreme := if better then v[w] else e.extreme,
           worst := if better then w else e.worst, unsync := e.unsync || unsync }

/-- A level detector on a new value: the event after it, and the event that has just ended (R115). FLAGS bit 1 UNSYNC of R118 is set where no
reference qualifies at the event's start or at any of its values (DESIGN CHOICE, assumption log row 72). -/
def levelStep (en low : Bool) (t : Stamp) (now : Nat) (v : Vector Nat 3) (chans : BitVec 3) (starts ends unsync : Bool)
    (e : Option LevelEvent) : Option LevelEvent × Option LevelEvent :=
  match e with
  | none =>
    if en && starts then
      let w := if low then lowest v else highest v
      (some (newLevel t now chans w v[w] unsync false), none)
    else (none, none)
  | some e =>
    let e := moreLevel low v chans unsync e
    if ends then (none, some e) else (some e, none)

/-- All of a list of values lie within a limit of their mean: |M·v − sum|·1000 ≤ limit·UDIN·M. -/
def withinMean (l : List Nat) (limit udin : Nat) : Bool :=
  l.all (fun v => decide ((((l.length * v : Nat) : Int) - (l.sum : Nat)).natAbs * 1000 ≤ limit * udin * l.length))

/-- Difference of a value from a prior mean held as a sum of m values, times m. -/
def diffM (m v prior : Nat) : Nat := (((m * v : Nat) : Int) - (prior : Nat)).natAbs

/-- The RVC detector on a new value (R116). `q.vals` already holds it as the newest. -/
def rvcStep (b : Fin 2) (t : Stamp) (now : Nat) (v : Vector Nat 3) (q : PqSet) : Option RvcEvent × Option EventRec :=
  let udin := q.udin.toNat
  let beyond : Nat → Vector Nat 3 → Fin 3 → Bool := fun m prior k => decide (evRvc q.evt * udin * m < diffM m v[k] prior[k] * 1000)
  match q.rvc with
  | none =>
    let m := rvcM q.cfg
    let prev : Vector (List Nat) 3 := q.vals.map (fun l => (l.drop 1).take m)
    let prior : Vector Nat 3 := prev.map (fun l => l.sum)
    let steady := (fins 3).all (fun k => decide (prev[k].length = m) && withinMean prev[k] (evRvc q.evt) udin)
    let mask := maskOf (beyond m prior)
    if evEn q.evt 3 && steady && decide (mask ≠ 0) then
      (some { start := t, startTick := now, m := m, prior := prior, dmax := Vector.ofFn (fun k => diffM m v[k] prior[k]),
              chans := mask, values := 1, unsync := q.ref.isNone, stepped := false }, none)
    else (none, none)
  | some e =>
    let m := e.m
    let e := { e with chans := e.chans ||| maskOf (beyond m e.prior), values := e.values + 1,
                      dmax := Vector.ofFn (fun k => max e.dmax[k] (diffM m v[k] e.prior[k])),
                      unsync := e.unsync || q.ref.isNone }
    let last : Vector (List Nat) 3 := q.vals.map (fun l => l.take m)
    let done := decide (m ≤ e.values) &&
      (fins 3).all (fun k => withinMean last[k] (evRvc q.evt - evRvcHyst q.evt) udin)
    if done then (none, some (rvcRec b udin (q.valTicks.getD (m - 1) e.startTick) false (fun k => (last[k].sum, m)) e))
    else (some e, none)

def pushAll (l : List EventRec) (s : State) : State := s.forEach l pushEvent

/-- The reference channel after a new value (R95): none qualifies, the present one stays, or the first that qualifies. -/
def refAfter (q : PqSet) (v : Vector Nat 3) : Option (Fin 3) :=
  let ok : Fin 3 → Bool := fun r => atLeast v[refEventChan q.cfg r] 10 q.udin.toNat
  match q.ref with
  | some r => if ok r then some r else (refOrder q.cfg).find? ok
  | none => (refOrder q.cfg).find? ok

/-- The reference is lost at the value that this tick's crossing or period produced: the window in progress ends before the tick's sample,
which is the first of the fixed window (R464). A window that closed on this very tick stays as it is. -/
def loseRef (now : Nat) (q : PqSet) : PqSet :=
  let q := { q with synced := false, halfPhase := 0, prevCross := none }
  if q.waitCross then { q with waitCross := false, winStart := (now + 1) * 1024 }
  else if q.winLen ≤ 1 then q
  else
    let last := { q with winLen := q.winLen - 1, winV := q.winV.map List.tail, winI := q.winI.map List.tail }
    { closeUnsync (now * 1024) last with winLen := 1, winV := q.winV.map (List.take 1), winI := q.winI.map (List.take 1) }

/-- What a new value does to the reference channel (R95). A change marks the window then in progress with REFCHG: at the closing crossing
that is the following window, and passing from no reference to one counts as a change (DESIGN CHOICE, assumption log row 70). Without a
reference at the first value, fixed windows begin (R96). -/
def moveRef (now : Nat) (v : Vector Nat 3) (q : PqSet) : PqSet :=
  let ref := refAfter q v
  let keep := q.pendRef.filter (fun k => match (fins 3)[k]? with
    | some k => atLeast v[refEventChan q.cfg k] (10 + vsHyst q.cfg) q.udin.toNat
    | none => false)
  let fresh := { q with ref := ref, pendRef := keep, winStatus := q.winStatus ||| (if ref = q.ref then 0 else stRefchg),
                        prevCross := if ref = q.ref then q.prevCross else none, cycleLen := if q.ref.isNone then 0 else q.cycleLen }
  if ref.isNone && (q.ref.isSome || q.waitCross) then loseRef now fresh else fresh

/-- A half-cycle value is produced and tested (R95, R98, R115, R116). A dip or swell that starts on a value discards the RVC of the set, also
one whose closing test that very value meets (DEDUCED, assumption log row 71). -/
def halfCycle (b : Fin 2) (s : State) : State :=
  let q := s.pqSets[b]
  match q.halfVal with
  | none => s
  | some v =>
    let now := s.time.ticks
    let t := s.gridStamp
    let udin := q.udin.toNat
    let q := { q with halfVal := none, vals := Vector.ofFn (fun k => (v[k] :: q.vals[k]).take 121),
                      valTicks := (now :: q.valTicks).take 121 }
    let un := q.ref.isNone
    let dipLow : Fin 3 → Bool := fun k => below v[k] (vsDip q.cfg) udin
    let swOver : Fin 3 → Bool := fun k => decide (vsSwell q.cfg * udin < v[k] * 100)
    let inLow : Fin 3 → Bool := fun k => below v[k] (vsInt q.cfg) udin
    let r := rvcStep b t now v q
    let di := levelStep (evEn q.evt 0) true t now v (maskOf dipLow) ((fins 3).any dipLow)
      ((fins 3).all (fun k => atLeast v[k] (vsDip q.cfg + vsHyst q.cfg) udin)) un q.dip
    let sw := levelStep (evEn q.evt 1) false t now v (maskOf swOver) ((fins 3).any swOver)
      ((fins 3).all (fun k => decide (v[k] * 100 ≤ (vsSwell q.cfg - vsHyst q.cfg) * udin))) un q.swell
    let it := levelStep (evEn q.evt 2) true t now v (maskOf inLow) ((fins 3).all inLow)
      ((fins 3).any (fun k => atLeast v[k] (vsInt q.cfg + vsHyst q.cfg) udin)) un q.intr
    let started := (q.dip.isNone && di.1.isSome) || (q.swell.isNone && sw.1.isSome)
    let intNew := it.1.isSome
    let hasInt : Option LevelEvent → Option LevelEvent := fun e => e.map (fun e => { e with hasInt := e.hasInt || intNew })
    let q := moveRef now v { q with dip := hasInt di.1, swell := sw.1, intr := it.1, rvc := if started then none else r.1 }
    let recs := (di.2.map (levelRec b 1 udin now false)).toList ++ (sw.2.map (levelRec b 2 udin now false)).toList ++
      (it.2.map (levelRec b 3 udin now false)).toList ++ (if started then [] else r.2.toList)
    pushAll recs (s.modSet b (fun _ => q))

/-- Every event of a set in progress closes with CUT: a transient on the last sample, the others at the tick `last` (R91, R120). -/
def cutEvents (last : Nat) (b : Fin 2) (s : State) : State :=
  let q := s.pqSets[b]
  let now := s.time.ticks
  let udin := q.udin.toNat
  let tail : RvcEvent → Fin 3 → Nat × Nat := fun e k =>
    let l := q.vals[k].take (min e.m e.values)
    (l.sum, l.length)
  let recs := (q.dip.map (levelRec b 1 udin last true)).toList ++ (q.swell.map (levelRec b 2 udin last true)).toList ++
    (q.intr.map (levelRec b 3 udin last true)).toList ++ (q.rvc.map (fun e => rvcRec b udin last true (tail e) e)).toList ++
    (fins 3).filterMap (fun ch => q.trans[ch].map (fun e => transRec b ch udin (now - e.startTick + 1) true false e))
  pushAll recs (s.modSet b (fun q =>
    { q with dip := none, swell := none, intr := none, rvc := none, trans := Vector.replicate 3 none, transDue := 0 }))

/-- The set's events in progress carry STEPPED (R118). -/
def markStepped (q : PqSet) : PqSet :=
  { q with dip := q.dip.map (fun e => { e with stepped := true }), swell := q.swell.map (fun e => { e with stepped := true }),
           intr := q.intr.map (fun e => { e with stepped := true }), rvc := q.rvc.map (fun e => { e with stepped := true }),
           trans := q.trans.map (fun o => o.map (fun e => { e with stepped := true })), stepSeen := true }

end Sys2Proof.Machine
end

