-- ==== Sys2Proof/Machine/PqWindows.lean ====
section
/-! DEFINITION. Windows of power quality: their values (R99 to R106), aggregates (R109 to R112), results (R113, R114), frequency (R101), flicker
(R107, R108), and the parameters that take effect with them (R91, R93, R136). -/

namespace Sys2Proof.Machine

/-! ### The values of a window -/

/-- RMS of a window's samples in nV (R94, R99). -/
def rmsOf (xs : List Rat) : Nat := rmsNv (xs.foldl (fun a x => a + x * x) 0) xs.length

/-- The sample lists of the four channels of URMS (R91, R113). -/
def urmsLists (cfg : Word) (v : Vector (List Rat) 4) : Vector (List Rat) 4 :=
  if vsDelta cfg then #v[v[0], v[2].map (fun x => -x), List.zipWith (fun x y => x - y) v[2] v[0], v[3]] else v

/-- A bin of the channels of URMS from those of the voltage inputs. -/
def urmsBin (cfg : Word) (bin : Fin 4 → Nat → Bin) (j : Fin 4) (k : Nat) : Bin :=
  if vsDelta cfg then
    match j with
    | 0 => bin 0 k
    | 1 => (bin 2 k).neg
    | 2 => (bin 2 k).add (bin 0 k).neg
    | 3 => bin 3 k
  else bin j k

/-- Corrected bins of voltage input j of set b, and of a port, in a window (R103). -/
def voltBin (s : State) (b : Fin 2) (w : WinClosed) (j : Fin 4) : Nat → Bin :=
  winBin w (vget s.pq.chFe (24 + 4 * b.val + j.val) 0) w.volts[j]

def portBin (s : State) (w : WinClosed) (p : Fin 24) : Nat → Bin := winBin w (vget s.pq.chFe p.val 0) w.ports[p]

/-- Bin N of the reference channel, where there is one (R104). -/
def refBin (s : State) (b : Fin 2) (w : WinClosed) : Option Bin :=
  (s.pqSets[b]).ref.map (fun r => voltBin s b w r.castSucc (orderBin (s.pqSets[b]).cfg w 1))

/-- PHASE of orders 0 to 127 of a channel; order 0 reads 0 (R104). -/
def phaseWords (s : State) (b : Fin 2) (w : WinClosed) (draw ch : Nat) (bin : Nat → Bin) : List Int :=
  (List.range 128).map (fun h =>
    if h = 0 then 0 else phaseWord (Config.freePhase draw ch h) (bin (orderBin (s.pqSets[b]).cfg w h)) (refBin s b w))

/-- The ports that use the windows of set b (R97). -/
def portsOfSet (s : State) (b : Fin 2) : List (Fin 24) := (fins 24).filter (fun p => decide (s.setOfPort p = b))

/-- Harmonic power of a circuit, element-major, orders 0 to 127; an element without a voltage reads 0 (R106). -/
def hpowWords (s : State) (b : Fin 2) (w : WinClosed) (c : Fin 24) : List Int :=
  let cfg := (s.circuits[c]).cfg
  (List.range 4).flatMap (fun k => (List.range 128).map (fun h =>
    match elemVolt cfg k, elemPort cfg k with
    | some j, some p =>
      let n := orderBin (s.pqSets[b]).cfg w h
      harmPower (voltBin s b w (Fin.ofNat 4 j) n) (portBin s w p n) n
    | _, _ => 0))

/-- u2 and u0 of a window, from the order-1 bins of the event channels, without front-end correction (R100, R103). -/
def winUnbalance (q : PqSet) (w : WinClosed) : Option (Nat × Nat) :=
  let bin := urmsBin q.cfg (fun j => winBin w 0 w.volts[j])
  let k := orderBin q.cfg w 1
  unbalance (vsDelta q.cfg) q.udin.toNat (bin 0 k) (bin 1 k) (bin 2 k)

/-- The values of a window that closes (R99 to R106). -/
def winValues (s : State) (b : Fin 2) (draw : Nat) (w : WinClosed) : WinValues :=
  let q := s.pqSets[b]
  let u := (winUnbalance q w).getD (0, 0)
  let thd := (fins 4).map (fun j => thdOf q.cfg q.udin.toNat (harmWords q.cfg w (urmsBin q.cfg (voltBin s b w) j)))
  let chans : List (Nat × (Nat → Bin)) :=
    (portsOfSet s b).map (fun p => (p.val, portBin s w p)) ++ (fins 4).map (fun j => (24 + 4 * b.val + j.val, voltBin s b w j))
  { words := ((fins 4).map (fun j => rmsOf (urmsLists q.cfg w.volts)[j])) ++ [u.1, u.2] ++ thd,
    harm := chans.map (fun e => (e.1, harmWords q.cfg w e.2)),
    phase := chans.map (fun e => (e.1, phaseWords s b w draw e.1 e.2)),
    ports := (portsOfSet s b).map (fun p =>
      let h := harmWords q.cfg w (portBin s w p)
      (p.val, [(rmsOf w.ports[p] : Int), thdOf q.cfg 100000000 h, tddOf q.cfg s.pq.il[p] h])),
    hpow := ((fins 24).filter (fun c => cirEn (s.circuits[c]).cfg && decide (cirSet (s.circuits[c]).cfg = b.val))).map (fun c =>
      (c.val, hpowWords s b w c)) }

/-! ### Aggregates -/

/-- Sums of two lists; an empty list has no members yet. -/
def addLists (a b : List Int) : List Int := if a.isEmpty then b else List.zipWith (· + ·) a b

/-- One more member with its values under each key. -/
def addKeyed (l : Keyed) (a : List KeySum) : List KeySum :=
  l.foldl (fun a e =>
    if a.any (fun k => k.key == e.1) then
      a.map (fun k => if k.key = e.1 then { k with count := k.count + 1, sums := addLists k.sums e.2 } else k)
    else a ++ [{ key := e.1, count := 1, sums := e.2 }]) a

def squares (l : List Int) : List Int := l.map (fun x => x * x)

def squareKeyed (l : Keyed) : Keyed := l.map (fun e => (e.1, squares e.2))

/-- Root mean square of n members, from the sum of their squares (R99). -/
def rootMean (n : Nat) (sum : Int) : Nat := if n = 0 then 0 else (roundRat (sqrtRat (mkRat sum n))).toNat

def rootKeyed (l : List KeySum) : Keyed := l.map (fun k => (k.key, k.sums.map (fun x => (rootMean k.count x : Int))))

/-- Mean of n members. -/
def meanKeyed (l : List KeySum) : Keyed := l.map (fun k => (k.key, k.sums.map (fun x => roundDiv x k.count)))

/-- An aggregate with a member window (R109, R112). -/
def Aggregate.add (a : Aggregate) (v : WinValues) (status : BitVec 16) : Aggregate :=
  { a with count := a.count + 1, status := a.status ||| (status &&& 0x1F), words := addLists a.words (squares (v.words.map (fun x => (x : Int)))),
           harm := addKeyed (squareKeyed v.harm) a.harm, ports := addKeyed (squareKeyed v.ports) a.ports, hpow := addKeyed v.hpow a.hpow }

def Aggregate.fresh (status : BitVec 16) : Aggregate := { Aggregate.reset with status := status }

/-- The values of an aggregate: the root of the mean of the squares of its members (R99), for harmonic power the mean (log row 74). PHASE is
not aggregated. -/
def Aggregate.values (a : Aggregate) : WinValues :=
  { words := a.words.map (rootMean a.count), harm := rootKeyed a.harm, phase := [], ports := rootKeyed a.ports, hpow := meanKeyed a.hpow }

/-! ### Results -/

/-- The 64-byte result block (R113). -/
def resultBlock (seq : Word) (status : BitVec 16) (len : Nat) (t : Stamp) (freq : Word) (words : List Nat) : List Byte :=
  leBytes 4 seq.toNat ++ leBytes 2 status.toNat ++ leBytes 2 len ++ t.bytes ++ leBytes 4 freq.toNat ++
    (List.range 10).flatMap (fun k => leBytes 4 (words.getD k 0))

/-- Frequency from the window length, in 2^-16 Hz (R113). -/
def winFreq (cfg : Word) (w : WinClosed) : Word := BitVec.ofInt 32 (roundRat ((winCycles cfg * 32000 * 65536 : Nat) / w.span))

/-- The result of an aggregate that closes (R109 to R113). Class 0 of `k` is the 150/180-cycle block, whose FREQ the spec leaves open. -/
def aggResult (k : Nat) (draw : Nat) (t : Stamp) (a : Aggregate) (old : PqResult) : PqResult :=
  let status := a.status ||| (if k = 0 ∧ a.count < 15 then stShort else 0)
  let seq := old.seq + 1
  let freq : Word := if k = 0 then Config.blockFreq draw
    else if a.freqCnt = 0 then 0 else BitVec.ofInt 32 (roundDiv a.freqSum a.freqCnt)
  { seq := seq, status := status, draw := draw, vals := a.values, block := resultBlock seq status a.count t freq a.values.words }

/-- Aggregate k of a set closes, and the next begins with a status. -/
def closeAgg (k : Fin 3) (draw : Nat) (t : Stamp) (extra start : BitVec 16) (q : PqSet) : PqSet :=
  let a := q.aggs[k]
  let a := { a with status := a.status ||| extra }
  { q with results := vput q.results (k.val + 1) (aggResult k.val (4 * draw + k.val + 1) t a),
           aggs := vmod q.aggs k (fun _ => Aggregate.fresh start) }

/-! ### Flicker -/

/-- The class, 0 to 1023, of a Pinst in 2^-16 units: 1,024 logarithmic classes from 0.0001 to 10,000 (R107). -/
def flickerClass (p : Nat) : Nat :=
  ((List.range 1023).filter (fun k => decide (10 ^ (k + 1) * 65536 ^ 128 ≤ (p * 10000) ^ 128))).length

/-- One more Pinst in its class. -/
def bumpClass (c : Nat) (l : List (Nat × Nat)) : List (Nat × Nat) :=
  if l.any (fun e => e.1 == c) then l.map (fun e => if e.1 = c then (c, e.2 + 1) else e) else l ++ [(c, 1)]

/-- How many of the classified values lie in class c or above. -/
def countFrom (l : List (Nat × Nat)) (c : Nat) : Nat := (l.map (fun e => if c ≤ e.1 then e.2 else 0)).sum

/-- The 128th root of 10^k, to 2^-128. -/
def tenRoot (k : Nat) : Rat := Nat.repeat sqrtRat 7 ((10 : Rat) ^ k)

/-- The level that x tenths of a per cent of the values exceed: it lies in the highest class that x tenths of a per cent of the values do not
lie above; where in the class, the spec does not say (R107). -/
def percentile (draw : Nat) (l : List (Nat × Nat)) (x : Nat) : Rat :=
  let total := countFrom l 0
  if total = 0 then max 0 (Config.flickerShare draw x)
  else
  let c := ((List.range 1024).filter (fun c => decide (x * total < 1000 * countFrom l c))).length - 1
  let lo := tenRoot c / 10000
  let hi := tenRoot (c + 1) / 10000
  lo + (hi - lo) * max 0 (min 1 (Config.flickerShare draw x))

def meanRat (l : List Rat) : Rat := sumRats l / l.length

/-- Pst in 2^-16 by the multipoint formula of IEC 61000-4-15 with smoothed percentiles (R107; its weights are PRESUMED, assumption log row 75). -/
def pstOf (draw : Nat) (l : List (Nat × Nat)) : Nat :=
  let sm := fun (xs : List Nat) => meanRat (xs.map (percentile draw l))
  min (roundRat (sqrtRat ((314 * percentile draw l 1 + 525 * sm [7, 10, 15] + 657 * sm [22, 30, 40] + 2800 * sm [60, 80, 100, 130, 170] +
    800 * sm [300, 500, 800]) / 10000) * 65536)).toNat 0xFFFFFFFF

/-- Integer cube root to the nearest, of numbers below 2^120, bit by bit. -/
def cbrtBits : Nat → Nat → Nat → Nat
  | 0, _, r => r
  | k + 1, n, r => let c := r + 2 ^ k; cbrtBits k n (if c * c * c ≤ n then c else r)

def cbrtNear (n : Nat) : Nat := (cbrtBits 42 (8 * n) 0 + 1) / 2

/-- Status bits that an aggregate takes from its members: PARTIAL, SHORT and STEPPED describe it alone (R112). -/
def memberBits (st : BitVec 16) : BitVec 16 := st &&& 0x1F

/-- Pst and, at a 2-hour boundary, Plt of a voltage input (R107, R108, R112); `bits` are the status of the set's 10-minute aggregate. -/
def flickerClose (draw : Nat) (t : Stamp) (bits : BitVec 16) (twoHours : Bool) (extra : BitVec 16) (f : Flicker) : Flicker :=
  let open_ := f.boundary.getD (f.classes, f.gather)
  let pst := pstOf draw open_.1
  let st := bits ||| open_.2 ||| extra
  let psts := (pst, st) :: f.psts
  let f := { f with
    pst := BitVec.ofNat 32 pst, pstStatus := st, pstTime := t, psts := psts, boundary := none,
    classes := if f.boundary.isSome then f.classes else [],
    gather := if f.boundary.isSome then f.gather else if f.settleLeft = 0 then 0 else stPartial }
  if twoHours then
    { f with psts := [], plt := BitVec.ofNat 32 (cbrtNear (roundDiv ((psts.map (fun p => p.1 ^ 3)).sum : Nat) psts.length).toNat),
             pltStatus := psts.foldl (fun a p => a ||| memberBits p.2) (if psts.length < 12 then stPartial else 0) ||| extra, pltTime := t }
  else f

/-- A voltage input's flicker meter at a sample tick (R107, R108): the filters take the sample; every 32nd sample gives a Pinst, which is
classified; at a 10-minute boundary the classes of the interval are kept until the window there closes. -/
def flickerTick (lamp sixty : Bool) (eval boundary : Bool) (x : Rat) (f : Flicker) : Flicker :=
  let o := Config.flickerStep lamp sixty f.filt x
  let p := min (roundRat (o.2 * 65536)).toNat 0xFFFFFFFF
  let f := { f with filt := o.1, settleLeft := f.settleLeft - 1, gather := f.gather ||| (if f.settleLeft = 0 then 0 else stPartial),
                    pinst := if eval then BitVec.ofNat 32 p else f.pinst,
                    classes := if eval then bumpClass (flickerClass p) f.classes else f.classes }
  if boundary then
    { f with boundary := some (f.classes, f.gather), classes := [], gather := if f.settleLeft = 0 then 0 else stPartial }
  else f

/-- A flicker meter settles for 60 s (R108), its filters starting anew. -/
def settleFlicker (f : Flicker) : Flicker :=
  { f with filt := [], settleLeft := 1920000, gather := f.gather ||| stPartial }

/-! ### Parameters (R91, R93, R136) -/

/-- Detection and windows of a set start anew: the first window waits for the reference (R91, R96). -/
def restartDetect (q : PqSet) : PqSet :=
  { startWin 0 q with
    det := .restart, negArmed := false, detY := 0, prevCross := none, halfLen := 0, halfPrevLen := 0, halfSq := Vector.replicate 3 0,
    halfPrevSq := Vector.replicate 3 0, halfPhase := 0, vals := Vector.replicate 3 [], cycleLen := 0, past := Vector.replicate 3 [],
    halfVal := none, valTicks := [], winPend := none, synced := false, ref := none, pendRef := [], trans := Vector.replicate 3 none, transDue := 0,
    freqCycles := 0, waitCross := true, stepSeen := false }

/-- The event channels change with WIRING: what was taken on the old ones is dropped, and the reference is found anew (R91, R95). -/
def rewire (q : PqSet) : PqSet :=
  { q with halfLen := 0, halfPrevLen := 0, halfSq := Vector.replicate 3 0, halfPrevSq := Vector.replicate 3 0, halfPhase := 0,
           vals := Vector.replicate 3 [], past := Vector.replicate 3 [], valTicks := [], ref := none, pendRef := [], synced := false,
           prevCross := none, cycleLen := 0 }

/-- The first sample of a window, taken on the old record, is taken anew (R136). -/
def firstOnNew (b : Fin 2) (s : State) : State :=
  let v : Vector Rat 4 := Vector.ofFn (fun j => (setVolt s b.val j.val).out)
  s.modSet b (fun q =>
    let ev := eventChans q.cfg v
    let q := if q.winLen = 1 then { q with winV := v.map (fun x => [x]) } else q
    if q.halfLen = 1 then
      { q with halfSq := addSq3 (Vector.replicate 3 0) ev, past := Vector.ofFn (fun k => ev[k] :: (q.past[k]).tail) }
    else q)

/-- EN, WIRING or an event threshold differs between two settings (R91). -/
def cutsEvents (q : PqSet) : Bool :=
  vsEn q.cfg != vsEn q.cfgW || vsDelta q.cfg != vsDelta q.cfgW || q.cfg.toNat / 256 != q.cfgW.toNat / 256 ||
    q.evt.toNat % 2 ^ 24 != q.evtW.toNat % 2 ^ 24

/-- The pending parameters of a set in effect. -/
def takeSetParams (q : PqSet) : PqSet :=
  let on := !vsEn q.cfg && vsEn q.cfgW
  let wired := vsDelta q.cfg != vsDelta q.cfgW
  let q := { q with cfg := q.cfgW, udin := q.udinW, evt := q.evtW }
  if on then restartDetect q else if wired then rewire q else q

/-- The pending parameters of a set apply at a window start, or at once while EN is 0 (R91, R93, R136). Events that a change cuts close at
the last half-cycle value (R91). -/
def applySetParams (b : Fin 2) (s : State) : State :=
  let q := s.pqSets[b]
  let s := if cutsEvents q then cutEvents (q.valTicks.headD s.time.ticks) b s else s
  let on := !vsEn q.cfg && vsEn q.cfgW
  let s := s.modSet b takeSetParams
  let s := s.modPq (fun p => { p with
    flicker := Vector.ofFn (fun i => if on && decide (i.val / 4 = b.val) then settleFlicker p.flicker[i] else p.flicker[i]),
    chFe := Vector.ofFn (fun (m : Fin 32) => if m.val < 24 then p.chFe[m]
      else if (m.val - 24) / 4 = b.val then p.chFeW[m] else p.chFe[m]) })
  let s := s.forEach (portsOfSet s b) (fun p s =>
      s.modPq (fun u => { u with
        chFe := vput u.chFe p.val (fun _ => vget u.chFeW p.val 0), il := vmod u.il p (fun _ => u.ilW[p]) }))
  match s.cal.txns.find? (fun t => decide (t.target = .vset (b == 1)) && decide (t.st = .armed) && t.pqLeft) with
  | none => s
  | some t =>
    let s := s.forEach (fins 4) (fun j s => s.modVolt (Fin.ofNat 8 (4 * b.val + j.val)) (fun v =>
      { v with calPq := v.shadow.val, out := correctVolt v.shadow.val v.hist }))
    let s := firstOnNew b s
    finishSetTxn (s.modCal (fun k => { k with txns := k.txns.map (fun u => if u = t then { u with pqLeft := false } else u) }))

/-- While EN is 0 the set's changes apply at once (R91). -/
def applyIfOff (b : Fin 2) (s : State) : State :=
  if vsEn s.pqSets[b].cfg then s else applySetParams b s

/-! ### Frequency (R101) -/

/-- The value of a 10 s interval, in 2^-16 Hz: whole cycles by their total duration; the cycles that straddle its bounds are left out. -/
def freqValue (q : PqSet) : Nat :=
  if q.freqCycles - 1 < 100 then 0
  else min (roundRat (mkRat ((q.freqCycles - 1) * 32768000 * 65536 : Nat) (q.freqLast - q.freqFirst))).toNat 0xFFFFFFFF

/-- A 10 s frequency interval ends (R101, R111), and its value counts in the 10-minute and 2-hour means. -/
def freqEnd (b : Fin 2) (stepped : Bool) (s : State) : State :=
  s.modSet b (fun q =>
    let v := freqValue q
    let mark : BitVec 16 := if stepped then stStepped else 0
    { q with freq10 := v, freqStatus := (if q.freqCycles - 1 < 100 then stUnsync else 0) ||| q.freqMark ||| mark, freqCycles := 0, freqMark := mark,
             freqNs := s.gridNs,
             aggs := Vector.ofFn (fun k => if k.val = 0 then q.aggs[k]
               else { q.aggs[k] with freqSum := (q.aggs[k]).freqSum + v, freqCnt := (q.aggs[k]).freqCnt + 1 }) })

/-- A 10 s boundary at the last sample tick that no FREQ_INTERVAL_END has served. -/
def overdueFreq (b : Fin 2) (s : State) : State :=
  if vsEn (s.pqSets[b]).cfg && decide (s.gridNs % 10000000000 = 0) && decide ((s.pqSets[b]).freqNs ≠ s.gridNs) then freqEnd b false s else s

/-! ### The close of a window -/

/-- The status of a window: PARTIAL for the first one, UNSYNC also where the positive sequence is too low (R100, R112). -/
def winStatusOf (q : PqSet) (w : WinClosed) : BitVec 16 :=
  w.status ||| (if q.firstWin then stPartial else 0) ||| (if (winUnbalance q w).isNone then stUnsync else 0)

/-- Aggregates with a window that closes at `ns` (R109 to R111): those whose boundary it has passed close without it, the block with it. -/
def aggregate (draw ns : Nat) (t : Stamp) (v : WinValues) (status : BitVec 16) (q : PqSet) : PqSet :=
  let cross10 := !q.stepSeen && decide (q.winClose / 600000000000 < ns / 600000000000)
  let cross2h := !q.stepSeen && decide (q.winClose / 7200000000000 < ns / 7200000000000)
  let stepped := q.stepSeen
  let q := { q with aggs := vmod q.aggs 0 (fun a => a.add v status) }
  let q := if cross10 then closeAgg 1 draw t 0 0 q else q
  let q := if cross2h then closeAgg 2 draw t 0 0 q else q
  let q := { q with aggs := vmod (vmod q.aggs 1 (fun a => a.add v status)) 2 (fun a => a.add v status) }
  if stepped then closeAgg 0 draw t stStepped stStepped (closeAgg 1 draw t stStepped stStepped (closeAgg 2 draw t stStepped stStepped q))
  else if cross10 || decide (15 ≤ (q.aggs[0]).count) then closeAgg 0 draw t 0 0 q
  else q

/-- The reference returns to an earlier channel that has stayed above 10 % + HYST for the whole window; the window that follows is marked
(R95; DESIGN CHOICE, assumption log row 70). -/
def returnRef (q : PqSet) : PqSet :=
  let earlier := (refOrder q.cfg).find? (fun r => q.pendRef.contains r.val)
  let newRef := match q.ref, earlier with
    | some r, some e => if e.val < r.val then some e else some r
    | r, _ => r
  { q with winStatus := if newRef = q.ref then q.winStatus else q.winStatus ||| stRefchg, ref := newRef, pendRef := [0, 1, 2],
           prevCross := if newRef = q.ref then q.prevCross else none }

/-- A window closes: its result, the aggregates that close at their boundaries, flicker, and the next window's
parameters (R95, R96, R109 to R114). -/
def windowClose (b : Fin 2) (s : State) : State :=
  match s.pqSets[b].winPend with
  | none => s
  | some w =>
    let dr := s.draw
    let id := dr.1
    let s := if (s.pqSets[b]).stepSeen then freqEnd b true dr.2 else dr.2
    let ns := s.gridNs
    let t := s.gridStamp
    let q := s.pqSets[b]
    let stepped := q.stepSeen
    let ends10 := stepped || decide (q.winClose / 600000000000 < ns / 600000000000)
    let ends2h := stepped || decide (q.winClose / 7200000000000 < ns / 7200000000000)
    let bits := (q.aggs[1]).status
    let status := winStatusOf q w
    let vals := winValues s b (4 * id) w
    let seq := q.results[0].seq + 1
    let res : PqResult := {
      seq := seq, status := status, draw := 4 * id, vals := vals,
      block := resultBlock seq status w.len t (winFreq q.cfg w) vals.words }
    let q := { q with winPend := none, results := vmod q.results 0 (fun _ => res) }
    let q := { aggregate id ns t vals status q with firstWin := false, winClose := ns, stepSeen := false }
    let s := s.modSet b (fun _ => returnRef q)
    let s := if ends10 then
        s.modPq (fun u => { u with flicker := Vector.ofFn (fun (i : Fin 8) => if i.val / 4 = b.val then
          flickerClose (8 * id + i.val) t bits ends2h (if stepped then stStepped else 0) u.flicker[i] else u.flicker[i]) })
      else s
    applySetParams b s

/-! ### What a sample left due -/

/-- Closes that a sample found and no event has completed yet (R63). -/
def overdueCircuits (s : State) : State :=
  s.forEach (fins 24) (fun c s => if s.circuits[c].due = .none then s else closeCircuit c s)

/-- Half-cycle values, transients and windows likewise (R96, R98, R117); records enter in the order of R119. -/
def overdueSets (s : State) : State :=
  let s := s.forEach (fins 2) (fun b s => (halfCycle b s).forEach (fins 3) (endTransient b))
  s.forEach (fins 2) (fun b s => windowClose b (overdueFreq b s))

/-! ### Records as bytes -/

/-- One record as its 32 bytes (R118). -/
def eventBytes (r : EventRec) : List Byte :=
  leBytes 2 r.seq.toNat ++ [r.typ, r.chan] ++ r.start.bytes ++ leBytes 4 r.duration.toNat ++ leBytes 2 r.extreme.toNat ++
    leBytes 2 r.second.toNat ++ [r.worst, r.flags, r.unit] ++ leBytes 5 0

def eventOf (bs : List Byte) : EventRec :=
  { seq := BitVec.ofNat 16 (leAt bs 0 2), typ := BitVec.ofNat 8 (leAt bs 2 1), chan := BitVec.ofNat 8 (leAt bs 3 1),
    start := stampOf ((bs.drop 4).take 12), duration := BitVec.ofNat 32 (leAt bs 16 4), extreme := BitVec.ofNat 16 (leAt bs 20 2),
    second := BitVec.ofNat 16 (leAt bs 22 2), worst := BitVec.ofNat 8 (leAt bs 24 1), flags := BitVec.ofNat 8 (leAt bs 25 1),
    unit := BitVec.ofNat 8 (leAt bs 26 1) }

/-- EV_STAT (R119). -/
def evStat (s : State) : Nat :=
  let act : PqSet → Nat := fun q => bitN q.dip.isSome + 2 * bitN q.swell.isSome + 4 * bitN q.intr.isSome + 8 * bitN q.rvc.isSome
  s.pq.fifo.length + 256 * act s.pqSets[(0 : Fin 2)] + 4096 * act s.pqSets[(1 : Fin 2)] + 65536 * s.pq.evOvf.toNat

end Sys2Proof.Machine
end

