-- ==== Sys2Proof/Machine/Images.lean ====
section
/-! DEFINITION. The images of the critical pages (R190): what each page holds of the state. Layouts that the spec does not
give are a design choice (assumption log row 20). -/

namespace Sys2Proof.Machine

def pageBytes : Nat := 64

/-- Page k of a block of bytes. -/
def pageOf (bs : List Byte) (k : Nat) : List Byte := sliceAt bs (64 * k) 64

/-- A value of w bits followed by its complement, little-endian (R124). -/
def pairBytes (n v : Nat) : List Byte := leBytes n v ++ leBytes n (256 ^ n - 1 - v)

/-- Whether two n-byte fields are complements (R125, R298). -/
def pairOk (n : Nat) (bs : List Byte) (off : Nat) : Bool := leAt bs off n + leAt bs (off + n) n == 256 ^ n - 1

/-! ### Lifecycle (R419) -/

def sealPages (s : State) : List Byte :=
  pairBytes 1 (lifecycleCode s.sec.state) ++ leBytes 2 0 ++ pairBytes 4 s.sec.sealBreaks.toNat ++ s.sec.transition.bytes ++
    leBytes 40 0 ++ (s.sec.unseals.take 4).flatMap (fun e => leBytes 4 e.1.toNat ++ leBytes 6 e.2.toNat ++ leBytes 6 0)

/-! ### Accumulators and CF outputs (R81, R82, R190) -/

def cfCheck (o : CfOut) : Word := crc32 (leBytes 4 o.cfg.toNat ++ leBytes 8 o.qpp.toNat)

def cfSourceCycles (s : State) (o : CfOut) : Nat :=
  match cfCir o.cfg with | some c => (s.circuits[c]).totals.cycles.toNat | none => 0

def cfaccPages (s : State) : List Byte :=
  (fins 8).flatMap (fun o => leBytes 8 s.cfs[o].acc) ++ (fins 8).flatMap (fun o => leBytes 4 (cfSourceCycles s s.cfs[o])) ++
    (fins 8).flatMap (fun o => leBytes 4 (cfCheck s.cfs[o]).toNat)

def matchPage (s : State) (k : Nat) : List Byte :=
  (List.range 8).flatMap (fun j => let r := s.ports[Fin.ofNat 24 (8 * k + j)]; leBytes 4 r.gUse.toNat ++ leBytes 4 r.dUse.toNat)

/-! ### Calibration (R124 to R127) -/

def calPairBytes (r : CalPair) : List Byte :=
  leBytes 3 r.val.gain.toNat ++ leBytes 3 r.neg.gain.toNat ++ leBytes 2 r.val.phase.toNat ++ leBytes 2 r.neg.phase.toNat ++
    leBytes 3 r.val.offset.toNat ++ leBytes 3 r.neg.offset.toNat

/-- A record with its complements. -/
def withComplement (r : CalRec) : CalPair :=
  { val := r, neg := { gain := ~~~r.gain, phase := ~~~r.phase, offset := ~~~r.offset } }

/-- The transaction's store has started, and its records are those of the group's image (R135, R142). -/
def committing (t : Txn) : Bool := (decide (t.st = .storing) && decide (t.cnt ≠ 0)) || decide (t.st = .armed)

/-- The stored record of a port: a committing transaction's shadow record, or the one in use (R136, R142). A channel that is
uncalibrated and not loaded keeps a record that fails R125, 16 zero bytes (log row 20). -/
def portRec (s : State) (p : Fin 24) : List Byte :=
  let r := s.ports[p]
  match s.cal.txns.find? (fun t => committing t && (match t.target with | .cir _ => true | .vset _ => false) && t.chans.getLsbD p.val) with
  | some t => if r.uncal && !t.loaded.getLsbD p.val then leBytes 16 0 else calPairBytes r.shadow
  | none => if r.uncal then leBytes 16 0 else calPairBytes (withComplement r.cal)

def voltRec (s : State) (v : Fin 8) : List Byte :=
  let r := s.volts[v]
  match s.cal.txns.find? (fun t => committing t && (match t.target with | .cir _ => false | .vset _ => true) && t.chans.getLsbD (24 + v.val)) with
  | some t => if r.uncal && !t.loaded.getLsbD (24 + v.val) then leBytes 16 0 else calPairBytes r.shadow
  | none => if r.uncal then leBytes 16 0 else calPairBytes (withComplement r.cal)

/-- The 32 bytes of a log entry (R143). -/
def entryBytes (e : LogEntry) : List Byte :=
  leBytes 4 e.cnt.toNat ++ [e.kind, e.target] ++ leBytes 2 0 ++ leBytes 4 e.chanMask.toNat ++ e.time.bytes ++
    leBytes 6 e.legal.toNat ++ leBytes 2 0

def entryOf (bs : List Byte) : LogEntry :=
  { cnt := BitVec.ofNat 32 (leAt bs 0 4), kind := BitVec.ofNat 8 (leAt bs 4 1), target := BitVec.ofNat 8 (leAt bs 5 1),
    chanMask := BitVec.ofNat 32 (leAt bs 8 4), time := stampOf ((bs.drop 12).take 12), legal := BitVec.ofNat 48 (leAt bs 24 6) }

/-- A header page (R127); all zero before the first change. -/
def calHeader (e : Option LogEntry) (trim : List Byte) : List Byte :=
  match e with
  | some e => padTo 64 (pairBytes 4 e.cnt.toNat ++ entryBytes e ++ trim)
  | none => leBytes 64 0

def calIPages (s : State) : List Byte :=
  calHeader s.cal.lastI [] ++ (fins 24).flatMap (portRec s)

def calVPages (s : State) : List Byte :=
  calHeader s.cal.lastV [] ++ (fins 8).flatMap (voltRec s)

/-- TRIM as stored: the one that waits for its close, or the one applied. -/
def storedTrim (r : Tracer) : Word := r.trimNext.getD r.trim

/-- R_SENSE_REF as stored: a pair that fails where no reference is captured. -/
def storedRef (r : Tracer) : List Byte :=
  match r.refNext with
  | some v => pairBytes 4 v.toNat
  | none => if r.refValid then pairBytes 4 r.ref.toNat else leBytes 8 0

def calTPages (s : State) : List Byte :=
  calHeader s.cal.lastT (pairBytes 4 s.cal.trimLim.toNat) ++
    (fins 24).flatMap (fun p => pairBytes 4 (storedTrim s.ports[p].tracer).toNat) ++
    (fins 24).flatMap (fun p => storedRef s.ports[p].tracer)

/-! ### Configuration -/

def conf0 (s : State) : List Byte :=
  (fins 24).flatMap (fun c => leBytes 4 s.circuits[c].cfgW.toNat) ++ (fins 24).flatMap (fun p => leBytes 4 s.ports[p].cfgW.toNat) ++
    (fins 8).flatMap (fun o => leBytes 4 s.cfs[o].cfgW.toNat) ++ (fins 8).flatMap (fun o => leBytes 8 s.cfs[o].qppW.toNat)

def conf1 (s : State) : List Byte :=
  (fins 24).flatMap (fun c => let r := s.circuits[c]
    leBytes 4 r.quantumW.toNat ++ leBytes 6 r.pfsW.toNat ++ leBytes 8 r.keW.toNat)

/-- S0n_CFG as written (R370). -/
def s0CfgWord (i : S0In) : Nat :=
  match i.pendCfg with
  | some (e, d) => bitN e + 65536 * d.toNat
  | none => bitN i.en + 65536 * i.debounce.toNat

def auxWen (s : State) : Nat := ((fins 16).map (fun i => bitN (s.aux.inputs[i]).en * 2 ^ i.val)).sum

def conf2 (s : State) : List Byte :=
  (fins 24).flatMap (fun c => let r := s.circuits[c]
    leBytes 1 r.zcToW.toNat ++ leBytes 4 r.nlW.p.toNat ++ leBytes 4 r.nlW.q.toNat ++ leBytes 4 r.nlW.s.toNat) ++
    (fins 8).flatMap (fun i => leBytes 4 (s0CfgWord s.s0[i])) ++
    (fins 16).flatMap (fun i => leBytes 2 (s.aux.inputs[i]).low.toNat ++ leBytes 2 (s.aux.inputs[i]).high.toNat) ++
    leBytes 2 (auxWen s) ++
    leBytes 1 s.aux.regular.length ++ padTo 16 s.aux.regular ++ leBytes 4 s.aux.regPeriod.toNat ++
    leBytes 1 s.aux.injected.length ++ padTo 16 s.aux.injected ++ leBytes 4 s.aux.injPeriod.toNat ++
    leBytes 1 (bitN (s.aux.lowPowerPend.getD s.aux.lowPower))

def conf3 (s : State) : List Byte :=
  (fins 2).flatMap (fun b => let q := s.pqSets[b]
    leBytes 4 q.cfgW.toNat ++ leBytes 4 q.udinW.toNat ++ leBytes 4 q.evtW.toNat) ++
    s.pq.chFeW.toList.flatMap (fun w => leBytes 4 w.toNat) ++ s.pq.ilW.toList.flatMap (fun w => leBytes 4 w.toNat) ++
    (fins 24).flatMap (fun p => leBytes 4 (s.ports[p]).tracer.cfg.toNat) ++
    (fins 24).flatMap (fun p => leBytes 4 (s.ports[p]).tracer.rsNom.toNat)

/-- The first 8 bytes of SHA-256 over the images of CONF0 to CONF3 (R279). -/
def confDigest (s : State) : List Byte :=
  leBytes 8 (Config.sha256 (padTo 512 (conf0 s) ++ padTo 512 (conf1 s) ++ padTo 512 (conf2 s) ++ padTo 512 (conf3 s))).toNat

/-! ### Single pages -/

def clocksPage (k : Clocks) : List Byte :=
  leBytes 4 k.ltrim.toNat ++ leBytes 4 k.cfg.toNat ++ leBytes 4 k.slewCfg.toNat ++ leBytes 4 k.billCfgW.toNat ++ leBytes 8 k.base.toNat

/-- The epoch that the head's RING page holds (R227, R239). -/
def storedEpoch (s : State) : Nat :=
  if !s.ring.isHead then 0 else match s.time.step with | some p => p.epoch.toNat | none => s.time.epoch.toNat

def ringPage (s : State) : List Byte :=
  leBytes 1 ((s.ring.grantPend.map (·.1)).getD s.ring.addr).toNat ++ leBytes 1 (storedEpoch s) ++ leBytes 2 0 ++ leBytes 4 s.ring.portA.asym.toNat ++
    leBytes 4 s.ring.portB.asym.toNat

def cdcPage (c : Cdc) : List Byte :=
  leBytes 4 c.stall.toNat ++ c.stalls.toList.flatMap (fun w => leBytes 2 w.toNat) ++ c.drops.toList.flatMap (fun w => leBytes 2 w.toNat) ++
    c.last.bytes

def ptimePage (f : Firn) : List Byte :=
  leBytes 4 f.ptCkpt.toNat ++ leBytes 4 f.ptMatch.toNat ++ leBytes 4 f.ptTrace.toNat ++ leBytes 4 f.ptScrub.toNat ++
    leBytes 2 f.scrubPage.toNat

def billOpenPage (k : Clocks) : List Byte :=
  if k.billIsOpen then leBytes 4 k.billSeq.toNat ++ leBytes 6 k.billStart.toNat ++ leBytes 2 (k.billFlags ||| (match k.boundary with
    | some b => b.flags | none => 0)).toNat
  else []

/-! ### Power-line nodes (R352) -/

/-- PLC_CFG in the layout of its payload (R326). -/
def plcCfgBytes (p : Plc) : List Byte :=
  leBytes 1 (bitN p.en) ++ leBytes 1 p.txAtt.toNat ++ leBytes 2 p.poll.toNat ++ leBytes 1 (bitN p.fixedMaps) ++ leBytes 3 0

/-- A node's entry, with the change that waits for the next turn (R353). -/
def nodeEntryBytes (p : Plc) (i : Fin 240) : List Byte :=
  match p.pendNodes.find? (fun e => e.1 == i) with
  | some (_, some id) => leBytes 8 id.toNat ++ leBytes 1 1 ++ leBytes 7 0
  | some (_, none) => leBytes 16 0
  | none =>
    let n := p.nodes[i]
    if n.st = 0 then leBytes 16 0
    else leBytes 8 n.id.toNat ++ leBytes 1 (min n.st.toNat 2) ++ leBytes 1 n.phase.toNat ++ leBytes 6 0

def nodeCount (p : Plc) : Nat := ((fins 240).filter (fun i => decide (leAt (nodeEntryBytes p i) 8 1 ≠ 0))).length

def plcHeader (p : Plc) : List Byte := plcCfgBytes p ++ leBytes 1 p.base.toNat ++ leBytes 1 (nodeCount p)

def nodePage (p : Plc) (k : Nat) : List Byte := (List.range 4).flatMap (fun j => nodeEntryBytes p (Fin.ofNat 240 (4 * k + j)))

/-! ### Display pages (R375) -/

/-- The DISP_CFG payload as written (R327). -/
def dispCfgBytes (d : Display) : List Byte :=
  d.pendCfg.getD (leBytes 1 d.mode.toNat ++ leBytes 1 d.inv.toNat ++ leBytes 2 d.width.toNat ++ leBytes 2 d.height.toNat ++
    leBytes 1 d.taux.toNat ++ leBytes 1 0)

def lutBytes (l : Option (List Byte)) : List Byte := padTo 384 (l.getD [])

def unifBytes (d : Display) : List Byte := memSlice 0 d.unif 0 300

/-- The directory page; an unloaded band carries CRC 0. -/
def dispDirectory (d : Display) : List Byte :=
  dispCfgBytes d ++ d.luts.toList.flatMap (fun l => match l with
    | some bs => leBytes 4 (crc32 (padTo 384 bs)).toNat
    | none => leBytes 4 0) ++ leBytes 4 (crc32 (unifBytes d)).toNat

/-! ### The whole region -/

/-- The RAM image of page p of the critical region, 64 bytes (R161, R190). -/
def encodePage (p : Nat) (s : State) : List Byte :=
  if p < 2 then pageOf (sealPages s) p
  else if p < 50 then pageOf (totalsBytes (s.circuits[Fin.ofNat 24 ((p - 2) / 2)]).totals) (p % 2)
  else if p < 52 then pageOf (cfaccPages s) (p - 50)
  else if p < 55 then matchPage s (p - 52)
  else if p < 59 then pageOf (s.pq.latest.flatMap eventBytes) (p - 55)
  else if p < 66 then pageOf (calIPages s) (p - 59)
  else if p < 69 then pageOf (calVPages s) (p - 66)
  else if p < 76 then pageOf (calTPages s) (p - 69)
  else if p < 84 then pageOf (conf0 s) (p - 76)
  else if p < 92 then pageOf (conf1 s) (p - 84)
  else if p < 100 then pageOf (conf2 s) (p - 92)
  else if p < 108 then pageOf (conf3 s) (p - 100)
  else if p = 108 then padTo 64 s.clk.tcomp
  else if p = 109 then padTo 64 (clocksPage s.clk)
  else if p = 110 then padTo 64 s.disp.record
  else if p = 111 then padTo 64 (ringPage s)
  else if p = 112 then padTo 64 s.firn.runLog
  else if p = 113 then padTo 64 (plcHeader s.plc)
  else if p < 174 then nodePage s.plc (p - 114)
  else if p < 177 then leBytes 64 0
  else if p < 421 then memSlice 0 s.ring.mirror (64 * (p - 177)) 64
  else if p = 421 then (fins 8).flatMap (fun i => leBytes 8 (s.s0[i]).total.toNat)
  else if p = 422 then padTo 64 (cdcPage s.cdc)
  else if p = 423 then padTo 64 (leBytes 1 (bitN s.mp.fwState))
  else if p = 424 then padTo 64 (ptimePage s.firn)
  else if p = 425 then padTo 64 s.clk.tcTable
  else if p = 426 then padTo 64 (billOpenPage s.clk)
  else if p = 427 then padTo 64 (leBytes 4 s.ring.hcfg.toNat)
  else if p = 438 then padTo 64 (leBytes 4 s.disp.legalMask.toNat)
  else if p = 439 then padTo 64 (dispDirectory s.disp)
  else if 440 ≤ p ∧ p < 488 then pageOf (lutBytes (s.disp.luts[Fin.ofNat 8 ((p - 440) / 6)])) ((p - 440) % 6)
  else if 488 ≤ p ∧ p < 493 then pageOf (unifBytes s.disp) (p - 488)
  else if 493 ≤ p ∧ p < 509 then padTo 64 (s.ring.groups[Fin.ofNat 16 (p - 493)]).desc
  else leBytes 64 0

/-! ### Groups (R170, R190, R191) -/

/-- First page and length of the group of a page; none for a single page. -/
def groupOf (p : Nat) : Option (Nat × Nat) :=
  if p < 2 then some (0, 2)
  else if p < 50 then some (2 + (p - 2) / 8 * 8, 8)
  else if p < 52 then some (50, 2)
  else if p < 55 then none
  else if p < 59 then some (55, 4)
  else if p < 66 then some (59, 7)
  else if p < 69 then some (66, 3)
  else if p < 76 then some (69, 7)
  else if p < 108 then some (76 + (p - 76) / 8 * 8, 8)
  else if 177 ≤ p ∧ p < 421 then some (177 + (p - 177) / 4 * 4, 4)
  else if 640 ≤ p ∧ p < 3040 then some (640 + (p - 640) / 8 * 8, 8)
  else none

/-- The unit that is stored and changes over together: the accumulator set (R173), a group, or the page itself. -/
def storeKey (p : Nat) : Nat :=
  if 2 ≤ p ∧ p < 52 then 2 else match groupOf p with | some g => g.1 | none => p

/-- The pages of a store key. -/
def keyPages (k : Nat) : List Nat :=
  if k = 2 then (List.range 50).map (· + 2)
  else match groupOf k with
    | some g => (List.range g.2).map (· + g.1)
    | none => [k]

def isGroupKey (k : Nat) : Bool := (groupOf k).isSome

end Sys2Proof.Machine
end

