-- ==== Sys2Proof/Machine/FirnRead.lean ====
section
/-! DEFINITION. The physical array of the Firn store: slots (R163, R165), the slot in use (R166, R171, R172), page images,
and what a page store writes or leaves behind (R164, R168). -/

namespace Sys2Proof.Machine

def slotAddr (p : Nat) (b : Bool) : Nat := 160 * p + 80 * bitN b

/-- The 80 bytes of a slot; an erased byte reads 0xFF. -/
def slotBytes (f : Firn) (p : Nat) (b : Bool) : List Byte := memSlice 0xFF f.arr (slotAddr p b) 80

/-- SEQ XOR SEQ_N = 0xFFFF, SEQ = COUNT[15:0], the CRC matches (R165). -/
def slotValid (bs : List Byte) : Bool :=
  decide (leAt bs 0 2 + leAt bs 2 2 = 0xFFFF) && decide (leAt bs 0 2 = leAt bs 4 2) &&
    decide (leAt bs 76 4 = (crc32 (bs.take 76)).toNat)

def slotCount (bs : List Byte) : Nat := leAt bs 4 4
def slotGroup (bs : List Byte) : Nat := leAt bs 8 4
def slotData (bs : List Byte) : List Byte := (bs.drop 12).take 64
def slotGseq (bs : List Byte) : BitVec 16 := BitVec.ofNat 16 (slotGroup bs)

/-- The GROUP field of a member (R163). -/
def groupWord (gseq : BitVec 16) (p : Nat) : Word :=
  match groupOf p with
  | some g => BitVec.ofNat 32 (gseq.toNat + g.1 * 2 ^ 16 + (p - g.1) * 2 ^ 28 + 2 ^ 31)
  | none => 0

/-- The slot counts for its page (R171): valid, and GROUP names this member, or is 0 for a single page. -/
def slotCounts (p : Nat) (bs : List Byte) : Bool :=
  slotValid bs && (match groupOf p with
    | some g => decide (slotGroup bs / 2 ^ 16 = g.1 + (p - g.1) * 2 ^ 12 + 2 ^ 15)
    | none => slotGroup bs == 0)

/-- Both slots read 0xFF throughout (R167). -/
def pageBlank (f : Firn) (p : Nat) : Bool := !f.arr.any (fun c => decide (160 * p ≤ c.1) && decide (c.1 < 160 * p + 160))

/-- The slot in use of a page, if it has one. -/
def inUse (f : Firn) (p : Nat) : Option Bool := (f.slots.find? (fun e => e.1 == p)).map (·.2)

def setInUse (p : Nat) (b : Option Bool) (f : Firn) : Firn :=
  let rest := f.slots.filter (fun e => e.1 != p)
  { f with slots := match b with | some b => (p, b) :: rest | none => rest }

/-- A page is PAGE_LOST (R167). -/
def pageLost (f : Firn) (p : Nat) : Bool := (inUse f p).isNone

/-- The stored image of a page; zeros where it is lost (R162, R167). -/
def storedData (f : Firn) (p : Nat) : List Byte :=
  match inUse f p with | some b => slotData (slotBytes f p b) | none => leBytes 64 0

/-- The COUNT a page reads (R171). -/
def pageCount (f : Firn) (p : Nat) : Nat := match inUse f p with | some b => slotCount (slotBytes f p b) | none => 0

/-- The slot that the next store of a page writes (R166, R172). -/
def nextSlot (f : Firn) (p : Nat) : Bool := match inUse f p with | some b => !b | none => false

/-- The 76 bytes that the CRC covers, and the CRC (R163). -/
def slotImage (count : Nat) (group : Word) (data : List Byte) : List Byte :=
  let body := leBytes 2 count ++ leBytes 2 (0xFFFF - count % 0x10000) ++ leBytes 4 count ++ leBytes 4 group.toNat ++ padTo 64 data
  body ++ leBytes 4 (crc32 body).toNat

/-- The image that a member's store programs: COUNT one above the in-use COUNT. -/
def memberImage (f : Firn) (m : Member) : List Byte := slotImage (pageCount f m.page + 1) m.group m.data

/-- A whole slot written. -/
def writeSlot (p : Nat) (b : Bool) (bs : List Byte) (f : Firn) : Firn := { f with arr := memPuts 0xFF f.arr (slotAddr p b) bs }

/-- The places of the zero bits of a header. -/
def zeroBits (h : Nat) : List Nat := (List.range 32).filter (fun k => !h.testBit k)

/-- A header whose programming was cut off: only zeros of the header are programmed, in a free order, and at least one of them is missing,
so it never passes the complement check (R164). -/
def cutHeader (draw : Nat) (h : List Byte) : List Byte :=
  let z := zeroBits (leAt h 0 4)
  let missing := 2 ^ z.getD ((Config.cutByte draw 4).toNat % 16) 0
  (List.range 4).map (fun k => h.getD k 0 ||| Config.cutByte draw k ||| BitVec.ofNat 8 (missing / 256 ^ k))

/-- The slot of a store cut off `us` µs after its start (R164, R168): an erase in progress leaves free bytes, then offsets 4
upward are programmed in 24 µs, then the header up to the commit point. -/
def cutSlot (draw us : Nat) (bs old : List Byte) : List Byte :=
  if us = 0 then old
  else if us < 8 then (List.range 80).map (Config.cutByte draw)
  else if us < 32 then
    let n := 76 * (us - 8) / 24
    List.replicate 4 0xFF ++ (bs.drop 4).take n ++ List.replicate (76 - n) 0xFF
  else if us < 36 then cutHeader draw (bs.take 4) ++ bs.drop 4
  else bs

/-- A slot whose store failed verify twice: free bytes under an erased header (R169). -/
def wornSlot (draw : Nat) : List Byte := List.replicate 4 0xFF ++ (List.range 76).map (Config.cutByte draw)

/-- The RAM image of a critical page as a reader sees it: zeros where the page is lost, else what its owner holds (R161,
R167). -/
def ramPage (s : State) (p : Nat) : List Byte := if pageLost s.firn p then leBytes 64 0 else encodePage p s

/-- The image at the last store latch or restore. -/
def latchedPage (f : Firn) (p : Nat) : List Byte := memSlice 0 f.ram (64 * p) 64

/-- A critical page has been written since its last store latch: its registers encode another image, or its last image was latched for a
store that was given up (R161, R182). -/
def pageDirty (s : State) (p : Nat) : Bool := s.firn.dirty.contains p || encodePage p s != latchedPage s.firn p

/-- Images latched (R161). -/
def latchPages (ps : List (Nat × List Byte)) (f : Firn) : Firn :=
  { f with ram := ps.foldl (fun m e => if e.1 < 512 then memPuts 0 m (64 * e.1) (padTo 64 e.2) else m) f.ram,
           dirty := f.dirty.filter (fun p => !ps.any (fun e => e.1 == p)) }

/-- Pages that count as written (R161). -/
def markDirty (ps : List Nat) (f : Firn) : Firn := { f with dirty := ps.filter (fun p => decide (p < 512)) ++ f.dirty.filter (fun p => !ps.contains p) }

/-- The last GSEQ of a store key found at restore or issued in this run (R170, R173). -/
def lastGseq (f : Firn) (k : Nat) : Option (BitVec 16) := (f.gseq.find? (fun e => e.1 == k)).map (·.2)

/-- The GSEQ that the next store of a key carries. -/
def nextGseq (f : Firn) (k : Nat) : BitVec 16 := match lastGseq f k with | some g => g + 1 | none => 1

def setGseq (k : Nat) (g : BitVec 16) (f : Firn) : Firn := { f with gseq := (k, g) :: f.gseq.filter (fun e => e.1 != k) }

/-! ### History of the legal log (R146, R191) -/

/-- The page and half of the entry with a CNT. -/
def histPage (cnt : Nat) : Nat := 512 + cnt % 256 / 2

/-- The entry with a CNT, if the history holds it. -/
def histEntry (f : Firn) (cnt : Nat) : Option (List Byte) :=
  let bs := ((storedData f (histPage cnt)).drop (32 * (cnt % 2))).take 32
  if !pageLost f (histPage cnt) && decide (leAt bs 0 4 = cnt) && decide (leAt bs 4 1 ≠ 0) then some bs else none

/-- A history page with one entry replaced. -/
def histImage (f : Firn) (cnt : Nat) (entry : List Byte) : List Byte :=
  overlay (padTo 64 (storedData f (histPage cnt))) (32 * (cnt % 2)) (padTo 32 entry)

end Sys2Proof.Machine
end

