-- ==== Sys2Proof/Machine/DispOps.lean ====
section
/-! DEFINITION. The display controller: LUTs (R373, R374), variants and the DC ledger (R377, R378), bands (R379 to R381),
the display record (R382), frames (R371, R372, R389), stops (R385), corrections (R386) and the Crevasse loop (R390). -/

namespace Sys2Proof.Machine

def dOff : BitVec 3 := 0
def dIdle : BitVec 3 := 1
def dPrep : BitVec 3 := 2
def dRunning : BitVec 3 := 3
def dRepair : BitVec 3 := 4
def dNoPanel : BitVec 3 := 5
def dStopped : BitVec 3 := 6

/-! ### LUTs -/

def lutN (l : List Byte) : Nat := leAt l 0 1
def lutFrameMs (l : List Byte) : Nat := leAt l 1 1
def lutClr (l : List Byte) : Nat := leAt l 2 1
def lutEntry (l : List Byte) : Nat := leAt l 4 2

def nibble (l : List Byte) (off k : Nat) : Nat := bitsN (leAt l (off + k / 2) 1) (if k % 2 = 0 then 3 else 7) (if k % 2 = 0 then 0 else 4)

/-- TRANS[p][n]. -/
def lutTrans (l : List Byte) (p n : Nat) : Nat := nibble l 16 (16 * p + n)

/-- Frame f of shape k (1 to 15), the DB code of R371. -/
def lutFrame (l : List Byte) (k f : Nat) : Nat := bitsN (leAt l (144 + 16 * (k - 1) + f / 4) 1) (2 * (f % 4) + 1) (2 * (f % 4))

/-- +15 V, −15 V and 0 V as +1, −1 and 0. -/
def codeDc (c : Nat) : Int := if c = 1 then 1 else if c = 2 then -1 else 0

/-- DC of the frames from one index on. -/
def shapeDcFrom (l : List Byte) (k from_ : Nat) : Int :=
  ((List.range (lutN l - from_)).map (fun f => codeDc (lutFrame l k (from_ + f)))).sum

/-- Net DC of a shape. -/
def shapeNet (l : List Byte) (k : Nat) : Int := shapeDcFrom l k 0

/-- Shapes named by TRANS or CLR. -/
def namedShapes (l : List Byte) : List Nat :=
  ((List.range 256).map (fun e => nibble l 16 e) ++ [lutClr l]).filter (· ≠ 0)

/-- The checks of R374. -/
def lutOk (l : List Byte) : Bool :=
  decide (8 ≤ lutN l) && decide (lutN l ≤ 64) && decide (10 ≤ lutFrameMs l) && decide (lutFrameMs l ≤ 40) &&
    decide (1 ≤ lutClr l) && decide (lutClr l ≤ 15) && decide (leAt l 3 1 = 0) && decide (leAt l 6 10 = 0) &&
    (List.range 15).all (fun k => (List.range 64).all (fun f =>
      decide (lutFrame l (k + 1) f ≠ 3) && (decide (f < lutN l) || lutFrame l (k + 1) f == 0))) &&
    (namedShapes l).all (fun k => decide (1 ≤ shapeNet l k) && decide (shapeNet l k ≤ 63)) &&
    decide (((dedup (namedShapes l)).map (shapeNet l)).Nodup)

/-- The LUT of a band. -/
def bandLut (d : Display) (b : Nat) : Option (List Byte) := vget d.luts b none

/-! ### Regions and tiles -/

def tileOffset (d : Display) (x y : Nat) : Int :=
  let t := y / 16 * 30 + x / 16
  sgnBits 4 (bitsN (memGet 0 d.unif (t / 2)).toNat (if t % 2 = 0 then 3 else 7) (if t % 2 = 0 then 0 else 4))

/-- The effective band of a pixel (R381). -/
def pixelBand (d : Display) (band x y : Nat) : Nat := (clampInt 0 7 (band + tileOffset d x y)).toNat

/-- The tiles of a region, by their first pixel. -/
def tilesOf (x y w h : Nat) : List (Nat × Nat) :=
  (List.range ((y + h - 1) / 16 + 1 - y / 16)).flatMap (fun j =>
    (List.range ((x + w - 1) / 16 + 1 - x / 16)).map (fun i => ((x / 16 + i) * 16, (y / 16 + j) * 16)))

/-- The effective bands that a region uses. -/
def bandsUsed (d : Display) (band x y w h : Nat) : List Nat :=
  dedup ((tilesOf x y w h).map (fun t => pixelBand d band t.1 t.2))

/-- Every band that a region needs is loaded (R381). -/
def bandsLoaded (d : Display) (band x y w h : Nat) : Bool := (bandsUsed d band x y w h).all (fun b => (bandLut d b).isSome)

/-- Length of an update in frames: the longest N (R381). -/
def updateFrames (d : Display) (band x y w h : Nat) : Nat :=
  ((bandsUsed d band x y w h).map (fun b => lutN ((bandLut d b).getD []))).foldl max 0

/-- The region lies on the panel with an even width (R327). -/
def regionOk (d : Display) (x y w h : Nat) : Bool :=
  decide (1 ≤ w) && decide (1 ≤ h) && decide (w % 2 = 0) && decide (x + w ≤ d.width.toNat) && decide (y + h ≤ d.height.toNat)

/-- The region overlaps the legal strip (R392). -/
def inStrip (d : Display) (y h : Nat) : Bool := decide (d.legalMask ≠ 0) && decide (d.height.toNat < y + h + 32)

/-- The LEDGER groups that contain a pixel of a region (R383). -/
def groupsIn (width x y w h : Nat) : List Nat :=
  dedup ((List.range h).flatMap (fun j =>
    let a := (y + j) * width + x
    (List.range ((a + w - 1) / 512 + 1 - a / 512)).map (fun k => a / 512 + k)))

/-! ### The ledger -/

def ledgerPage (g k : Nat) : Nat := 640 + 8 * g + k

/-- The 512 bytes of a group. -/
def ledgerData (f : Firn) (g : Nat) : List Byte := (List.range 8).flatMap (fun k => padTo 64 (storedData f (ledgerPage g k)))

/-- The panel as an update sees it: the LUTs and the map that stood when it started (R376, R380). -/
def updatePanel (d : Display) (u : Update) : Display := { d with luts := u.luts, unif := u.unif }

/-- A pixel lies in the region of an update. -/
def inRegion (u : Update) (x y : Nat) : Bool :=
  decide (u.x ≤ x) && decide (x < u.x + u.w) && decide (u.y ≤ y) && decide (y < u.y + u.h)

/-- The shape that drives a pixel (R378); 0 = not driven. -/
def pixelShape (d : Display) (u : Update) (x y : Nat) : Nat :=
  if !inRegion u x y then 0
  else
    let l := (bandLut (updatePanel d u) (pixelBand (updatePanel d u) u.band.val x y)).getD []
    let i := y * d.width.toNat + x
    let p := (memGet 0 d.shown i).toNat
    let n := (memGet 0 u.copied i).toNat
    match u.typ.toNat with
    | 0 => if p = n then 0 else lutTrans l p n
    | 1 => lutTrans l p n
    | 2 => lutTrans l p 0
    | _ => lutClr l

/-- The net DC that an update adds to a pixel whose ledger reads v (R377). -/
def pixelDc (d : Display) (u : Update) (x y : Nat) (v : Int) : Int :=
  let k := pixelShape d u x y
  if k = 0 then 0
  else
    let net := shapeNet ((bandLut (updatePanel d u) (pixelBand (updatePanel d u) u.band.val x y)).getD []) k
    if v ≤ 0 then net else -net

/-- A group's ledger with the update's whole contribution added (R383). -/
def ledgerAfter (d : Display) (u : Update) (f : Firn) (g : Nat) : List Byte :=
  let w := d.width.toNat
  (ledgerData f g).zipIdx.map (fun e =>
    let i := 512 * g + e.2
    let v := e.1.toInt
    if w = 0 then e.1 else BitVec.ofInt 8 (v + pixelDc d u (i % w) (i / w) v))

/-- What a pixel receives in frame f: 0 V, +15 V or −15 V (R371, R377, R381), in the variant chosen at the start. -/
def pixelCode (d : Display) (u : Update) (x y f : Nat) : Nat :=
  let k := pixelShape d u x y
  let l := (bandLut (updatePanel d u) (pixelBand (updatePanel d u) u.band.val x y)).getD []
  if k = 0 ∨ lutN l ≤ f then 0
  else
    let c := lutFrame l k f
    if u.neg.contains (y * d.width.toNat + x) then (if c = 1 then 2 else if c = 2 then 1 else 0) else c

/-- The pixels of a region that take the negative variant: their ledger reads above 0 (R377). -/
def negPixels (d : Display) (f : Firn) (x y w h : Nat) : List Nat :=
  let width := d.width.toNat
  (groupsIn width x y w h).flatMap (fun g => ((ledgerData f g).zipIdx.filter (fun e =>
    let i := 512 * g + e.2
    decide (0 < e.1.toInt) && decide (x ≤ i % width) && decide (i % width < x + w) && decide (y ≤ i / width) &&
      decide (i / width < y + h))).map (fun e => 512 * g + e.2))

/-! ### The display record (R382) -/

def recState (r : List Byte) : Nat := leAt r 4 1
def recId (r : List Byte) : Nat := leAt r 0 4
def recStop (r : List Byte) : Nat := leAt r 5 1

/-- PARITY: bit 0 of the GSEQ that each group's store will carry. -/
def parityBytes (f : Firn) (groups : List Nat) : List Byte :=
  (List.range 38).map (fun b => BitVec.ofNat 8 (((List.range 8).filter (fun k =>
    groups.contains (8 * b + k) && (nextGseq f (640 + 8 * (8 * b + k))).getLsbD 0)).map (fun k => 2 ^ k)).sum)

def prepRecord (f : Firn) (u : Update) : List Byte :=
  padTo 64 (leBytes 4 u.id.toNat ++ leBytes 1 1 ++ leBytes 1 0xFF ++ leBytes 1 u.band.val ++ [u.typ] ++ leBytes 2 u.x ++ leBytes 2 u.y ++
    leBytes 2 u.w ++ leBytes 2 u.h ++ leBytes 1 u.frames ++ leBytes 1 0 ++ parityBytes f u.groups)

def doneRecord (r : List Byte) : List Byte := overlay (padTo 64 r) 4 (leBytes 1 2)

def setStop (n : Nat) (r : List Byte) : List Byte := overlay (padTo 64 r) 5 (leBytes 1 n)

/-! ### Bands (R379) -/

/-- The band that TAUX selects. -/
def bandOf (d : Display) (code : Nat) : Nat :=
  ((List.range 7).filter (fun k => match bandLut d (k + 1) with
    | some l => decide (code ≤ lutEntry l)
    | none => false)).foldl (fun a k => max a (k + 1)) 0

/-- The band that a new update latches, and STALE. -/
def chooseBand (s : State) : Fin 8 × Bool :=
  let i := s.aux.inputs[Fin.ofNat 16 s.disp.taux.toNat]
  let fresh := match i.tick with | some k => decide (s.time.ticks ≤ k + 320000) && !s.stalled 9 | none => false
  if fresh then (Fin.ofNat 8 (bandOf s.disp i.result.toNat), false)
  else (if s.disp.bandUsed then Fin.ofNat 8 s.disp.band.toNat else 3, true)

/-! ### Updates -/

/-- Copied levels of a region of the draw plane; 0 for a clear or a repair (R378). -/
def copyRegion (d : Display) (typ x y w h : Nat) : Memory :=
  if 2 ≤ typ then []
  else d.draw.filter (fun c =>
    let px := c.1 % max d.width.toNat 1
    let py := c.1 / max d.width.toNat 1
    decide (x ≤ px) && decide (px < x + w) && decide (y ≤ py) && decide (py < y + h))

/-- A native update begins (R383): band latched, region copied, the record set to PREP. -/
def beginUpdate (typ x y w h : Nat) (s : State) : State :=
  let b := chooseBand s
  let d := s.disp
  let u : Update :=
    { id := BitVec.ofNat 32 (recId d.record + 1), typ := BitVec.ofNat 8 typ, x := x, y := y, w := w, h := h,
      frames := updateFrames d b.1.val x y w h, frame := 0, stage := .record, band := b.1,
      copied := copyRegion d typ x y w h, groups := groupsIn d.width.toNat x y w h, luts := d.luts, unif := d.unif,
      neg := negPixels d s.firn x y w h }
  s.modDisp (fun d => { d with upd := some u, record := prepRecord s.firn u, band := BitVec.ofNat 3 b.1.val, bandUsed := true,
                               stale := b.2, st := if typ = 3 then dRepair else dPrep })

/-- The shown plane when an update ends (R378). -/
def shownAfter (d : Display) (u : Update) : Memory :=
  let keep := d.shown.filter (fun c => !inRegion u (c.1 % max d.width.toNat 1) (c.1 / max d.width.toNat 1))
  (u.copied.foldl (fun m c => memPut 0 m c.1 c.2) keep)

/-- The legacy copies that a scan takes (R389); a clear leaves its region 0 (R378). -/
def legacyScan (d : Display) : Display :=
  let d := d.legacyCopy.foldl (fun d r =>
    let (typ, x, y, w, h) := r
    let u : Update := { id := 0, typ := BitVec.ofNat 8 typ, x := x, y := y, w := w, h := h, frames := 0, frame := 0,
                        stage := .finish, band := 0, copied := copyRegion d typ x y w h, groups := [] }
    { d with shown := shownAfter d u }) d
  { d with legacyCopy := [] }

/-- POL of a word (R389). -/
def legacyPol (inv w r f : Nat) : Nat := match inv with | 0 => f % 2 | 1 => (r + f) % 2 | _ => (w + r + f) % 2

/-- The words of a legacy frame on DB (R371, R389). -/
def legacyWords (d : Display) (f : Nat) : List Byte :=
  (List.range d.height.toNat).flatMap (fun r => (List.range ((d.width.toNat + 2) / 3)).flatMap (fun w =>
    let px : Nat → Nat := fun k => if 3 * w + k < d.width.toNat then (memGet 0 d.shown (r * d.width.toNat + 3 * w + k)).toNat % 16 else 0
    leBytes 2 (px 0 + 16 * px 1 + 256 * px 2 + 32768 * legacyPol d.inv.toNat w r f)))

/-- The words of a native frame on DB (R371). -/
def nativeWords (d : Display) (u : Update) (k : Nat) : List Byte :=
  let w := d.width.toNat
  (List.range d.height.toNat).flatMap (fun r => (List.range ((w + 7) / 8)).flatMap (fun j =>
    leBytes 2 (((List.range 8).map (fun b => if 8 * j + b < w then pixelCode d u (8 * j + b) r k * 4 ^ b else 0)).sum)))

/-- The frame period of an update in ticks (R372, R381): FRAME_MS of the latched band. -/
def framePeriod (d : Display) (u : Update) : Nat := 32 * lutFrameMs ((bandLut (updatePanel d u) u.band.val).getD [])

/-- The controller stops an update (R385): the stop frame is recorded, the outputs fall. An applied frame is one whose scan
is complete. -/
def stopUpdate (st : BitVec 3) (d : Display) : Display :=
  match d.upd with
  | none => { d with dpwrEn := false, doe := false, st := if d.mode = 0 then dOff else st }
  | some u =>
    let running := decide (u.stage = .frames)
    let lost := if running then u.frames - (u.frame + 1) else u.frames
    { d with upd := none, dpwrEn := false, doe := false, st := st,
             record := if running then setStop u.frame d.record else d.record,
             lostFrames := satAdd d.lostFrames (if decide (u.stage = .finish) then 0 else lost) }

/-! ### Correction at start-up (R386) -/

def recUpdate (r : List Byte) : Update :=
  { id := BitVec.ofNat 32 (recId r), typ := BitVec.ofNat 8 (leAt r 7 1), x := leAt r 8 2, y := leAt r 10 2, w := leAt r 12 2, h := leAt r 14 2,
    frames := leAt r 16 1, frame := 0, stage := .finish, band := Fin.ofNat 8 (leAt r 6 1), copied := [],
    groups := [] }

/-- The shape of a band whose net DC has a magnitude (R374). -/
def shapeWithNet (l : List Byte) (n : Nat) : Option Nat :=
  ((List.range 15).map (· + 1)).find? (fun k => (namedShapes l).contains k && decide (shapeNet l k = n))

/-- The corrected ledger byte of a pixel with contribution c (R386). -/
def correctByte (d : Display) (r : List Byte) (i : Nat) (now old : Byte) : Byte :=
  let c := now.toInt - old.toInt
  if c = 0 ∨ d.width = 0 then now
  else
    let l := (bandLut d (pixelBand d (leAt r 6 1) (i % d.width.toNat) (i / d.width.toNat))).getD []
    match shapeWithNet l c.natAbs with
    | none => now
    | some k =>
      let first := if recStop r = 0xFF then 0 else recStop r + 1
      let u := (if c < 0 then -1 else 1) * shapeDcFrom l k first
      BitVec.ofInt 8 (now.toInt - u)

/-- One member page of a group under correction: its new bytes, and whether it stays uncorrected. -/
def correctPage (f : Firn) (d : Display) (r : List Byte) (g k : Nat) : List Byte × Bool :=
  let p := ledgerPage g k
  match inUse f p with
  | none => (leBytes 64 0, true)
  | some b =>
    let cur := slotBytes f p b
    let other := slotBytes f p (!b)
    if slotCounts p other && decide (slotGseq other + 1 = slotGseq cur) then
      ((slotData cur).zipIdx.map (fun e => correctByte d r (512 * g + 64 * k + e.2) e.1 ((slotData other).getD e.2 0)), false)
    else (slotData cur, true)

/-- The store of group g named by the record completed: bit 0 of its GSEQ equals PARITY[g]. -/
def parityMet (f : Firn) (r : List Byte) (g : Nat) : Bool :=
  match inUse f (ledgerPage g 0) with
  | some b => decide ((slotGseq (slotBytes f (ledgerPage g 0) b)).toNat % 2 = bitsN (leAt r (18 + g / 8) 1) (g % 8) (g % 8))
  | none => false

/-- The groups to be corrected, with their new images and the number of uncorrected members. -/
def corrections (s : State) : List (Nat × List Byte × Nat) :=
  let r := s.disp.record
  let u := recUpdate r
  ((groupsIn s.disp.width.toNat u.x u.y u.w u.h).filter (parityMet s.firn r)).map (fun g =>
    let ps := (List.range 8).map (correctPage s.firn s.disp r g)
    (g, ps.flatMap (·.1), (ps.filter (·.2)).length))

/-! ### Crevasse -/

/-- A CREVASSE reading (R390): two readings at or above 2 kΩ open the loop; readings below it count toward closing. -/
def crevReading (code : Nat) (d : Display) : Display × Bool :=
  let d := { d with crevReads := min 2 (d.crevReads + 1) }
  if 20000 ≤ code then
    let run := d.crevRun + 1
    ({ d with crevRun := run, crevGood := 0, crevOpen := d.crevOpen || decide (2 ≤ run) }, decide (2 ≤ run) && !d.crevOpen)
  else ({ d with crevRun := 0, crevGood := if d.crevOpen then d.crevGood + 1 else 0 }, false)

/-- DISP_STAT's fields as bytes of DISP_STATUS (R393). -/
def dispStateByte (d : Display) : Nat := d.st.toNat

end Sys2Proof.Machine
end

