-- ==== Sys2Proof/Machine/Changes.lean ====
section
/-! DEFINITION. What each store covers and what it brings into effect: the pages of a change, what happens when its store
starts (R135), the registers it writes when the store is complete (R313), and the stores that follow it. -/

namespace Sys2Proof.Machine

/-! ### Pages -/

/-- The pages of a change, in the order in which a bank takes them. -/
def changePages : Change → List Nat
  | .lifecycle _ _ _ _ => [0, 1]
  | .cirMap _ _ => (List.range 8).map (· + 76)
  | .cirScaleLog _ _ _ => (List.range 7).map (· + 59)
  | .cirScale _ _ _ => (List.range 8).map (· + 84)
  | .cirLimits _ _ _ => (List.range 8).map (· + 92)
  | .calCommit (.cir _) => (List.range 7).map (· + 59)
  | .calCommit (.vset _) => (List.range 3).map (· + 66)
  | .traceRef _ => (List.range 7).map (· + 69)
  | .trims _ => (List.range 7).map (· + 69)
  | .trimLim _ => (List.range 7).map (· + 69)
  | .trcWrite _ _ _ _ => (List.range 8).map (· + 100)
  | .vset _ _ _ _ _ => (List.range 8).map (· + 100)
  | .channel _ _ _ _ => (List.range 8).map (· + 100)
  | .clkCfg _ => [109]
  | .ltrim _ => [109]
  | .legalParams _ _ _ _ => [109]
  | .tcomp _ => [108]
  | .tcTable _ => [425]
  | .asym _ _ _ => [111]
  | .epochStart => [111]
  | .stepEpoch _ => [111]
  | .ringHcfg _ => [427]
  | .addrRelease a => (List.range 4).map (· + (177 + 4 * a.val))
  | .balGroup g _ => [493 + g.val]
  | .mirror a _ => (List.range 4).map (· + (177 + 4 * a.val))
  | .mirrorApply _ _ _ => (List.range 8).map (· + 76) ++ (List.range 8).map (· + 100)
  | .plcCfg _ => [113]
  | .plcBase _ => [113]
  | .nodeEnrol i _ => [114 + i.val / 4, 113]
  | .nodeRetire i => [114 + i.val / 4, 113]
  | .dispCfg _ => [439]
  | .lut b _ => (List.range 6).map (· + (440 + 6 * b.val)) ++ [439]
  | .unif _ _ => (List.range 5).map (· + 488) ++ [439]
  | .dispPrep => [110]
  | .dispDone => [110]
  | .ledger g _ _ => (List.range 8).map (ledgerPage g)
  | .legalItems _ => [438]
  | .auxSeq _ _ _ _ => (List.range 8).map (· + 92)
  | .auxWin _ _ _ _ => (List.range 8).map (· + 92)
  | .s0Cfg _ _ _ => (List.range 8).map (· + 92)
  | .cf _ _ _ => (List.range 8).map (· + 76)
  | .user p bs => (List.range (bs.length / 64)).map (· + p)
  | .runLogStart => [112]
  | .logHist cnt _ => [histPage cnt.toNat]
  | .page p => [p]
  | .matchPages => [52, 53, 54]
  | .checkpoint => (List.range 50).map (· + 2) ++ [421, 422, 424]
  | .refresh p => [p]
  | .save => []

/-- Bytes that a bulk store carries with its request (R162). -/
def bulkImage (f : Firn) (p : Nat) : Change → Option (List Byte)
  | .ledger g data _ => some (pageOf data (p - ledgerPage g 0))
  | .user p0 bs => some (pageOf bs (p - p0))
  | .logHist cnt e => some (histImage f cnt.toNat e)
  | .refresh q => some (padTo 64 (storedData f q))
  | _ => none

/-- The rank of a change's store (R177). -/
def changeRank : Change → Nat
  | .save => 1
  | .checkpoint => 2
  | .ledger _ _ _ => 4
  | .refresh _ => 5
  | _ => 3

/-- A member that waits for others of its request: USER pages go one by one in ascending order (R324), and the directory page
goes last (R375). -/
def memberWaits (ch : Change) (page : Nat) (done : Nat → Bool) (pages : List Nat) : Bool :=
  match ch with
  | .user _ _ => !(pages.filter (· < page)).all done
  | .lut _ _ => decide (page = 439) && !(pages.filter (· ≠ 439)).all done
  | .unif _ _ => decide (page = 439) && !(pages.filter (· ≠ 439)).all done
  | _ => false

/-! ### The legal log (R135, R143) -/

/-- The next log entry; TIME and LEGAL are those of the start of the store. -/
def newEntry (kind target : Nat) (mask : Word) (s : State) : LogEntry :=
  { cnt := s.cal.cnt + 1, kind := BitVec.ofNat 8 kind, target := BitVec.ofNat 8 target, chanMask := mask, time := s.stamp,
    legal := s.clk.legal.count }

def maskOfPorts (l : List (Fin 24)) : Word := BitVec.ofNat 32 ((dedup l).map (fun p => 2 ^ p.val)).sum

inductive LogGroup where
  | i | v | t
  deriving DecidableEq, Repr

/-- The entry goes into its group's header. -/
def putEntry (g : LogGroup) (e : LogEntry) (s : State) : State :=
  s.modCal (fun k => match g with
    | .i => { k with cnt := e.cnt, lastI := some e }
    | .v => { k with cnt := e.cnt, lastV := some e }
    | .t => { k with cnt := e.cnt, lastT := some e })

def targetNo : CalTarget → Nat
  | .cir c => c.val + 1
  | .vset b => 1 + bitN b

def modTxn (t : CalTarget) (f : Txn → Txn) (s : State) : State :=
  s.modCal (fun k => { k with txns := k.txns.map (fun u => if u.target = t then f u else u) })

def findTxn (s : State) (t : CalTarget) : Option Txn := s.cal.txns.find? (fun u => decide (u.target = t))

/-- What the start of a store changes (R135, R185). -/
def startChange (ch : Change) (s : State) : State :=
  match ch with
  | .calCommit t =>
    match findTxn s t with
    | none => s
    | some u =>
      let e := newEntry (match t with | .cir _ => 1 | .vset _ => 2) (targetNo t) u.loaded s
      modTxn t (fun u => { u with st := .storing, cnt := e.cnt })
        (putEntry (match t with | .cir _ => .i | .vset _ => .v) e s)
  | .cirScaleLog c _ _ => putEntry .i (newEntry 5 (c.val + 1) 0 s) s
  | .traceRef refs => putEntry .t (newEntry 4 0 (maskOfPorts (refs.map (·.1))) s) s
  | .trims l => putEntry .t (newEntry 3 0 (maskOfPorts (l.map (·.1))) s) s
  | .trimLim _ => putEntry .t (newEntry 6 0 0 s) s
  | .runLogStart => s.modFirn (fun f => { f with runLog := padTo 64 (leBytes 4 (leAt f.runLog 0 4 + 1) ++ leBytes 1 1) })
  | _ => s

/-! ### Registers written -/

def setPort (p : Fin 24) (f : Port → Port) (s : State) : State := takeIfFree p (s.modPort p f)

def setCircuit (c : Fin 24) (f : Circuit → Circuit) (s : State) : State := takeIfDisabled c (s.modCir c f)

/-- A new map (R52, R319): every word is written, then the changes that may take effect at once do. -/
def writeMap (cir : List (Fin 24 × Word)) (port : List (Fin 24 × Word)) (s : State) : State :=
  let s := s.forEach cir (fun e s => s.modCir e.1 (fun r => { r with cfgW := e.2 }))
  let s := reviseMarks s
  let s := s.forEach port (fun e s => s.modPort e.1 (fun r => { r with cfgW := e.2 }))
  let s := s.forEach (fins 24) (fun c s => takeIfDisabled c s)
  s.forEach (fins 24) (fun p s => takeIfFree p s)

/-- TRCn_CFG with the selected fields (R153, R320): SEL bit 0 EN, 1 FREQ, 2 AUTO, 3 AVG. -/
def trcMerge (sel : BitVec 5) (new old : Word) : Word :=
  let pick : Nat → Nat → Nat → Nat := fun k hi lo => bitsN (if sel.getLsbD k then new else old).toNat hi lo
  BitVec.ofNat 32 (pick 0 0 0 + 2 * pick 1 3 1 + 16 * pick 2 4 4 + 256 * pick 3 11 8)

/-- The Tracer's registers written: EN to 1 or a new FREQ starts a RAMP, EN = 0 switches the pilot off (R150). -/
def trcApply (sel : BitVec 5) (cfg rs : Word) (r : Port) : Port :=
  let old := r.tracer.cfg
  let new := trcMerge sel cfg old
  let r := { r with tracer := { r.tracer with cfg := new, rsNom := if sel.getLsbD 4 then rs else r.tracer.rsNom } }
  if trcEn new = trcEn old ∧ trcFreq new = trcFreq old then r else tracerStart r

/-- The ports that a change takes at their circuit's next close, or at once (R155, R156). -/
def touchPorts (l : List (Fin 24)) (s : State) : State :=
  let s := s.forEach l (fun p s => takeIfFree p s)
  s.forEach (fins 24) (fun c s => takeIfDisabled c s)

/-- A CAL_T store restarts the count of accepted periods (R156). -/
def calTStored (s : State) : State :=
  { s with ports := s.ports.map (fun (r : Port) => { r with tracer := { r.tracer with accepted := [] } }) }

/-- TRIM limits as factors of 2^30 (R156). -/
def trimBounds (lim : Nat) : Int × Int :=
  (roundDiv ((1000000 - lim : Int) * 2 ^ 30) 1000000, roundDiv ((1000000 + lim : Int) * 2 ^ 30) 1000000)

def clampTrim (lim : Nat) (w : Word) : Word := BitVec.ofInt 32 (clampInt (trimBounds lim).1 (trimBounds lim).2 w.toNat)

/-- Ports whose trim deviates by more than a limit (R158). -/
def beyondLimit (lim : Nat) (s : State) : List (Fin 24) :=
  (fins 24).filter (fun p => decide (clampTrim lim (storedTrim s.ports[p].tracer) ≠ storedTrim s.ports[p].tracer))

/-- The debug level is permitted in a lifecycle state (R431). -/
def debugOk (l : Lifecycle) (d : BitVec 2) : Bool := !(decide (l = .sealed) && decide (d = 2))

/-- The lifecycle transition takes effect (R420, R422, R423, R429). -/
def applyLifecycle (target : Lifecycle) (unsealing : Bool) (time : Stamp) (legal : BitVec 48) (s : State) : State :=
  let breaks := if unsealing then satAdd s.sec.sealBreaks 1 else s.sec.sealBreaks
  let s := s.modSec (fun k => { k with
    state := target, sealBreaks := breaks, transition := time,
    unseals := if unsealing then ((breaks, legal) :: k.unseals).take 4 else k.unseals,
    fuseOpened := k.fuseOpened || decide (k.state = .factory ∧ target = .opened),
    fuseRetired := k.fuseRetired || decide (target = .retired),
    lock := decide (target = .sealed) || decide (target = .retired) })
  let s := if target = .sealed then
      s.modCal (fun k => { k with txns := k.txns.map (fun t => if t.st = .opened then { t with st := .stale } else t) })
    else s
  let s := if debugOk target s.sec.debug then s else dropDebug s
  (s.forEach (fins 24) (fun c s => takeIfDisabled c s)).raise irqLifecycle

/-- The store of a commit is complete (R136): ARMED, and what may swap at once does. -/
def armTxn (t : CalTarget) (s : State) : State :=
  match t with
  | .cir c => takeIfDisabled c (modTxn t (fun u => { u with st := .armed }) s)
  | .vset b =>
    let on := (fins 24).filter (fun c => decide (cirSet s.circuits[c].cfg = bitN b))
    let left : BitVec 24 := on.foldl (fun m c => m ||| BitVec.ofNat 24 (2 ^ c.val)) 0
    let s := modTxn t (fun u => { u with st := .armed, left := left, pqLeft := true }) s
    let s := s.forEach on (fun c s => takeIfDisabled c s)
    applyIfOff (Fin.ofNat 2 (bitN b)) s

/-- New PQ parameters of a set (R91): EN = 0 applies them at once; NOMF reaches the circuits at their own closes. -/
def writeSet (b : Fin 2) (f : PqSet → PqSet) (s : State) : State :=
  let s := applyIfOff b (s.modSet b f)
  s.forEach ((fins 24).filter (fun c => decide (cirSet s.circuits[c].cfg = b.val))) (fun c s => takeIfDisabled c s)

/-- The display's registers after a DISP_CFG (R391). -/
def takeDispCfg (bs : List Byte) (d : Display) : Display :=
  let mode := BitVec.ofNat 2 (leAt bs 0 1)
  { d with mode := mode, inv := BitVec.ofNat 2 (leAt bs 1 1), width := BitVec.ofNat 16 (leAt bs 2 2),
           height := BitVec.ofNat 16 (leAt bs 4 2), taux := BitVec.ofNat 3 (leAt bs 6 1), pendCfg := none,
           st := if mode = 0 then dOff else if d.crevOpen then dNoPanel else dIdle,
           dpwrEn := decide (mode = 2), legacyCopy := [] }

/-- The ledger is zeroed and the repair falls due (R390, R391). -/
def panelNew (d : Display) : Display :=
  { d with record := doneRecord d.record, repairDue := decide (d.mode = 1), crevNew := decide (d.mode = 1) }

/-- A DISP_CFG takes effect once no update runs (R391). -/
def applyDispCfg (d : Display) : Display :=
  match d.pendCfg with
  | some bs =>
    let geo := decide (leAt bs 0 1 ≠ d.mode.toNat) || decide (leAt bs 2 2 ≠ d.width.toNat) || decide (leAt bs 4 2 ≠ d.height.toNat)
    if geo then
      match d.upd with
      | some _ => d
      | none => panelNew (takeDispCfg bs d)
    else { d with inv := BitVec.ofNat 2 (leAt bs 1 1), taux := BitVec.ofNat 3 (leAt bs 6 1), pendCfg := none }
  | none => d

/-- PLC_CFG written (R326). -/
def takePlcCfg (bs : List Byte) (p : Plc) : Plc :=
  { p with en := bitB (leAt bs 0 1) 0, txAtt := BitVec.ofNat 8 (leAt bs 1 1), poll := BitVec.ofNat 16 (leAt bs 2 2),
           fixedMaps := bitB (leAt bs 4 1) 0,
           mode := if bitB (leAt bs 0 1) 0 then (if p.mode = 0 then 1 else p.mode) else 0 }

/-- The registers that a change writes once its store is complete (R313). A CF_WRITE counts as a change of its output also where it carries
the values held (DEDUCED: R463 names no exception as R56 does for CIR_SCALE; assumption log row 68). -/
def applyChange (ch : Change) (s : State) : State :=
  match ch with
  | .lifecycle t u time legal => applyLifecycle t u time legal s
  | .cirMap cir port => (writeMap cir port s).modRing (fun r => { r with mirrorDue := true })
  | .cirScaleLog _ _ _ => s
  | .cirScale c q p =>
    (setCircuit c (fun r => { r with quantumW := q, pfsW := p, keW := BitVec.ofNat 64 (keOf p.toNat q.toNat), clear := true }) s).modRing
      (fun r => { r with mirrorDue := true })
  | .cirLimits c z nl => (setCircuit c (fun r => { r with zcToW := z, nlW := nl }) s).modRing (fun r => { r with mirrorDue := true })
  | .calCommit t => armTxn t s
  | .traceRef refs =>
    touchPorts (refs.map (·.1)) (calTStored (s.forEach refs (fun e s => s.modTracer e.1 (fun r =>
      { r with refNext := some e.2, trimNext := some 0x40000000 }))))
  | .trims l => touchPorts (l.map (·.1)) (calTStored (s.forEach l (fun e s => s.modTracer e.1 (fun r => { r with trimNext := some e.2 }))))
  | .trimLim lim =>
    let ps := beyondLimit lim.toNat s
    touchPorts ps (calTStored (s.forEach ps (fun p s => s.modTracer p (fun r => { r with trimNext := some (clampTrim lim.toNat (storedTrim r)) })))
      |>.modCal (fun k => { k with trimLim := lim }))
  | .trcWrite mask sel cfg rs =>
    (s.forEach ((fins 24).filter (fun p => mask.getLsbD p.val)) (fun p s => s.modPort p (trcApply sel cfg rs))).modRing
      (fun r => { r with mirrorDue := true })
  | .vset b sel cfg udin evt =>
    (writeSet b (fun q => { q with cfgW := if sel.getLsbD 0 then cfg else q.cfgW, udinW := if sel.getLsbD 1 then udin else q.udinW,
                                   evtW := if sel.getLsbD 2 then evt else q.evtW }) s).modRing (fun r => { r with mirrorDue := true })
  | .channel ch sel fe il =>
    let s := s.modPq (fun u => { u with
      chFeW := if sel.getLsbD 0 then vmod u.chFeW ch (fun _ => fe) else u.chFeW,
      ilW := if sel.getLsbD 1 then vput u.ilW ch.val (fun _ => il) else u.ilW })
    (s.forEach (fins 2) (fun b s => applyIfOff b s)).modRing (fun r => { r with mirrorDue := true })
  | .clkCfg v =>
    s.modClk (fun k => { k with
      cfg := v, tcFallback := clkTcSrc v && (k.tcFallback || !clkTcSrc k.cfg), ctheta := if clkTcEn v then k.ctheta else 0,
      chgOn := if clkChgEn k.cfg then chargerAt k.chgOn v k.vbakMv else chargerStart v k.vbakMv })
  | .ltrim v => s.modClk (fun k => { k with ltrim := v })
  | .legalParams sel base slew bill =>
    s.modClk (fun k => { k with base := if sel.getLsbD 0 then base else k.base, slewCfg := if sel.getLsbD 1 then slew else k.slewCfg,
                                billCfgW := if sel.getLsbD 2 then bill else k.billCfgW })
  | .tcomp bs => s.modClk (fun k => { k with tcomp := bs })
  | .tcTable bs => s.modClk (fun k => { k with tcTable := bs })
  | .asym sel a b =>
    s.modRing (fun r => { r with portA := if sel.getLsbD 0 then { r.portA with asym := a } else r.portA,
                                 portB := if sel.getLsbD 1 then { r.portB with asym := b } else r.portB })
  | .epochStart =>
    s.modTime (fun t => { t with startStored := true, startWorn := false, syncOk := true, mode := if t.mode = .free then .pull else t.mode })
  | .stepEpoch delta =>
    let at_ := (s.nowNs + 5000000 + 999999) / 1000000 * 1000000
    s.modTime (fun t => { t with step := some { at_ := at_, delta := delta, epoch := t.epoch + 1, sends := 3 }, stepStore := false })
  | .ringHcfg v => s.modRing (fun r => { r with hcfg := v })
  | .addrRelease a =>
    setMirror a [] (s.modRing (fun r => reorder { r with roster := vmod r.roster a (fun _ => RosterEntry.reset), enumDue := true }))
  | .balGroup g desc => s.modRing (fun r => { r with groups := vmod r.groups g (fun e => { e with desc := desc, run := 0, alarm := false }) })
  | .mirror a entry => setMirror a entry s
  | .mirrorApply cir port vs =>
    let s := writeMap cir port s
    let s := s.forEach (fins 2) (fun b s => writeSet b (fun q => { q with cfgW := vs.getD b.val q.cfgW, udinW := vs.getD (2 + b.val) q.udinW }) s)
    s.modRing (fun r => { r with mirrorDue := true })
  | .plcCfg bs => s.modPlc (takePlcCfg bs)
  | .plcBase v => s.modPlc (fun p => { p with base := v, baseStored := true })
  | .nodeEnrol i id => s.modPlc (fun p => { p with pendNodes := p.pendNodes.filter (fun e => e.1 != i) ++ [(i, some id)] })
  | .nodeRetire i => s.modPlc (fun p => { p with pendNodes := p.pendNodes.filter (fun e => e.1 != i) ++ [(i, none)],
                                                 leaves := p.leaves ++ [(i, (p.nodes[i]).id)] })
  | .dispCfg bs => auxSync (s.modDisp (fun d => applyDispCfg { d with pendCfg := some bs }))
  | .lut b bs => s.modDisp (fun d => { d with luts := vmod d.luts b (fun _ => some bs) })
  | .unif ofs bs => s.modDisp (fun d => { d with unif := memPuts 0 d.unif ofs bs })
  | .dispPrep => s.modDisp (fun d => { d with upd := d.upd.map (fun u => { u with stage := .ledger }) })
  | .dispDone => s
  | .ledger _ _ _ => s
  | .legalItems m => s.modDisp (fun d => { d with legalMask := m, stripDue := d.stripDue || decide (m ≠ 0) })
  | .auxSeq inj low list period =>
    auxSync (s.modAux (fun a =>
      let a := if inj then { a with injected := list, injPeriod := period } else { a with regular := list, regPeriod := period }
      if low = a.lowPower then { a with lowPowerPend := none } else { a with lowPowerPend := some low }))
  | .auxWin i en low high =>
    s.modAuxIn i (fun r => { r with low := low, high := high, en := en, outside := if en && r.en then r.outside else none,
                                    flag := r.flag && en })
  | .s0Cfg i en d => auxSync (s.modS0 i (fun r => { r with pendCfg := some (en, d) }))
  | .cf o cfg qpp =>
    let s := s.modCf o (fun r => { r with cfgW := cfg, qppW := qpp, change := true })
    match cfChangeCircuit s s.cfs[o] with
    | some _ => s
    | none => s.modCf o cfApply
  | .user _ _ => s
  | .runLogStart => s
  | .logHist _ _ => s
  | .page _ => s
  | .matchPages => s
  | .checkpoint => s
  | .refresh _ => s.modFirn (fun f => { f with refreshes := satAdd f.refreshes 1 })
  | .save => s

/-- The state whose registers the store's images show: what the change will have written. -/
def imageState (ch : Change) (s : State) : State :=
  match ch with
  | .epochStart => s
  | .calCommit _ => s
  | .dispPrep => s
  | .dispDone => s
  | _ => applyChange ch s

/-- A panel that counts as new: every LEDGER byte becomes 0 and the record is stored as DONE (R390, R391). -/
def renewStores : List (Change × Bool) := (List.range 300).map (fun g => (.ledger g (leBytes 512 0) 2, false)) ++ [(.dispDone, false)]

/-- The stores that follow a completed change, each with whether it keeps the command that waits (R145, R146, R383, R390). -/
def followUps (ch : Change) (s : State) : List (Change × Bool) :=
  let hist : Option LogEntry → List (Change × Bool) := fun e => match e with
    | some e => [(.logHist e.cnt (entryBytes e), false)]
    | none => []
  match ch with
  | .calCommit (.cir _) => hist s.cal.lastI
  | .calCommit (.vset _) => hist s.cal.lastV
  | .cirScaleLog c q p => (.cirScale c q p, true) :: hist s.cal.lastI
  | .traceRef _ => hist s.cal.lastT
  | .trims _ => hist s.cal.lastT
  | .trimLim _ => hist s.cal.lastT
  | .dispPrep =>
    match s.disp.upd with
    | some u => u.groups.map (fun g => (.ledger g (ledgerAfter s.disp u s.firn g) 0, false))
    | none => []
  | .dispCfg _ => if s.disp.crevNew && decide (s.disp.upd = none) then renewStores else []
  | _ => []

def txnCode : TxnState → Nat
  | .opened => 0 | .deferred => 1 | .storing => 2 | .armed => 3 | .done => 4 | .stale => 0

/-- The payload of the OK response of a command whose effect is a store (R316, R317, R320, R326, R327). -/
def okPayload (ch : Change) (s : State) : List Byte :=
  match ch with
  | .lifecycle .sealed _ _ _ => leBytes 4 s.sec.sealBreaks.toNat
  | .lifecycle .opened true _ _ => leBytes 4 s.sec.sealBreaks.toNat
  | .cirScaleLog _ _ _ => leBytes 4 s.cal.cnt.toNat
  | .cirScale _ _ _ => leBytes 4 s.cal.cnt.toNat
  | .calCommit t =>
    match s.cal.txns.find? (fun u => decide (u.target = t)) with
    | some u => leBytes 1 (txnCode u.st)
    | none => leBytes 1 (txnCode .done)
  | .traceRef _ => leBytes 4 s.cal.cnt.toNat
  | .trimLim _ => leBytes 4 s.cal.cnt.toNat
  | .nodeEnrol i _ => leBytes 1 (i.val + 1)
  | .dispPrep => leBytes 4 (recId s.disp.record)
  | .stepEpoch _ =>
    match s.time.step with
    | some p => (s.stampAt p.at_).bytes ++ leBytes 1 p.epoch.toNat
    | none => leBytes 13 0
  | _ => []

/-- What a failed store leaves (R169, R227, R239, R383). -/
def failChange (ch : Change) (s : State) : State :=
  match ch with
  | .calCommit t => modTxn t (fun u => { u with st := .opened }) s
  | .epochStart => s.modTime (fun t => { t with startWorn := true })
  | .stepEpoch _ => s.modTime (fun t => { t with stepStore := false })
  | .dispPrep => s.modDisp (fun d => { d with upd := none, record := doneRecord d.record, st := dIdle })
  | .plcBase _ => s.modPlc (fun p => { p with baseStored := true })
  | _ => s

end Sys2Proof.Machine
end

