-- ==== Sys2Proof/Machine/FirnOps.lean ====
section
/-! DEFINITION. The Firn store at work: requests and the Kettle check (R174), banks (R177, R178), page stores (R164, R169),
group completion (R172, R173), the answer to the command that waits (R313), and the power-fail save (R179 to R184). -/

namespace Sys2Proof.Machine

/-! ### Requests -/

def findReq (s : State) (id : Nat) : Option StoreReq := s.firn.reqs.find? (fun r => r.id == id)

def modReq (id : Nat) (f : StoreReq → StoreReq) (s : State) : State :=
  s.modFirn (fun k => { k with reqs := k.reqs.map (fun r => if r.id = id then f r else r) })

def dropReq (id : Nat) (s : State) : State := s.modFirn (fun k => { k with reqs := k.reqs.filter (fun r => r.id != id) })

def changeKeys (ch : Change) : List Nat := dedup ((changePages ch).map storeKey)

/-- The store keys that a request holds. -/
def reqKeys (r : StoreReq) : List Nat :=
  if r.stage = .running then dedup (r.members.map (fun m => storeKey m.page)) else changeKeys r.change

def isCommit : Change → Bool
  | .calCommit _ => true
  | _ => false

/-- A request waits for a store of one of its groups, or for an earlier request of it (R172, R174); a commit waits for every earlier commit
that has not started (R135, R139). -/
def reqBlocked (r : StoreReq) (rs : List StoreReq) : Bool :=
  rs.any (fun o => o.id != r.id && decide (o.rank ≠ 1) &&
    (((decide (o.stage = .running) || decide (o.id < r.id)) && (reqKeys o).any (fun k => (changeKeys r.change).contains k)) ||
      (isCommit r.change && isCommit o.change && decide (o.id < r.id) && decide (o.stage ≠ .running))))

/-- The command of a request is answered. -/
def answerReq (r : StoreReq) (st : Status) (payload : List Byte) (s : State) : State :=
  match r.tag with
  | some t => answer t st payload [] s
  | none => s

/-- The outcome of a push goes to the head (R281). -/
def pushReply (st : Status) (s : State) : State :=
  sendFrame tyMbox 1 (mboxPayload 2 1 1 0 0 (respBytes (leBytes 2 0x0908) st.code s.unitByte 0xFF [] 0 0 0)) none s

/-! ### Banks -/

def bankOf (p : Nat) : Nat := p % 16

def bankBusy (rs : List StoreReq) (b : Nat) : Bool :=
  rs.any (fun r => r.members.any (fun m => decide (m.st = .busy) && bankOf m.page == b))

/-- The page changes over on its own: a single page, or a refreshed one (R166, R187). -/
def changesAlone (ch : Change) (p : Nat) : Bool :=
  match ch with
  | .refresh _ => true
  | _ => !isGroupKey (storeKey p)

def keyFailed (r : StoreReq) (k : Nat) : Bool := r.members.any (fun m => storeKey m.page == k && decide (m.st = .failed))

/-- Part of a group has been taken out of its store, which will not be complete (R181, R182). -/
def keyCut (r : StoreReq) (k : Nat) : Bool := (r.members.filter (fun m => storeKey m.page == k)).map (fun m => m.page) != keyPages k

/-- A member has stored and changed over, or failed, or its group has failed or been cut (R172, R181). -/
def memberSettled (f : Firn) (r : StoreReq) (m : Member) : Bool :=
  decide (m.st = .failed) ||
    (decide (m.st = .done) && (changesAlone r.change m.page || keyFailed r (storeKey m.page) || keyCut r (storeKey m.page) ||
      inUse f m.page == some m.slot))

/-- A member holds its group: it is part of a store that has started and is not complete (R172). -/
def memberHolds (f : Firn) (r : StoreReq) (m : Member) : Bool :=
  decide (r.stage = .running) && decide (r.rank ≠ 1) && !memberSettled f r m && (decide (m.st ≠ .pending) || !changesAlone r.change m.page)

/-- A running store other than the save holds a key. -/
def keyHeld (f : Firn) (k : Nat) : Bool :=
  f.reqs.any (fun o => o.members.any (fun x => storeKey x.page == k && memberHolds f o x))

/-- Whether a page store or group store may start now as far as KETTLE and a freeze are concerned: the latest reading is fresh and at least
4.6 V (R174, R183). -/
def kettleGo (s : State) : Bool := !s.hw.frozen && kettleFresh s && kettleOk s

/-- A pending member's turn within its request has come, and no other store of its group runs (R172). -/
def memberReady (f : Firn) (r : StoreReq) (m : Member) : Bool :=
  decide (m.st = .pending) && decide (r.stage = .running) &&
    !memberWaits r.change m.page (fun p => r.members.any (fun x => x.page == p && decide (x.st = .done)))
      (r.members.map (fun x => x.page)) &&
    (decide (r.rank ≠ 1) || !keyHeld f (storeKey m.page))

/-- Every page store but those of the save and of a group store that has started takes the Kettle check (R174). -/
def needsKettle (r : StoreReq) (m : Member) : Bool := decide (r.rank ≠ 1) && changesAlone r.change m.page

/-- What a free bank starts: the highest request of R177, oldest first; `go` is the Kettle check. -/
def pickIn (f : Firn) (go : Bool) (b : Nat) : Option (Nat × Nat) :=
  (List.range 5).findSome? (fun k => f.reqs.findSome? (fun r =>
    if r.rank = k + 1 then
      (r.members.find? (fun m => bankOf m.page == b && memberReady f r m && (go || !needsKettle r m))).map (fun m => (r.id, m.page))
    else none))

def modMember (id page : Nat) (f : Member → Member) (s : State) : State :=
  modReq id (fun r => { r with members := r.members.map (fun m => if m.page = page then f m else m) }) s

/-! ### The store latch (R161, R170, R173) -/

/-- Each group key of a store takes its next GSEQ (R170, R173). -/
def takeGseqs (keys : List Nat) (f : Firn) : Firn :=
  (keys.filter isGroupKey).foldl (fun f k => setGseq k (nextGseq f k) f) f

/-- The GROUP field of a page whose group has just taken its GSEQ. -/
def memberGroup (f : Firn) (p : Nat) : Word := groupWord ((lastGseq f (storeKey p)).getD 0) p

def newMember (p : Nat) : Member := { page := p, data := [], slot := false, group := 0, tries := 0, st := .pending, latched := false }

/-- The pages that one store latch covers: the whole group, or the page. -/
def latchUnit (r : StoreReq) (p : Nat) : List Nat :=
  if changesAlone r.change p then [p] else (r.members.filter (fun m => storeKey m.page == storeKey p)).map (fun m => m.page)

/-- A member with its image, and its GROUP field; a refresh keeps the GROUP of the slot in use (R187). -/
def latchMember (ch : Change) (img : State) (f : Firn) (m : Member) : Member :=
  let data := (bulkImage f m.page ch).getD (encodePage m.page img)
  match ch with
  | .refresh q =>
    { m with data := data, latched := true, group := match inUse f q with | some b => BitVec.ofNat 32 (slotGroup (slotBytes f q b)) | none => 0 }
  | _ => { m with data := data, latched := true, group := memberGroup f m.page }

/-- The store latch of a page, with the other pages of its group, in one core clock (R161, R170, R173). -/
def latchStore (id p : Nat) (s : State) : State :=
  match findReq s id with
  | none => s
  | some r =>
    let ps := latchUnit r p
    let img := imageState r.change s
    let s := if changesAlone r.change p then s else s.modFirn (takeGseqs [storeKey p])
    let f := s.firn
    let s := modReq id (fun r => { r with members := r.members.map (fun m => if ps.contains m.page then latchMember r.change img f m else m) }) s
    s.modFirn (latchPages (ps.map (fun q => (q, (bulkImage f q r.change).getD (encodePage q img)))))

/-! ### Banks at work -/

/-- The wait of a member for its bank has ended: for the MP its length is noted (R178). -/
def endWait (r : StoreReq) (m : Member) (s : State) : State :=
  match m.waitTick with
  | some k =>
    if r.rank = 3 then
      let d := s.draw
      let us := min (elapsedUs d.1 0 (s.time.ticks - k)) 0xFFFF
      d.2.modFirn (fun f => { f with mpWaitMax := if f.mpWaitMax.toNat < us then BitVec.ofNat 16 us else f.mpWaitMax })
    else s
  | none => s

/-- A member's page store starts: its latch, if its group has not had it, and its slot (R161, R166). -/
def startMember (id p : Nat) (s : State) : State :=
  match findReq s id with
  | none => s
  | some r =>
    match r.members.find? (fun m => m.page == p) with
    | none => s
    | some m =>
      let s := endWait r m s
      let s := if m.latched then s else latchStore id p s
      let s := modMember id p (fun m => { m with st := .busy, slot := nextSlot s.firn p, waitTick := none }) s
      modReq id (fun r => { r with deferred := false }) s

/-- The rank of the request that a bank works for. -/
def bankRank (rs : List StoreReq) (b : Nat) : Option Nat :=
  (rs.find? (fun r => r.members.any (fun m => decide (m.st = .busy) && bankOf m.page == b))).map (fun r => r.rank)

/-- A member finds its bank taken: its wait begins, and an MP request shows it in YIELD.FIRN (R178, R305). -/
def beginWait (r : StoreReq) (m : Member) (s : State) : State :=
  let s := modMember r.id m.page (fun m => { m with waitTick := some s.time.ticks }) s
  if r.rank = 3 then (match r.tag with | some t => addYield t 1 s | none => s) else s

/-- A ledger store waits behind a higher request: it is counted once (R178). -/
def countDispStall (r : StoreReq) (p : Nat) (s : State) : State :=
  match findReq s r.id with
  | none => s
  | some r =>
    if r.members.any (fun m => storeKey m.page == storeKey p && m.stalled) then s
    else
      (modReq r.id (fun r => { r with members := r.members.map (fun m => if storeKey m.page = storeKey p then { m with stalled := true } else m) }) s).modFirn
        (fun f => { f with dispStalls := satAdd f.dispStalls 1 })

/-- Every member that is ready and whose bank is taken waits (R178). -/
def noteWaits (s : State) : State :=
  let f := s.firn
  let waiting := f.reqs.flatMap (fun r => (r.members.filter (fun m => memberReady f r m && bankBusy f.reqs (bankOf m.page))).map (fun m => (r, m)))
  s.forEach waiting (fun e s =>
    let s := if e.2.waitTick.isNone then beginWait e.1 e.2 s else s
    if decide (e.1.rank = 4) && (bankRank f.reqs (bankOf e.2.page)).any (fun k => decide (k < 4)) then countDispStall e.1 e.2.page s else s)

/-- Each free bank starts its next page store (R177). -/
def startBanks (s : State) : State :=
  s.forEach (List.range 16) (fun b s =>
    if bankBusy s.firn.reqs b then s
    else match pickIn s.firn (kettleGo s) b with
      | some (id, p) => startMember id p s
      | none => s)

/-- A change whose reply is not that of its tag: a push (R281). -/
def pushOutcome (ch : Change) (st : Status) (s : State) : State :=
  match ch with
  | .mirrorApply _ _ _ => pushReply st s
  | _ => s

/-- The request has a page that has not started. -/
def hasPending (r : StoreReq) : Bool := r.members.any (fun m => decide (m.st = .pending))

/-- The store waits for KETTLE (R174): it is counted, and the command hears DEFERRED. A STEP hears RETRY, and nothing changes (R239). -/
def deferReq (r : StoreReq) (s : State) : State :=
  let count : State → State := fun s => s.modFirn (fun f => { f with defers := satAdd f.defers 1 })
  let wait : State → State := modReq r.id (fun r =>
    if r.stage = .running then { r with deferred := true, tag := none } else { r with stage := .kwait, tag := none })
  if decide (r.stage = .kwait) || r.deferred then s
  else
    match r.change with
    | .stepEpoch _ => answerReq r .retry [] (failChange r.change (dropReq r.id s))
    | .calCommit t =>
      answerReq r .deferred [1] (wait (if r.tag.isSome then modTxn t (fun u => { u with st := .deferred }) (count s) else count s))
    | ch => pushOutcome ch .deferred (answerReq r .deferred (okPayload ch s) (wait (count s)))

/-- A KETTLE conversion for the Firn controller is under way. -/
def kettleAsked (s : State) : Bool :=
  s.aux.pending.any (fun c => decide (c.src = .firn)) || (match s.aux.running with | some c => decide (c.src = .firn) | none => false)

/-- The Firn controller asks for a KETTLE reading (R174). -/
def askKettle (s : State) : State := if kettleAsked s then s else injectConv .firn kettleIn s

/-- A single page of a running request whose bank is free, and which only the Kettle check holds back. -/
def heldByKettle (f : Firn) (r : StoreReq) : Bool :=
  r.members.any (fun m => memberReady f r m && needsKettle r m && !bankBusy f.reqs (bankOf m.page))

/-- Single pages that the Kettle check holds back ask for a reading, or wait for 4.6 V (R174). -/
def checkSingles (s : State) : State :=
  if s.hw.frozen || s.stalled 11 then s
  else
    let held := s.firn.reqs.filter (heldByKettle s.firn)
    if held.isEmpty || kettleGo s then s
    else if !kettleFresh s then (if held.all (fun r => r.deferred) then s else askKettle s)
    else s.forEach held deferReq

/-- The banks go on: free ones start, members that find theirs taken wait, and single pages take the Kettle check. -/
def kick (s : State) : State := checkSingles (noteWaits (startBanks s))

/-- A request waits for the stalled crossing to the Firn controller, and is counted (R178, R400). -/
def countStall (r : StoreReq) (s : State) : State :=
  let s := modReq r.id (fun r => { r with since := some s.time.ticks }) s
  if r.rank = 3 then (match r.tag with | some t => addYield t 1 s | none => s)
  else if r.rank = 4 then s.modFirn (fun f => { f with dispStalls := satAdd f.dispStalls 1 })
  else s

/-! ### Start of a store -/

/-- A store starts: its log entry is formed, its groups are latched, and its banks take them (R135, R161, R170, R177). -/
def startReq (r : StoreReq) (s : State) : State :=
  let s := startChange r.change s
  let s := endWait r { newMember 0 with waitTick := r.since } s
  let s := modReq r.id (fun r => { r with stage := .running, since := none, members := (changePages r.change).map newMember }) s
  let s := s.forEach ((changeKeys r.change).filter (fun k => !changesAlone r.change k)) (fun k s => latchStore r.id k s)
  kick s

/-! ### The Kettle check (R174) -/

/-- A commit that passes its last check is STORING (R134, R138). -/
def acceptReq (r : StoreReq) (s : State) : State :=
  match r.change, r.tag with
  | .calCommit t, some _ => modTxn t (fun u => { u with st := .storing }) s
  | _, _ => s

/-- An earlier request still waits for 4.6 V: waiting requests keep their order (R174). -/
def behindWaiting (r : StoreReq) (s : State) : Bool :=
  decide (r.stage ≠ .kwait) && s.firn.reqs.any (fun o => decide (o.id < r.id) && decide (o.stage = .kwait))

/-- Decides on a request that has not started: a reading older than 1 ms is asked for, one below 4.6 V makes it wait, and at
4.6 V it starts unless an earlier one waits or a store of its group runs. -/
def consider (id : Nat) (s : State) : State :=
  match findReq s id with
  | none => s
  | some r =>
    if decide (r.stage = .running) || s.hw.frozen || !s.firnOn || s.stalled 11 then s
    else if !kettleFresh s then
      if decide (r.stage = .kwait) || decide (r.stage = .ask) then s
      else askKettle (modReq id (fun r => { r with stage := .ask }) s)
    else if !kettleOk s then deferReq r s
    else
      let s := acceptReq r s
      if behindWaiting r s || reqBlocked r s.firn.reqs then modReq id (fun r => { r with stage := .queued }) s
      else match findReq s id with
        | some r => startReq r s
        | none => s

/-- Every waiting request is decided in its order (R174). -/
def considerAll (s : State) : State := s.forEach (s.firn.reqs.map (fun r => r.id)) consider

/-- Requests that waited for a KETTLE reading are decided on it, and the banks take what only the check held back (R174). -/
def considerAsked (s : State) : State :=
  kick (s.forEach ((s.firn.reqs.filter (fun r => decide (r.stage = .ask))).map (fun r => r.id)) consider)

/-- Waiting requests start on a KETTLE reading of 4.6 V or more, in their order (R174). -/
def startWaiting (s : State) : State :=
  if s.firnOn && kettleGo s then auxSync (kick (considerAll s)) else s

/-- A request waits that such a reading would start. -/
def kettleDue (s : State) : Bool := s.firn.reqs.any (fun r => decide (r.stage = .kwait)) && kettleGo s

/-- A store is requested (R174); a command that asks for it is held until its answer (R313). While the crossing to the Firn controller
is stalled, the request waits and is counted (R400). -/
def openStore (ch : Change) (tag : Option (Fin 64)) (s : State) : State :=
  let id := s.firn.issued
  let s := match tag with
    | some t => holdCmd t s
    | none => s
  let r : StoreReq := { id := id, rank := changeRank ch, change := ch, tag := tag, stage := .queued, members := [] }
  let s := s.modFirn (fun f => { f with issued := id + 1, reqs := f.reqs ++ [r] })
  if s.stalled 11 then countStall r s else consider id s

/-- A command asks for a store; during a power-fail freeze it hears RETRY (R183, R313). -/
def storeFor (t : Fin 64) (ch : Change) (s : State) : State :=
  if s.hw.frozen then answer t .retry [] [] s else openStore ch (some t) s

/-! ### End of a page store -/

def reqSettled (f : Firn) (r : StoreReq) : Bool := decide (r.stage = .running) && r.members.all (memberSettled f r) && decide (r.rank ≠ 1)

/-- A store that is complete, or has failed, in every member: its registers are written and its command is answered (R169,
R313). -/
def finishReq (r : StoreReq) (s : State) : State :=
  let s := dropReq r.id s
  if r.members.any (fun m => decide (m.st = .failed)) then pushOutcome r.change .worn (answerReq r .worn [] (failChange r.change s))
  else
    let s := applyChange r.change s
    let fs := followUps r.change s
    let s := if fs.any (·.2) then s else pushOutcome r.change .ok (answerReq r .ok (okPayload r.change s) s)
    s.forEach fs (fun e s => openStore e.1 (if e.2 then r.tag else none) s)

/-- Keys that every save stores: the accumulator set (R173), the matching values (R29), PTIME (R465), and BILL_OPEN while an interval is
open (R223). -/
def savedAlways (s : State) (k : Nat) : Bool :=
  ([2, 52, 53, 54, 424] : List Nat).contains k || (decide (k = 426) && s.clk.billIsOpen)

/-- The state whose registers a key's pages show, with what a running store of it has latched (R161). -/
def keyImage (s : State) (k : Nat) : State :=
  match s.firn.reqs.find? (fun r => r.members.any (fun m => storeKey m.page == k && memberHolds s.firn r m)) with
  | some r => imageState r.change s
  | none => s

/-- A page of the key is dirty; RUN_LOG is stored apart (R161, R181). -/
def keyDirty (s : State) (k : Nat) : Bool :=
  let img := keyImage s k
  (keyPages k).any (fun p => decide (p < 512) && decide (p ≠ 112) && pageDirty { img with firn := s.firn } p)

/-- The keys of the critical region that a save takes (R181). -/
def saveKeys (s : State) : List Nat := (dedup ((List.range 512).map storeKey)).filter (fun k => savedAlways s k || keyDirty s k)

/-- The order of a save within a bank: SEAL, the accumulator set, PQ_EVT, DISP_IDX, the others ascending (R181). -/
def saveOrder (keys : List Nat) : List Nat :=
  (([0, 2, 55, 110] : List Nat).filter (fun k => keys.contains k)) ++ keys.filter (fun k => !([0, 2, 55, 110] : List Nat).contains k)

def saveReqId (s : State) : Option Nat := (s.firn.reqs.find? (fun r => decide (r.rank = 1))).map (fun r => r.id)

/-- The pages of a save but RUN_LOG, in its order; each is latched when its store starts (R161, R181). -/
def saveMembers (keys : List Nat) : List Member := (keys.flatMap keyPages).filter (fun p => decide (p ≠ 112)) |>.map newMember

/-- Flags that join. -/
def NextFlags.join (a b : NextFlags) : NextFlags :=
  { newcal := a.newcal || b.newcal, newcfg := a.newcfg || b.newcfg, matched := a.matched || b.matched, isPartial := a.isPartial || b.isPartial }

/-- What a store that ends during a freeze changes will show in the first cycle after a restart (R69, R142): the flags that a close would
set now. -/
def frozenNext (s : State) : State :=
  if s.hw.frozen then
    s.modFirn (fun f => { f with startNext := Vector.ofFn (fun c => f.startNext[c].join ((takeChanges c s).circuits[c]).next) })
  else s

/-- Stores that have settled end, those that waited for them are decided, and the banks go on. -/
def settleReqs (s : State) : State :=
  let done := s.firn.reqs.filter (reqSettled s.firn)
  if done.isEmpty then kick s
  else kick (considerAll (frozenNext (s.forEach done finishReq)))

/-- WEAR (R188). -/
def markWear (count : Nat) (f : Firn) : Firn := { f with wear := f.wear || decide (1800000 ≤ count) }

/-- A page store has failed for good: the pages of its request that wait for it are not stored (R169, R324, R375). -/
def dropDependents (p : Nat) (r : StoreReq) : StoreReq :=
  let pages := r.members.map (fun m => m.page)
  { r with members := r.members.filter (fun m => !(decide (m.st = .pending) && memberWaits r.change m.page (fun q => q != p) pages)) }

/-- A page store has ended in its verify (R164, R169): the first failure repeats it in the same slot, the second one leaves
the slot without a valid header. -/
def endPage (r : StoreReq) (m : Member) (verified : Bool) (s : State) : State :=
  if verified then
    let bs := memberImage s.firn m
    let s := s.modFirn (fun f => markWear (slotCount bs) (writeSlot m.page m.slot bs f))
    let s := modMember r.id m.page (fun m => { m with st := .done }) s
    if changesAlone r.change m.page then s.modFirn (setInUse m.page (some m.slot)) else s
  else if m.tries = 0 then modMember r.id m.page (fun m => { m with tries := 1 }) s
  else
    let d := s.draw
    let s := d.2.modFirn (fun f => { writeSlot m.page m.slot (wornSlot d.1) f with worn := true })
    modReq r.id (dropDependents m.page) (modMember r.id m.page (fun m => { m with st := .failed, tries := 2 }) s)

/-- The page store in progress in a bank. -/
def busyMember (rs : List StoreReq) (b : Nat) : Option (StoreReq × Member) :=
  rs.findSome? (fun r => (r.members.find? (fun m => decide (m.st = .busy) && bankOf m.page == b)).map (fun m => (r, m)))

/-- KETTLE below 2.90 V during a save (R182): no further page store starts, also none that bank `b` would repeat; the remaining pages and
groups are abandoned and stay dirty. -/
def abandonSave (b : Option Nat) (s : State) : State :=
  if !s.firn.save.saving then s
  else
    let drop : StoreReq → Member → Bool := fun r m =>
      (decide (m.st = .pending) && (decide (r.rank = 1) || memberHolds s.firn r m)) || (decide (m.st = .busy) && b == some (bankOf m.page) && decide (m.tries = 1))
    let gone := s.firn.reqs.flatMap (fun r => (r.members.filter (drop r)).flatMap (fun m => if changesAlone r.change m.page then [m.page] else keyPages (storeKey m.page)))
    s.modFirn (fun f => markDirty gone { f with
      reqs := f.reqs.map (fun r => { r with members := r.members.filter (fun m => !drop r m) }), save := { f.save with lowKettleAo := true } })

/-- RUN_LOG as the save stores it (R185). -/
def savedRunLog (f : Firn) (pages duration kLast : Nat) : List Byte :=
  padTo 64 (leBytes 4 (leAt f.runLog 0 4) ++ leBytes 1 2 ++ [f.save.cause] ++ leBytes 2 pages ++ f.save.time.bytes ++
    leBytes 6 f.save.legal.toNat ++ leBytes 2 (min duration 0xFFFF) ++ leBytes 2 f.save.kStart.toNat ++ leBytes 2 kLast)

/-- Every other page of the save has completed in every bank, and so have the stores that it completes: RUN_LOG is next (R181). -/
def runLogNext (s : State) : Bool :=
  s.firn.save.saving && !s.firn.save.lowKettleAo && s.firn.reqs.all (fun r => r.members.all (fun m =>
    decide (m.st ≠ .busy) && !(decide (m.st = .pending) && (decide (r.rank = 1) || memberHolds s.firn r m)) && (decide (r.rank ≠ 1) || decide (m.page ≠ 112))))

/-- The RUN_LOG store of a save starts, last: its page is formed and latched (R180, R181, R185). -/
def startRunLog (w : SaveMeter) (s : State) : State :=
  if !runLogNext s then s
  else match saveReqId s with
    | none => s
    | some id =>
      let pages := match findReq s id with | some r => (r.members.filter (fun m => decide (m.st = .done))).length | none => 0
      let log := savedRunLog s.firn pages w.us w.kettle.toNat
      let m : Member := { newMember 112 with data := log, slot := nextSlot s.firn 112, st := .busy, latched := true }
      modReq id (fun r => { r with members := r.members ++ [m] })
        (s.modFirn (fun f => { latchPages [(112, log)] f with runLog := log, save := { f.save with pages := BitVec.ofNat 16 pages } }))

/-- PAGE_STORE_DONE in a bank (R164, R169, R177, R181, R182). -/
def pageDone (b : Fin 16) (verified : Bool) (w : SaveMeter) (s : State) : State :=
  match busyMember s.firn.reqs b.val with
  | none => s
  | some (r, m) =>
    let s := endPage r m verified s
    startRunLog w (settleReqs (if w.kettle.toNat < 2900 then abandonSave (some b.val) s else s))

/-- The members of a group of a running store, all done and not yet changed over. -/
def groupReady (f : Firn) (base : Nat) (r : StoreReq) : Bool :=
  let ms := r.members.filter (fun m => storeKey m.page == base)
  decide (r.stage = .running) && isGroupKey base && !ms.isEmpty && ms.all (fun m => decide (m.st = .done)) &&
    (ms.map (fun m => m.page) == keyPages base) && ms.any (fun m => inUse f m.page != some m.slot)

/-- GROUP_STORE_DONE: the in-use slots of a whole group, or of the accumulator set, change over (R172, R173). -/
def groupDone (base : Nat) (s : State) : State :=
  match s.firn.reqs.find? (groupReady s.firn base) with
  | none => s
  | some r =>
    settleReqs (s.modFirn (fun f => (r.members.filter (fun m => storeKey m.page == base)).foldl (fun f m => setInUse m.page (some m.slot) f) f))

/-! ### Power fail -/

/-- Ports on their way to another circuit join it at the PFAIL close, whatever the order of the circuits (R52, R69). -/
def freezeCircuits (s : State) : State := ({ s with circuits := s.circuits.map markPfail }).forEach (fins 24) pfailClose

/-- What the first cycle of each circuit after a restart will carry (R69, R142). -/
def keepNext (s : State) : State := s.modFirn (fun f => { f with startNext := s.circuits.map (fun (r : Circuit) => r.next) })

/-- The metrology stops on the sample boundary, with what the last sample left due done first (R69, R90, R120, R180). -/
def freezeMetering (s : State) : State :=
  let s := if s.metering then overdueSets (overdueCircuits s) else s
  let s := keepNext (freezeCircuits s)
  let s := { s with cfs := s.cfs.map cfFreeze }
  s.forEach (fins 2) (cutEvents s.time.ticks)

/-- A store that the freeze stops: a running bulk store, or a display store that has not started (R180, R181). -/
def stoppedReq (r : StoreReq) : Bool :=
  if r.stage = .running then decide (r.rank ≠ 1) && r.members.any (fun m => decide (512 ≤ m.page))
  else match r.change with
    | .ledger _ _ _ => true
    | .dispPrep => true
    | .dispDone => true
    | .refresh _ => true
    | _ => false

/-- A bulk store is stopped after the page in progress, and its command hears RETRY (R181, R183). -/
def stopBulk (s : State) : State :=
  let stopped := s.firn.reqs.filter stoppedReq
  let s := s.forEach stopped (fun r s => answerReq r .retry [] s)
  let cut : StoreReq → StoreReq := fun r =>
    if stoppedReq r then
      { r with tag := none, members := r.members.filter (fun m => decide (m.st = .busy) || decide (m.st = .done)) }
    else r
  s.modFirn (fun f => { f with reqs := (f.reqs.map cut).filter (fun r => decide (r.stage = .running) || !stoppedReq r) })

/-- The save starts (R181); below 2.90 V it starts no page (R182). -/
def startSave (kettle : BitVec 16) (s : State) : State :=
  let ms := saveMembers (saveOrder (saveKeys s))
  let id := s.firn.issued
  let s := s.modFirn (fun f => { f with
    issued := id + 1, reqs := f.reqs ++ [{ id := id, rank := 1, change := .save, tag := none, stage := .running, members := ms }] })
  kick (if kettle.toNat < 2900 then abandonSave none s else s)

/-- Commands in flight record the power-fail sequence (R305). -/
def yieldPfail (s : State) : State :=
  s.modMb (fun m => { m with tags := m.tags.map (fun c => c.map (fun c => { c with yielded := c.yielded ||| 2 })) })

/-- The trigger instant, from the present sample and the time since it (R180). -/
def triggerNs (dt : Nat) (s : State) : Nat := s.nowNs + dt

/-- A boundary image that the MP has not copied is lost: its intervals join the one still open, with MISSED (R223). -/
def loseBoundary (k : Clocks) : Clocks :=
  match k.boundary with
  | none => k
  | some b => { k with boundary := none, billFlags := k.billFlags ||| b.flags ||| 0x20, billExtra := k.billExtra + b.spans }

/-- The open interval has had a power-fail save within it (R223). -/
def notePfail (k : Clocks) : Clocks := if k.billIsOpen then { k with billFlags := k.billFlags ||| 8 } else k

/-- The modem stops at the next symbol boundary, and its exchange is lost (R350). -/
def stopExchange (now : Nat) (p : Plc) : Plc :=
  { p with txUntil := p.txUntil - (p.txUntil - now) / 1125000 * 1125000, xchg := none, prepared := none, turnPend := false, turnLeft := [], turnLeaves := [], mode := if p.en then 2 else 0 }

/-- The power-fail sequence starts (R179, R180): what the RUN_LOG will say is noted, everything freezes, and the save begins. -/
def powerFail (cause : Nat) (dt : Nat) (kettle : BitVec 16) (s : State) : State :=
  if s.hw.frozen || !s.firnOn then s
  else
    let s := s.modFirn (fun f => { f with save := { f.save with
      saving := true, cause := BitVec.ofNat 8 cause, time := s.stampAt (triggerNs dt s), legal := s.clk.legal.count, kStart := kettle,
      pages := 0, lowKettleAo := false, resumeDue := false }, pump := false })
    let s := yieldPfail (freezeMetering s)
    let s := (s.modHw (fun h => { h with frozen := true })).raise irqPfail
    let s := (s.modDisp (stopUpdate dStopped)).modPlc (stopExchange (triggerNs dt s))
    let s := s.modClk (fun k => notePfail (loseBoundary k))
    let s := s.modPower (fun p => { p with supply := .kettle, vsupDue := false })
    startSave kettle (stopBulk s)

/-- The save has ended: RUN_LOG is stored, or the rest was abandoned, and no page store runs (R180, R182). -/
def saveEnded (s : State) : Bool :=
  s.firn.save.saving && s.firn.reqs.all (fun r => r.members.all (fun m => decide (m.st ≠ .busy))) && (match saveReqId s with
    | some id => (match findReq s id with
      | some r => r.members.all (memberSettled s.firn r) && (s.firn.save.lowKettleAo || r.members.any (fun m => decide (m.page = 112)))
      | none => false)
    | none => false)

/-- The RUN_LOG store ends: its verify, and that of its repeat (R164, R169). -/
def endRunLog (verified again : Bool) (s : State) : State :=
  let last : Bool → State → State := fun v s =>
    match busyMember s.firn.reqs 0 with
    | some (r, m) => if m.page = 112 ∧ r.rank = 1 then endPage r m v s else s
    | none => s
  last again (last verified s)

/-- The save is complete (R180, R181, R185); an abandoned one ends without RUN_LOG (R182). -/
def completeSave (s : State) : State :=
  s.modFirn (fun f => { f with reqs := f.reqs.filter (fun r => decide (r.rank ≠ 1)), save := { f.save with saving := false } })

end Sys2Proof.Machine
end

