-- ==== Sys2Proof/Machine/AuxEvents.lean ====
section
/-! DEFINITION. Events of the aux converter and the pulse inputs (R174, R175, R357 to R370, R390). -/

namespace Sys2Proof.Machine

/-- A ring-time instant that is a whole multiple of a period lies in the present sample interval. -/
def instantIn (s : State) (period : Nat) : Bool :=
  decide (period ≠ 0) && (decide (s.gridNs % period = 0) || decide (period - s.gridNs % period < 31250))

/-- AUX_PASS (R357): a pass that has not ended makes the next one late. The regular sequence runs in RUN only (R408). -/
def execAuxPass (s : State) : Host.Outcome State Fault Refusal :=
  .next (if s.coreOn && s.aux.powered && decide (s.power.state = .run) && !s.aux.regular.isEmpty && instantIn s (s.aux.regPeriod.toNat * 1000) then
      let late := s.aux.passPend || !s.aux.passLeft.isEmpty || (match s.aux.running with | some c => decide (c.src = .regular) | none => false)
      auxSync (s.modAux (fun a => { a with passPend := true, regLate := if late then satAdd a.regLate 1 else a.regLate }))
    else s)

/-- AUX_INJECTED_SEQ (R358): the whole list is injected. -/
def execAuxInjectedSeq (s : State) : Host.Outcome State Fault Refusal :=
  .next (if s.coreOn && s.aux.powered && instantIn s (s.aux.injPeriod.toNat * 1000) then
      s.forEach s.aux.injected (fun i s => injectConv .sequence (Fin.ofNat 16 i.toNat) s)
    else s)

/-- HOUSEKEEPING (R359): KETTLE every 500 µs; CREVASSE every 10 ms while the display is enabled. -/
def execHousekeeping (crevasse : Bool) (s : State) : Host.Outcome State Fault Refusal :=
  .next (if s.coreOn && s.aux.powered && s.aux.ready then
      if crevasse then
        (if decide (s.disp.mode ≠ 0) && decide (s.gridNs % 10000000 = 0) then injectConv .housekeeping crevasseIn s else s)
      else if s.gridNs % 500000 = 0 then injectConv .housekeeping kettleIn s else s
    else s)

/-- The codes of 1.0 V and 4.6 V on KETTLE (R355). -/
def kettleOne : Nat := 6553

/-- The instant at which a straight line through two readings reaches a code. -/
def lineAt (a b : Nat × Nat) (code : Nat) : Rat := (a.1 : Rat) + ((code : Rat) - a.2) * ((b.1 : Rat) - a.1) / ((b.2 : Rat) - a.2)

/-- The time of the charge from 1.0 V to 4.6 V in ns: the pump's current is constant, so each crossing lies on the straight line through the
readings next to it (R175). `l` are the readings from the last one at or below 1.0 V, newest first, the newest being at or above 4.6 V. -/
def chargeNs (l : List (Nat × Nat)) : Option Rat :=
  match l, l.reverse with
  | hi :: hi' :: _, lo :: lo' :: _ => some (lineAt hi' hi kettleReady - lineAt lo lo' kettleOne)
  | _, _ => none

/-- The capacity check on a KETTLE reading (R175): the charge from 1.0 V to 4.6 V took less than 16.0 ms. A charge that is over by the first
reading took less than the time since VSUP valid. -/
def kettleCheck (code now : Nat) (f : Firn) : Firn :=
  match f.charge with
  | some l =>
    let l := (now, code) :: (if code ≤ kettleOne then [] else l)
    if kettleReady ≤ code then
      { f with charge := none, kettleSmall := f.kettleSmall || (match chargeNs l with
          | some d => decide (d < 16000000)
          | none => decide (now < 16000000)) }
    else { f with charge := some l }
  | none => f

/-- A CREVASSE housekeeping reading: an opening loop stops the display (R390). -/
def takeCrevasse (code : Nat) (s : State) : State :=
  if s.disp.mode = 0 then s
  else
    let r := crevReading code s.disp
    let s := s.modDisp (fun _ => r.1)
    if r.2 then (s.modDisp (stopUpdate dNoPanel)).postEvent else s

/-- The payload of AUX_INJECT (R328, R362). -/
def injectPayload (code : BitVec 16) (late : Bool) (t : Stamp) : List Byte :=
  leBytes 2 code.toNat ++ leBytes 1 (bitN late) ++ leBytes 1 0 ++ t.bytes

/-- The conversion has ended: a mode change takes effect (R356). -/
def endConv (c : Conv) (a : Aux) : Aux := takeMode { a with running := none, lateSeen := a.lateSeen || c.late }

/-- AUX_CONVERSION_DONE (R174, R175, R358, R361 to R363, R390). `dt` is the time in ns from the present sample to the end of the
conversion; the stamp is that of its start. -/
def execAuxConversionDone (code : BitVec 16) (dt : Nat) (s : State) : Host.Outcome State Fault Refusal :=
  .next (match s.aux.running with
    | none => s
    | some c =>
      if !s.coreOn || s.stalled 9 then s
      else
        let t := s.stampAt (s.nowNs + dt - 1000 * convTime s.aux.lowPower)
        let r := takeResult code t s.time.ticks s.aux.inputs[c.input]
        let s := s.modAux (fun a => endConv c { a with inputs := vmod a.inputs c.input (fun _ => r.1), lastExit := if r.2 then some t else a.lastExit })
        let s := if c.input = dieTempIn then s.modAux (tempMoved code) else s
        let s := if r.2 then s.postEvent else s
        let s := if c.input = kettleIn then s.modFirn (kettleCheck code.toNat (s.time.ticks * 31250 + dt)) else s
        let s := if c.src = .housekeeping ∧ c.input = crevasseIn then takeCrevasse code.toNat s else s
        let s := match c.src with | .inject tag => answer tag .ok (injectPayload code c.late t) [] s | _ => s
        auxSync (if c.input = kettleIn then considerAsked s else s))

/-- AUX_CALIBRATION (R360, R361): one that runs ends; otherwise one falls due every 60 s, after the injected conversions that are pending. -/
def execAuxCalibration (s : State) : Host.Outcome State Fault Refusal :=
  .next (if s.coreOn && s.aux.powered then
      auxSync (s.modAux (fun a => if a.cal then { a with cal := false, ready := true } else { a with calDue := a.calDue || calOld s.time.ticks a }))
    else s)

/-! ### Pulse inputs -/

/-- Gray code of a count, and the count of a Gray code (R367). -/
def grayOf (n : Byte) : Byte := n ^^^ (n >>> 1)

def grayCount (g : Byte) : Byte :=
  let a := g ^^^ (g >>> 1)
  let b := a ^^^ (a >>> 2)
  b ^^^ (b >>> 4)

/-- One pulse: the counter advances, and the guard compares it with the acknowledged value (R367, R368). -/
def S0In.pulse (i : S0In) : S0In :=
  let n := grayCount i.gray + 1
  { i with gray := grayOf n, overrun := i.overrun || decide (128 ≤ (n - grayCount i.acked).toNat) }

/-- S0_PULSE (R366 to R368): an accepted falling edge. -/
def execS0Pulse (i : Fin 8) (s : State) : Host.Outcome State Fault Refusal :=
  .next (if s.coreOn && s.aux.powered && (s.s0[i]).en then s.modS0 i S0In.pulse else s)

/-- The core samples a counter on a sample tick, adds the difference and acknowledges the value; a new configuration takes effect
(R367, R369, R370, R406). -/
def S0In.sample (t : Stamp) (i : S0In) : S0In :=
  let d := grayCount i.gray - grayCount i.sampled
  let i := { i with sampled := i.gray, acked := i.gray, total := i.total + d.setWidth 64, last := if d = 0 then i.last else t }
  match i.pendCfg with
  | some (en, db) => { i with en := en, debounce := db, pendCfg := none }
  | none => i

end Sys2Proof.Machine
end

