-- ==== Sys2Proof/Machine/CmdCore.lean ====
section
/-! DEFINITION. How the MP takes a command: when one may start (R296, R297), the common checks in the order of R311, and what
becomes of its outcome (R310, R313). -/

namespace Sys2Proof.Machine

/-- What a group table of Cesoak Command Reference says of a command: opcode, lane, LEN, bulk, Head (R314), States and its
narrower rules (R312, R411, R430), critical pairs (offset and size of X, X_N follows) and reserved bytes. -/
structure CmdRow where
  op : Nat
  lane : Nat
  len : Nat
  bulkIn : Option (List Byte → List Byte → Bool) := none
  bulkOut : Bool := false
  head : Bool := false
  spiOnly : Bool := false
  states : List Lifecycle := [.factory, .opened, .sealed, .retired]
  d2 : Bool := false
  lean : Bool := false
  pairs : List (Nat × Nat) := []
  rsv : List (Nat × Nat) := []
  ordered : Bool := false
  clocks : Bool := false

def stFO : List Lifecycle := [.factory, .opened]
def stFOS : List Lifecycle := [.factory, .opened, .sealed]

/-- What a command sees of its request: its tag, its origin, its payload and its bulk-in data. -/
structure CmdIn where
  tag : Fin 64
  org : Origin
  pay : List Byte
  bulk : List Byte

/-- The outcome of a command that passed the common checks: a response at once, a store to wait for (R313), or a wait for other
hardware. -/
inductive Reply where
  | done (st : Status) (payload bulk : List Byte) (s : State)
  | store (ch : Change) (s : State)
  | hold (s : State)

/-! ### When a command may start -/

/-- The MP is free for a command of a lane: nothing else is in execution, but that an L3 command lets others in between its
slices (R297). -/
def mpFree (s : State) (t : Fin 64) (lane : Nat) : Bool :=
  (fins 64).all (fun u => match s.mb.tags[u] with
    | some x => decide (u = t) || !(x.started && x.waiting && !x.remote && (decide (dLane x.desc ≠ 3) || decide (lane = 3)))
    | none => true)

/-- Every earlier command of the lane has its response (R296). -/
def laneFree (s : State) (c : Cmd) : Bool :=
  (fins 64).all (fun u => match s.mb.tags[u] with
    | some x => !(decide (x.order < c.order) && decide (dLane x.desc = dLane c.desc) && (!x.started && !x.remote || x.started && x.waiting))
    | none => true)

/-- A command that the MP could take: the head of its lane, with its bulk data. -/
def waitsAtHead (s : State) (c : Cmd) : Bool := !c.remote && !c.started && decide (dBulkInLen c.desc ≤ c.got) && laneFree s c

/-- A lane head has waited 50 ms, 1,600 sample ticks (R297). -/
def headAged (s : State) (c : Cmd) : Bool :=
  match c.headAt with | some k => decide (k + 1600 ≤ s.time.ticks) | none => false

/-- One lane head comes before another: it has waited 50 ms and the other has not, or its lane is the higher one (R297). -/
def headBefore (s : State) (a b : Cmd) : Bool :=
  if headAged s a = headAged s b then decide (dLane a.desc < dLane b.desc) else headAged s a

/-- No other lane head comes first that the MP could start now (R297). -/
def chosen (t : Fin 64) (c : Cmd) (s : State) : Bool :=
  (fins 64).all (fun u => match s.mb.tags[u] with
    | some x => decide (u = t) || !(waitsAtHead s x && mpFree s u (dLane x.desc) && headBefore s x c)
    | none => true)

/-- The command of a tag may start now (R296, R297, R302, R307). -/
def startable (t : Fin 64) (c : Cmd) (s : State) : Bool :=
  s.mpRuns && s.mp.swapTag.isNone && waitsAtHead s c && mpFree s t (dLane c.desc) && chosen t c s

/-- The heads of the lanes note the tick from which they wait (R297). -/
def noteHeads (s : State) : State :=
  s.modMb (fun m => { m with tags := m.tags.map (fun c => c.map (fun c =>
    if c.headAt.isNone && !c.started && !c.remote && laneFree s c then { c with headAt := some s.time.ticks } else c)) })

/-! ### The common checks (R311) -/

/-- LEN, bulk flags and BULK_LEN (R310). -/
def lengthsOk (row : CmdRow) (d : List Byte) (pay bulk : List Byte) : Bool :=
  decide (dLen d = row.len) && (dBulkIn d == row.bulkIn.isSome) && (dBulkOut d == row.bulkOut) &&
    (match row.bulkIn with
      | some ok => ok pay bulk
      | none => decide (dBulkLen d = 0))

/-- Lifecycle state (R312). -/
def stateCheck (row : CmdRow) (s : State) : Option Status :=
  if row.states.contains s.sec.state then none
  else if s.sec.state = .sealed then (if row.ordered then none else some .sealed)
  else some .denied

def pairsOk (row : CmdRow) (pay : List Byte) : Bool := row.pairs.all (fun p => pairOk p.2 pay p.1)

def rsvOk (row : CmdRow) (pay : List Byte) : Bool := row.rsv.all (fun r => decide (leAt pay r.1 r.2 = 0))

/-- Checks 2 to 7 of R311 that the row decides; the ranges of values are the command's own. -/
def rowCheck (row : CmdRow) (c : Cmd) (bulk : List Byte) (s : State) : Option Status :=
  if dLane c.desc ≠ row.lane then some .range
  else if !lengthsOk row c.desc (dPayload c.desc) bulk then some .badLength
  else if row.head && !s.ring.isHead then some .notHead
  else if row.spiOnly && decide (c.origin ≠ .host) then some .denied
  else match stateCheck row s with
    | some st => some st
    | none =>
      if row.d2 && decide (s.sec.debug = 2) then some .denied
      else if row.lean && decide (s.power.state = .lean) then some .retry
      else if !pairsOk row (dPayload c.desc) then some .complement
      else if !rsvOk row (dPayload c.desc) then some .range
      else none

/-! ### Execution -/

/-- The bulk-in data of a command. -/
def bulkOf (c : Cmd) (s : State) : List Byte := memSlice 0 s.mb.win bulkBase (dBulkInLen c.desc)

/-- The outcome of a command takes its course. -/
def settleReply (t : Fin 64) : Reply → State
  | .done st payload bulk s => answer t st payload bulk s
  | .store ch s => storeFor t ch s
  | .hold s => holdCmd t s

/-- A command that its own checks accept, but that needs a stalled crossing to the clocks, hears BUSY (R400, R401). -/
def clockBusy (row : CmdRow) (s : State) (r : Reply) : Reply :=
  if row.clocks && s.stalled 8 then
    (match r with
      | .done st p b s' => if st = .ok then .done .busy [] [] s else .done st p b s'
      | _ => .done .busy [] [] s)
  else r

/-- The MP takes the command of a tag, if it is this one and may start (R296, R297, R311). -/
def runCmd (row : CmdRow) (body : CmdIn → State → Reply) (t : Fin 64) (s : State) : State :=
  match s.mb.tags[t] with
  | none => s
  | some c =>
    if decide (dOpcode c.desc = row.op) && startable t c s then
      match rowCheck row c (bulkOf c s) s with
      | some st => answer t st [] [] s
      | none => settleReply t (clockBusy row s (body { tag := t, org := c.origin, pay := dPayload c.desc, bulk := bulkOf c s } s))
    else s

/-- A refusal of the command's own. -/
def fail (st : Status) (s : State) : Reply := .done st [] [] s

/-- A response without bulk data. -/
def okWith (payload : List Byte) (s : State) : Reply := .done .ok payload [] s

/-- The MP copies a boundary image that waits, forms its record and stores BILL_OPEN (R223); a command between the boundary and
the copy runs after it (R315). -/
def copyBoundary (s : State) : State :=
  match s.clk.boundary with
  | none => s
  | some _ => if s.hw.frozen then formRecord s else openStore (.page 426) none (formRecord s)

/-! ### Fields of a payload -/

def p1 (i : CmdIn) (off : Nat) : Nat := leAt i.pay off 1
def p2 (i : CmdIn) (off : Nat) : Nat := leAt i.pay off 2
def p4 (i : CmdIn) (off : Nat) : Nat := leAt i.pay off 4
def p6 (i : CmdIn) (off : Nat) : Nat := leAt i.pay off 6
def p8 (i : CmdIn) (off : Nat) : Nat := leAt i.pay off 8

/-- Circuit or port 1 to 24 as an index. -/
def num24 (n : Nat) : Option (Fin 24) := if 1 ≤ n ∧ n ≤ 24 then some (Fin.ofNat 24 (n - 1)) else none

/-- Ports of a 24-bit mask. -/
def maskPorts (m : Nat) : List (Fin 24) := (fins 24).filter (fun p => m.testBit p.val)

end Sys2Proof.Machine
end

