-- ==== Sys2Proof/Machine/CmdRing.lean ====
section
/-! DEFINITION. The ring group of Cesoak (R263, R273 to R281, R325). -/

namespace Sys2Proof.Machine

def rowRingStatus : CmdRow := { op := 0x0901, lane := 1, len := 0 }

def ringPayload (s : State) : List Byte :=
  leBytes 4 (ringStat s) ++ leBytes 2 s.ring.codeErr.toNat ++ leBytes 2 s.ring.frameErr.toNat ++ leBytes 2 s.ring.deferred.toNat ++
    leBytes 2 s.ring.abandoned.toNat ++ leBytes 4 s.ring.hcfg.toNat ++ leBytes 8 Config.uid.toNat

/-- The read clears RING_ERR and RING_CNT (R273, R315). -/
def runRingStatus (_ : CmdIn) (s : State) : Reply :=
  okWith (ringPayload s) (s.modRing (fun r => { r with codeErr := 0, frameErr := 0, deferred := 0, abandoned := 0 }))

/-- RING_STATUS (R273, R325). -/
def execRingStatus (tag : Fin 64) (s : State) : Host.Outcome State Fault Refusal := .next (runCmd rowRingStatus runRingStatus tag s)

def rowRingHcfg : CmdRow := { op := 0x0902, lane := 2, len := 4, head := true, states := stFOS }

def runRingHcfg (i : CmdIn) (s : State) : Reply :=
  if p4 i 0 < 8 then .store (.ringHcfg (BitVec.ofNat 32 (p4 i 0))) s else fail .range s

/-- RING_HCFG_WRITE (R273, R325). -/
def execRingHcfgWrite (tag : Fin 64) (s : State) : Host.Outcome State Fault Refusal := .next (runCmd rowRingHcfg runRingHcfg tag s)

def rowRosterRead : CmdRow := { op := 0x0903, lane := 3, len := 0, head := true, bulkOut := true }

def presenceCode : Presence → Nat
  | .free => 0 | .present => 1 | .absent => 2

/-- The 20 bytes of a roster entry (R325). -/
def rosterBytes (s : State) (a : Fin 61) : List Byte :=
  let e := s.ring.roster[a]
  let m := mirrorEntry s a
  leBytes 1 (rosterAddr a).toNat ++ leBytes 1 (presenceCode e.st) ++ leBytes 1 e.up.toNat ++ leBytes 1 e.down.toNat ++
    leBytes 8 e.uid.toNat ++ leBytes 1 (leAt m 11 1) ++ leBytes 3 0 ++ leBytes 4 (leAt m 12 4)

def runRosterRead (_ : CmdIn) (s : State) : Reply := .done .ok (leBytes 1 61) ((fins 61).flatMap (rosterBytes s)) s

/-- ROSTER_READ (R263, R325). -/
def execRosterRead (tag : Fin 64) (s : State) : Host.Outcome State Fault Refusal := .next (runCmd rowRosterRead runRosterRead tag s)

/-- Address 2 to 62 as a roster index. -/
def addrNo (n : Nat) : Option (Fin 61) := if 2 ≤ n ∧ n ≤ 62 then some (Fin.ofNat 61 (n - 2)) else none

def rowAddrRelease : CmdRow := { op := 0x0904, lane := 2, len := 2, head := true, states := stFOS, pairs := [(0, 1)] }

def runAddrRelease (i : CmdIn) (s : State) : Reply :=
  match addrNo (p1 i 0) with
  | none => fail .range s
  | some a => if (s.ring.roster[a]).st = .absent then .store (.addrRelease a) s else fail .range s

/-- ADDR_RELEASE (R263, R325). -/
def execAddrRelease (tag : Fin 64) (s : State) : Host.Outcome State Fault Refusal := .next (runCmd rowAddrRelease runAddrRelease tag s)

/-- A unit address and a circuit that exist. -/
def memberOk (unit cir : Nat) : Bool := decide (1 ≤ unit) && decide (unit ≤ 62) && decide (1 ≤ cir) && decide (cir ≤ 24)

/-- A branch of a group descriptor (R274). -/
def branchOk (d : List Byte) (k : Nat) : Bool :=
  let b := balBranch d k
  memberOk (bitsN b 5 0) (bitsN b 12 8)

/-- The values of a group descriptor (R274), with the reserved bits of all 27 branches (R9). -/
def balDescOk (d : List Byte) : Bool :=
  decide (1 ≤ leAt d 0 1) && decide (leAt d 0 1 ≤ 16) && decide (leAt d 1 1 ≤ 1) && decide (1 ≤ balTh d) && decide (1 ≤ balNAlarm d) &&
    decide (1 ≤ balCount d) && decide (balCount d ≤ 27) && memberOk (leAt d 6 1) (leAt d 7 1) &&
    (List.range 27).all (fun k => !bitB (balBranch d k) 6 && decide (bitsN (balBranch d k) 15 13 = 0)) && (List.range (balCount d)).all (branchOk d)

def rowBalWrite : CmdRow :=
  { op := 0x0905, lane := 3, len := 0, head := true, bulkIn := some (fun _ b => decide (b.length = 64)), states := stFOS }

def runBalWrite (i : CmdIn) (s : State) : Reply :=
  if balDescOk i.bulk then .store (.balGroup (Fin.ofNat 16 (leAt i.bulk 0 1 - 1)) i.bulk) s else fail .range s

/-- BAL_WRITE (R274, R325). -/
def execBalWrite (tag : Fin 64) (s : State) : Host.Outcome State Fault Refusal := .next (runCmd rowBalWrite runBalWrite tag s)

def rowBalRead : CmdRow := { op := 0x0906, lane := 1, len := 1, head := true }

def runBalRead (i : CmdIn) (s : State) : Reply :=
  if p1 i 0 < 1 ∨ 16 < p1 i 0 then fail .range s
  else okWith (padTo 48 (s.ring.groups[Fin.ofNat 16 (p1 i 0 - 1)]).result) s

/-- BAL_READ (R277, R325). -/
def execBalRead (tag : Fin 64) (s : State) : Host.Outcome State Fault Refusal := .next (runCmd rowBalRead runBalRead tag s)

def rowMirrorRead : CmdRow := { op := 0x0907, lane := 3, len := 1, head := true, bulkOut := true }

def runMirrorRead (i : CmdIn) (s : State) : Reply :=
  match addrNo (p1 i 0) with
  | none => fail .range s
  | some a => .done .ok [] (mirrorEntry s a) s

/-- MIRROR_READ (R279, R325). -/
def execMirrorRead (tag : Fin 64) (s : State) : Host.Outcome State Fault Refusal := .next (runCmd rowMirrorRead runMirrorRead tag s)

/-- A held entry goes to the unit at its address in two halves (R281); `tag` waits for the outcome. -/
def pushMirror (a : Fin 61) (tag : Option (Fin 64)) (s : State) : State :=
  let e := mirrorEntry s a
  let dst := rosterAddr a
  let s := sendFrame tyMbox dst (mboxPayload 4 1 dst 0 0 (e.take 128)) none s
  let s := sendFrame tyMbox dst (mboxPayload 4 1 dst 1 0 (e.drop 128)) none s
  s.modRing (fun r => { r with push := r.push ++ [(dst, tag)] })

def rowMirrorPush : CmdRow := { op := 0x0908, lane := 2, len := 1, head := true, states := stFOS }

def runMirrorPush (i : CmdIn) (s : State) : Reply :=
  match addrNo (p1 i 0) with
  | none => fail .range s
  | some a =>
    if mirrorHeld (mirrorEntry s a) && decide ((s.ring.roster[a]).st = .present) then
      if s.ring.push.any (fun e => e.1 == rosterAddr a) then fail .busy s
      else .hold (pushMirror a (some i.tag) (setCmd i.tag (fun c => { c with remote := true }) s))
    else fail .range s

/-- MIRROR_PUSH (R3, R281, R325): while another push to the address has no outcome, BUSY. -/
def execMirrorPush (tag : Fin 64) (s : State) : Host.Outcome State Fault Refusal := .next (runCmd rowMirrorPush runMirrorPush tag s)

def rowMirrorRelease : CmdRow := { op := 0x0909, lane := 2, len := 1, head := true, states := stFOS }

/-- An entry with HELD cleared (R279, R280). -/
def releasedEntry (e : List Byte) : List Byte := overlay e 11 (leBytes 1 (bitsN (leAt e 11 1) 1 0))

def runMirrorRelease (i : CmdIn) (s : State) : Reply :=
  match addrNo (p1 i 0) with
  | none => fail .range s
  | some a => .store (.mirror a (releasedEntry (mirrorEntry s a))) s

/-- MIRROR_RELEASE (R280, R325). -/
def execMirrorRelease (tag : Fin 64) (s : State) : Host.Outcome State Fault Refusal := .next (runCmd rowMirrorRelease runMirrorRelease tag s)

end Sys2Proof.Machine
end

