-- ==== Sys2Proof/Machine/RingEvents.lean ====
section
/-! DEFINITION. Events of the ring's links, frames, enumeration, addresses and topology (R231, R249 to R270). -/

namespace Sys2Proof.Machine

/-! ### ALIGN (R231, R256) -/

/-- The ring that leaves a port (R249). -/
def exitRing : RingPort → RingSel
  | .a => .secondary
  | .b => .primary

/-- The port at which a ring leaves. -/
def exitPort : RingSel → RingPort
  | .primary => .b
  | .secondary => .a

/-- An ALIGN payload; T3 of an answer is filled in as the frame leaves. -/
def alignPayload (s : State) (kind : Nat) (xseq : BitVec 16) (t2 : List Byte) : List Byte :=
  leBytes 8 Config.uid.toNat ++ leBytes 1 s.ring.addr.toNat ++ leBytes 1 kind ++ leBytes 2 xseq.toNat ++ padTo 12 t2 ++ leBytes 12 0

def alignKind (bs : List Byte) : Nat := leAt bs 9 1

/-- A request of a port that has not left its queue. -/
def isAlignReq (g : RingSel) (f : TxFrame) : Bool := decide (f.ring = g) && decide (f.typ = tyAlign) && decide (alignKind f.payload = 1)

/-- ALIGN_SEND (R231): every 125 ms on each port; a request without its answer breaks the run of good exchanges (R268). -/
def execAlignSend (p : RingPort) (s : State) : Host.Outcome State Fault Refusal :=
  .next (if s.coreOn && s.time.syncOk && (portOf p s.ring).up then
      let g := exitRing p
      let s := s.modRing (fun r => modPortOf p (fun q =>
        { q with xseq := q.xseq + 1, good := if q.sentT1.isSome then 0 else q.good, sentT1 := none })
        { r with txq := r.txq.filter (fun f => !isAlignReq g f) })
      sendOn g tyAlign broadcast (alignPayload s 1 (portOf p s.ring).xseq []) s
    else s)

/-- The mean of up to eight exchanges, kept in 32 bits (R231, R232). -/
def meanDelay (l : List Int) : Word := BitVec.ofInt 32 (clampInt 0 4294967295 (roundDiv l.sum l.length))

/-- An answer within 5 cycles of its request joins the average (R231, R256). `t4` is its arrival in 2^-16 ns. -/
def takeAlignAnswer (t4 : Nat) (bs : List Byte) (q : LinkPort) : LinkPort :=
  match q.sentT1 with
  | none => q
  | some (t1, ms) =>
    if leAt bs 10 2 ≠ q.xseq.toNat ∨ ms + 5 < t4 / (nsUnits * 1000000) then q
    else
      let t2 := (stampOf (sliceAt bs 12 12)).total * nsUnits
      let t3 := (stampOf (sliceAt bs 24 12)).total * nsUnits
      let d := (((t4 : Int) - t1) - ((t3 : Int) - t2)) / 2
      let h := (d :: q.history).take 8
      { q with history := h, delay := meanDelay h, good := q.good + 1, sentT1 := none }

/-! ### Topology (R261, R267, R268) -/

/-- Positions in primary order of the two ends of a gap, among all held addresses: the head is 0 above it and n + 1 below it (R261). -/
def upPos (r : Ring) (a : BitVec 6) : Nat := if a = 1 then 0 else r.chain.findIdx (· == a) + 1
def downPos (r : Ring) (a : BitVec 6) : Nat := if a = 1 then r.chain.length + 1 else r.chain.findIdx (· == a) + 1

/-- The head still hears a unit: it is PRESENT, or a frame has come from it within the last 10 cycles (R263). -/
def reachable (s : State) (a : BitVec 6) : Bool :=
  decide (a = 1) || rosterPresent s.ring a ||
    (match rosterIdx a with | some i => rosterHeld s.ring a && decide (s.time.ticks < (s.ring.roster[i]).heard + 320) | none => false)

/-- The nearest unit that the head still hears above a position, and below one; the head at either end. -/
def lastUp (s : State) (p : Nat) : BitVec 6 := ((s.ring.chain.take p).reverse.find? (reachable s)).getD 1
def firstDown (s : State) (p : Nat) : BitVec 6 := ((s.ring.chain.drop p).find? (reachable s)).getD 1

/-- The unit after `a` in primary order, and the one before it. -/
def nextUnit (s : State) (a : BitVec 6) : BitVec 6 := firstDown s (upPos s.ring a)
def prevUnit (s : State) (a : BitVec 6) : BitVec 6 := lastUp s (downPos s.ring a - 1)

/-- What the port B of unit `x` tells of the broken place behind it, and its port A of the one before it (R267, R268). -/
def noteB (x : BitVec 6) (ok : Bool) (s : State) : State :=
  let l := s.ring.breaks
  let n := nextUnit s x
  let l := if ok || l.any (fun b => decide (b.up = x)) then l.map (fun b => if b.up = x then { b with upOk := ok } else b)
    else l.filter (fun b => b.down ≠ n) ++ [{ up := x, down := n, upOk := false, downOk := l.any (fun b => decide (b.down = n) && b.downOk) }]
  s.modRing (fun r => { r with breaks := l })

def noteA (x : BitVec 6) (ok : Bool) (s : State) : State :=
  let l := s.ring.breaks
  let p := prevUnit s x
  let l := if ok || l.any (fun b => decide (b.down = x)) then l.map (fun b => if b.down = x then { b with downOk := ok } else b)
    else l.filter (fun b => b.up ≠ p) ++ [{ up := p, down := x, upOk := l.any (fun b => decide (b.up = p) && b.upOk), downOk := false }]
  s.modRing (fun r => { r with breaks := l })

/-- A broken place is whole again (R268): both its ends report their ports up; an end that the head does not hear may be unassigned. -/
def Break.closed (s : State) (b : Break) : Bool :=
  (b.upOk || b.downOk) && (b.upOk || !reachable s b.up) && (b.downOk || !reachable s b.down)

/-- The single gap that encloses every broken place, between units that the head hears (R267, R269). -/
def enclosing (s : State) : Option (BitVec 6 × BitVec 6) :=
  match s.ring.breaks with
  | [] => none
  | b :: bs =>
    let p := bs.foldl (fun m x => min m (upPos s.ring x.up)) (upPos s.ring b.up)
    let q := bs.foldl (fun m x => max m (downPos s.ring x.down)) (downPos s.ring b.down)
    some (lastUp s p, firstDown s (q - 1))

/-- The topology that will hold: the one announced, or the one in force. -/
def nextGap (r : Ring) : Option (BitVec 6 × BitVec 6) :=
  match r.wrapPend with
  | some w => if w.up = 0 then none else some (BitVec.ofNat 6 w.up.toNat, BitVec.ofNat 6 w.down.toNat)
  | none => r.gap.map (fun w => (BitVec.ofNat 6 w.up.toNat, BitVec.ofNat 6 w.down.toNat))

/-- The head announces a topology; AT is the first cycle boundary at least 3 ms ahead. None while a step is pending or an
announcement runs (R267). -/
def announce (g : Option (BitVec 6 × BitVec 6)) (s : State) : State :=
  if s.time.step.isSome || s.ring.wrapPend.isSome then s
  else
    let at_ := (s.nowNs + 3000000 + 999999) / 1000000 * 1000000
    let e := g.getD (0, 0)
    s.modRing (fun r => { r with wrapPend := some { up := BitVec.ofNat 8 e.1.toNat, down := BitVec.ofNat 8 e.2.toNat, at_ := at_ } })

/-- The head's own ports at its own broken places (R268). -/
def ownBreaks (r : Ring) : Ring :=
  { r with breaks := r.breaks.map (fun b =>
      { b with upOk := if b.up = 1 then r.portB.reported else b.upOk, downOk := if b.down = 1 then r.portA.reported else b.downOk }) }

/-- The head looks at every broken place it knows and announces the topology that they give (R267 to R269). -/
def headTopology (s : State) : State :=
  if !s.ring.isHead then s
  else
    let s := s.modRing ownBreaks
    let s := s.modRing (fun r => { r with breaks := r.breaks.filter (fun b => !b.closed s) })
    if enclosing s = nextGap s.ring then s else announce (enclosing s) s

/-- ALIGN_RECEIVED (R231, R256, R268): `dt` is the time in 2^-16 ns from the present sample to the timestamp point. -/
def execAlignReceived (p : RingPort) (f : RxFrame) (dt : Nat) (s : State) : Host.Outcome State Fault Refusal :=
  .next (if !s.coreOn || rxStalled s p then s
    else if !frameGood f then countFrameErr s
    else if f.typ ≠ tyAlign then s
    else
      let s := s.modRing (modPortOf p (fun q => { q with uid := BitVec.ofNat 64 (leAt f.payload 0 8) }))
      if alignKind f.payload = 1 then
        sendOn (exitRing p) tyAlign broadcast
          (alignPayload s 2 (BitVec.ofNat 16 (leAt f.payload 10 2)) (s.stampAt ((s.time.rt + dt) / nsUnits)).bytes) s
      else if alignKind f.payload = 2 then headTopology (s.modRing (modPortOf p (takeAlignAnswer (s.time.rt + dt) f.payload)))
      else s)

/-! ### Links -/

/-- LINK_UP (R252). -/
def execLinkUp (p : RingPort) (s : State) : Host.Outcome State Fault Refusal :=
  .next (if s.coreOn && !(portOf p s.ring).up then
      s.modRing (modPortOf p (fun q => { q with up := true, good := 0, history := [], sentT1 := none }))
    else s)

/-- A link is lost (R232, R252, R267): the head knows a broken place of its own, another unit has a change to report. -/
def linkLost (p : RingPort) (errors : Nat) (s : State) : State :=
  if (portOf p s.ring).up then
    let s := s.modRing (fun r => modPortOf p (fun q =>
      { q with up := false, good := 0, delay := 0, history := [], sentT1 := none, uid := 0, tell := true }) { r with codeErr := satAdd r.codeErr errors })
    if s.ring.isHead then headTopology (match p with | .a => noteA 1 false s | .b => noteB 1 false s) else s
  else s

/-- LINK_DOWN (R232, R252, R267): `errors` is the number of code and disparity errors seen since the last report. -/
def execLinkDown (p : RingPort) (errors : Nat) (s : State) : Host.Outcome State Fault Refusal :=
  .next (if s.coreOn then linkLost p errors s else s)

/-! ### Frames -/

/-- Frames of a ring that a unit may send now: a unit without an address sends ALIGN and claims only (R264), and nothing goes to
a destination whose route has just changed (R272). -/
def frameMayGo (s : State) (cycle : Nat) (f : TxFrame) : Bool :=
  (decide (s.ring.addr ≠ 0) || decide (f.typ = tyAlign) || decide (f.typ = tyVacancy)) &&
    !(decide (cycle < s.ring.wrapQuiet) &&
      s.ring.quietDst.contains (if f.typ = tyMbox then BitVec.ofNat 6 (leAt f.payload 2 1) else f.dst))

/-- The characters of own frames that a window takes (R257, R258); a claimant starts 2 characters into the claim window (R264). -/
def windowRoom (s : State) : Nat := if s.ring.isHead then 1225 else if s.ring.addr = 0 then 598 else 600

/-- The own frames that a window on a ring takes in a cycle, and those that wait. -/
def windowFrames (g : RingSel) (cycle : Nat) (s : State) : List TxFrame × List TxFrame :=
  fitWindow (windowRoom s) [] (inOrder s.ring.isHead (s.ring.txq.filter (fun f => decide (f.ring = g) && frameMayGo s cycle f)))

/-- The correction as sent on (R229, R254): after a pair violation the remaining pairs pass unchanged. -/
def forwardCorr (f : RxFrame) (delay : Int) : BitVec 64 :=
  let sum := f.corr + BitVec.ofInt 64 delay
  if f.violation then BitVec.ofNat 64 (sum.toNat % 2 ^ f.violAt + f.corr.toNat / 2 ^ f.violAt * 2 ^ f.violAt) else sum

/-- An SOF from upstream in the unit's own window (R259): the own frames of the cycle on that ring are abandoned, those that have begun to
leave and those that would have; IDLE at least. -/
def abandonWindow (g : RingSel) (s : State) : State :=
  let begun := if s.ring.sentCycle.toNat = s.nowMs % 2 ^ 16 then s.ring.sent.filter (fun f => decide (f.ring = g)) else []
  let n := if begun.isEmpty then (windowFrames g s.nowMs s).1.length else begun.length
  s.modRing (fun r => { r with abandoned := satAdd r.abandoned (max 1 n), dupAddr := true, noTx := (g, s.nowMs) :: r.noTx.filter (fun e => decide (e.2 = s.nowMs)),
                               sent := if begun.isEmpty then r.sent else r.sent.filter (fun f => decide (f.ring ≠ g)) })

/-- FRAME_FORWARD (R229, R232, R253 to R256, R259): an ALIGN goes no further; the delay of an asymmetry just written counts from the next
SYNC on; a frame that fails its checks is counted. -/
def execFrameForward (r : RingSel) (f : RxFrame) (resid : Nat) (inWindow : Bool) (s : State) : Host.Outcome State Fault Refusal :=
  .next (if s.coreOn && !s.ring.isHead && (portOf (entryPort r) s.ring).up then
      let s := if f.typ = tySync ∧ frameGood f then takeAsym s else s
      let s := if f.typ = tyAlign then s
        else s.modRing (fun k => { k with fwdCorr := forwardCorr f (linkDelay (portOf (entryPort r) k) + resid) })
      let s := if f.typ ≠ tyAlign ∧ !frameGood f ∧ !frameForMe s f then countFrameErr s else s
      if inWindow && decide (s.ring.addr ≠ 0) then abandonWindow r s else s
    else s)

/-- The WRAP payload (R267). -/
def wrapPayload (kind up down ports : Nat) (at_ : List Byte) : List Byte :=
  leBytes 1 kind ++ leBytes 1 up ++ leBytes 1 down ++ leBytes 1 ports ++ padTo 12 at_

/-- The head announces a pending topology in the three cycles before AT (R267). -/
def headWraps (cycle : Nat) (g : RingSel) (s : State) : State :=
  match s.ring.wrapPend with
  | some w =>
    if s.ring.isHead && decide (w.at_ / 1000000 ≤ cycle + 3) && decide (cycle < w.at_ / 1000000) then
      sendOn g tyWrap broadcast (wrapPayload 1 w.up.toNat w.down.toNat 0 (s.stampAt w.at_).bytes) s
    else s
  | none => s

/-- A port's state, and what a topology says of it: a broken place behind port B of `up`, before port A of `down`. -/
def portNamed (addr : BitVec 6) (g : Option (BitVec 6 × BitVec 6)) (p : RingPort) : Bool :=
  match g with
  | some e => decide ((match p with | .a => e.2 | .b => e.1) = addr)
  | none => false

/-- A unit's own ports contradict the topology announced, or no announcement has named a change of them yet (R267, R268). -/
def mustReport (s : State) : Bool :=
  let g := nextGap s.ring
  let due : RingPort → Bool := fun p =>
    let q := portOf p s.ring
    q.tell || (if portNamed s.ring.addr g p then q.reported else !q.up)
  due .a || due .b

/-- A unit's WRAP report, on the ring toward the head that its links allow, in every cycle until an announcement names it (R267). -/
def unitReport (g : RingSel) (s : State) : State :=
  if !s.ring.isHead && decide (s.ring.addr ≠ 0) && mustReport s && (portOf (exitPort g) s.ring).up then
    sendOn g tyWrap 1 (wrapPayload 2 0 0 (bitN s.ring.portA.reported + 2 * bitN s.ring.portB.reported) []) s
  else s

/-- What leaves with a frame: the address in use, and T3 of an ALIGN answer (R231, R255). `t` is the frame's timestamp point. -/
def stampFrame (s : State) (t : Nat) (f : TxFrame) : TxFrame :=
  let f := { f with src := s.ring.addr }
  if f.typ = tyAlign ∧ alignKind f.payload = 2 then { f with payload := overlay f.payload 24 (s.stampAt (t / nsUnits)).bytes } else f

/-- The frames of a window with their timestamp points, 25 ns per character. -/
def layFrames (s : State) : Nat → List TxFrame → List (Nat × TxFrame)
  | _, [] => []
  | t, f :: fs => (t, stampFrame s t f) :: layFrames s (t + frameChars f * 25 * nsUnits) fs

/-- A request's T1 is the timestamp point at which it left (R231). -/
def noteT1 (e : Nat × TxFrame) (s : State) : State :=
  if e.2.typ = tyAlign ∧ alignKind e.2.payload = 1 then
    s.modRing (modPortOf (exitPort e.2.ring) (fun q => { q with sentT1 := some (e.1, e.1 / (nsUnits * 1000000)) }))
  else s

/-- IDLE goes out where a unit with an address sends nothing else on a ring (R256). -/
def withIdle (g : RingSel) (l : List TxFrame) (s : State) : List TxFrame × State :=
  if l.isEmpty && !s.stalled 4 && !s.ring.isHead && decide (s.ring.addr ≠ 0) then
    let n := nextSeq tyIdle s
    ([mkFrame g tyIdle 1 s.ring.addr n.1 (idlePayload s) none], n.2)
  else (l, s)

/-- With TXQ stalled own frames wait (R400). The window of a ring passes the output at an instant, the timestamp point of its first frame in
2^-16 ns (R258). -/
def fillWindow (g : RingSel) (t0 : Nat) (s : State) : State :=
  let cycle := t0 / (nsUnits * 1000000)
  let s := unitReport g (headWraps cycle g s)
  let kept := s.ring.txq.filter (fun f => !(decide (f.ring = g) && frameMayGo s cycle f))
  let x := windowFrames g cycle s
  let x := if s.stalled 4 then ([], x.1 ++ x.2) else x
  let w := withIdle g x.1 s
  let laid := layFrames w.2 t0 w.1
  let s := w.2.modRing (fun r => { r with txq := kept ++ x.2, sent := laid.map (·.2), sentCycle := BitVec.ofNat 16 cycle,
                                          deferred := satAdd r.deferred x.2.length })
  let s := s.forEach laid noteT1
  let s := s.forEach (x.2.filterMap (·.tag)) (fun t s => addYield t 8 s)
  s.forEach (x.1.filterMap (·.tag)) releaseSent

/-- In a cycle in which a frame from upstream has come in the own window, nothing of the unit's own goes out on that ring (R259). -/
def sendWindow (g : RingSel) (t0 : Nat) (s : State) : State :=
  let s := takeGrant (t0 / (nsUnits * 1000000)) s
  if s.ring.noTx.contains (g, t0 / (nsUnits * 1000000)) then s else fillWindow g t0 s

/-- UNIT_WINDOW (R256 to R260, R264). `dt` is the time in 2^-16 ns from the present sample to the timestamp point of the first frame. -/
def execUnitWindow (r : RingSel) (dt : Nat) (s : State) : Host.Outcome State Fault Refusal :=
  .next (if s.coreOn && s.time.syncOk then sendWindow r (s.time.rt + dt) (headTopology s) else s)

/-! ### Enumeration (R262, R263, R266) -/

/-- The ENUM request (R262). -/
def enumPayload (s : State) : List Byte :=
  leBytes 1 1 ++ leBytes 1 (bitsN s.ring.hcfg.toNat 2 1) ++ leBytes 1 s.ring.order.length ++
    padTo 61 (s.ring.order.map (fun a => BitVec.ofNat 8 a.toNat)) ++ leBytes 8 Config.uid.toNat

/-- ENUM_SEND (R262). -/
def execEnumSend (s : State) : Host.Outcome State Fault Refusal :=
  .next (if s.coreOn && s.ring.isHead && s.time.startStored then
      (sendFrame tyEnum broadcast (enumPayload s) none s).modRing (fun r => { r with enumDue := false, learned := [] })
    else s)

def enumHeadUid (bs : List Byte) : BitVec 64 := BitVec.ofNat 64 (leAt bs 64 8)

/-- The ENUM reply (R262). -/
def enumReply (s : State) : List Byte :=
  leBytes 1 2 ++ leBytes 1 (idleState s) ++ leBytes 2 0 ++ leBytes 8 Config.uid.toNat ++
    leBytes 8 (if s.ring.portA.up then s.ring.portA.uid.toNat else 0) ++ leBytes 8 (if s.ring.portB.up then s.ring.portB.uid.toNat else 0) ++
    leBytes 4 s.ring.mirrorGen.toNat

/-- A head that another head with a lower UID outranks: it forwards like any other unit, takes address 0 and claims; its frames as head, the
topology and the step it has announced are gone (R250). -/
def yieldHead (s : State) : State :=
  (s.modRing (fun r => { r with isHead := false, wasHead := true, addr := 0, headConflict := true, headUid := none, wrapPend := none,
                                breaks := [], push := [], backoff := 0,
                                txq := r.txq.filter (fun f => !f.relay && (decide (f.typ = tyMbox) || decide (f.typ = tyAlign))) })).modTime
    (fun t => { t with seen := false, syncOk := false, step := none })

/-- A unit takes the head's order, period and identity; it answers where it has an address, and sends its mirror content to a new
head (R262, R280). -/
def takeEnum (bs : List Byte) (s : State) : State :=
  let uid := enumHeadUid bs
  let s := s.modRing (fun r =>
    { r with order := (sliceAt bs 3 (min (leAt bs 2 1) 61)).map (fun b => BitVec.ofNat 6 b.toNat), balPeriod := BitVec.ofNat 2 (leAt bs 1 1),
             mirrorDue := r.mirrorDue || (decide (r.headUid ≠ some uid) && decide (r.addr ≠ 0)), headUid := some uid })
  if s.ring.addr = 0 then s else sendFrame tyEnum 1 (enumReply s) none s

/-- ENUM_RECEIVED (R250, R262). -/
def execEnumReceived (f : RxFrame) (s : State) : Host.Outcome State Fault Refusal :=
  .next (withFrame tyEnum f s (fun s =>
    if leAt f.payload 0 1 ≠ 1 then s
    else if s.ring.isHead then (if enumHeadUid f.payload < Config.uid then yieldHead s else s)
    else takeEnum f.payload s))

/-- The address of a neighbour's UID: the head 1, a unit of the roster its own, any other 0 (R263). -/
def neighbourAddr (r : Ring) (uid : BitVec 64) : BitVec 6 :=
  if uid = Config.uid then 1 else match addrOfUid r uid with | some i => rosterAddr i | none => 0

/-- A VACANCY payload (R264). -/
def vacancyPayload (kind addr flags : Nat) (uid up down : BitVec 64) : List Byte :=
  leBytes 1 kind ++ leBytes 1 addr ++ leBytes 1 flags ++ leBytes 1 0 ++ leBytes 8 uid.toNat ++ leBytes 8 up.toNat ++ leBytes 8 down.toNat

/-- The head withdraws an address from a UID (R266). -/
def sendRevoke (i : Fin 61) (uid : BitVec 64) (s : State) : State :=
  (sendFrame tyVacancy broadcast (vacancyPayload 4 (rosterAddr i).toNat 0 uid 0 0) none s).modRing (fun r => { r with enumDue := true })

/-- The roster takes a reply's neighbours and generation; the order is formed again (R262, R263). -/
def recordUnit (i : Fin 61) (bs : List Byte) (s : State) : State :=
  s.modRing (fun r =>
    let up := BitVec.ofNat 64 (leAt bs 12 8)
    let down := BitVec.ofNat 64 (leAt bs 20 8)
    reorder { r with roster := vmod r.roster i (fun e =>
      { e with st := .present, uid := BitVec.ofNat 64 (leAt bs 4 8), up := neighbourAddr r up, down := neighbourAddr r down, upUid := up,
               downUid := down, gen := BitVec.ofNat 32 (leAt bs 28 4), heard := s.time.ticks }) })

/-- A reply at the head (R262, R263, R266). -/
def takeReply (i : Fin 61) (bs : List Byte) (s : State) : State :=
  let e := s.ring.roster[i]
  let uid := BitVec.ofNat 64 (leAt bs 4 8)
  if e.st = .free then (recordUnit i bs s).modRing (fun r => { r with learned := rosterAddr i :: r.learned, enumDue := true })
  else if e.uid = uid then
    let s := if e.st = .absent then s.modRing (fun r => { r with enumDue := true }) else s
    recordUnit i bs s
  else if s.ring.learned.contains (rosterAddr i) && decide (uid < e.uid) then sendRevoke i e.uid (recordUnit i bs s)
  else sendRevoke i uid s

/-- ENUM_REPLY_RECEIVED (R255, R262, R266): replies of two units at one address are both looked at. -/
def execEnumReplyReceived (f : RxFrame) (s : State) : Host.Outcome State Fault Refusal :=
  .next (if !s.coreOn then s
    else if !frameGood f then countFrameErr s
    else if f.typ ≠ tyEnum ∨ !frameForMe s f ∨ !s.ring.isHead ∨ leAt f.payload 0 1 ≠ 2 then s
    else match rosterIdx f.src with
      | some i => takeReply i f.payload (hear f s)
      | none => s)

/-- IDLE_RECEIVED (R256, R263, R280). -/
def execIdleReceived (f : RxFrame) (s : State) : Host.Outcome State Fault Refusal :=
  .next (withFrame tyIdle f s (fun s =>
    if !s.ring.isHead then s
    else match rosterIdx f.src with
      | some i => s.modRing (fun r => { r with roster := vmod r.roster i (fun e => { e with gen := BitVec.ofNat 32 (leAt f.payload 4 4) }) })
      | none => s))

/-- ROSTER_ABSENT (R263): no frame has come from the address for 10 cycles. -/
def execRosterAbsent (a : Fin 61) (s : State) : Host.Outcome State Fault Refusal :=
  .next (if s.coreOn && s.ring.isHead && decide ((s.ring.roster[a]).st = .present) && decide ((s.ring.roster[a]).heard + 320 ≤ s.time.ticks) then
      s.modRing (fun r => reorder { r with roster := vmod r.roster a (fun e => { e with st := .absent }), enumDue := true })
    else s)

/-! ### Claims (R264, R265) -/

/-- CLAIM (R264): with an SOF from upstream the unit waits a further UID mod 16 cycles. -/
def execClaim (sofSeen : Bool) (s : State) : Host.Outcome State Fault Refusal :=
  .next (if s.coreOn && s.time.syncOk && !s.ring.isHead && decide (s.ring.addr = 0) && s.ring.grantPend.isNone then
      if 0 < s.ring.backoff then s.modRing (fun r => { r with backoff := r.backoff - 1 })
      else if sofSeen then s.modRing (fun r => { r with backoff := Config.uid.toNat % 16 })
      else
        let s := s.modRing (fun r => { r with txq := r.txq.filter (fun f => decide (f.typ ≠ tyVacancy)) })
        let bs := vacancyPayload 2 0 0 Config.uid s.ring.portA.uid s.ring.portB.uid
        sendOn .secondary tyVacancy 1 bs (sendOn .primary tyVacancy 1 bs s)
    else s)

/-- A claimant's neighbour matches a recorded one: an unassigned neighbour matches any (R265). -/
def neighbourFits (r : Ring) (uid : BitVec 64) (recorded : BitVec 6) : Bool :=
  if uid = 0 then decide (recorded = 0)
  else decide (neighbourAddr r uid = 0) || decide (neighbourAddr r uid = recorded)

/-- A claim as the head hears it (R264). -/
structure Claim where
  uid : BitVec 64
  up : BitVec 64
  down : BitVec 64

def claimOf (bs : List Byte) : Claim :=
  { uid := BitVec.ofNat 64 (leAt bs 4 8), up := BitVec.ofNat 64 (leAt bs 12 8), down := BitVec.ofNat 64 (leAt bs 20 8) }

/-- Claims in ascending UID, each UID once (R265); the copies of a claim on the two rings are one. -/
def insertClaim (c : Claim) : List Claim → List Claim
  | [] => [c]
  | d :: ds => if c.uid < d.uid then c :: d :: ds else if c.uid = d.uid then d :: ds else d :: insertClaim c ds

/-- The place of a claimant in primary order, in 1/64 of a position: behind its UP neighbour, a unit of the ring or another claimant, or
before its DOWN neighbour (R265). -/
def claimPos (r : Ring) (all : List Claim) : Nat → Claim → Nat
  | 0, _ => 8192
  | fuel + 1, c =>
    let at_ : BitVec 64 → Nat → Option Nat := fun uid head =>
      if uid = Config.uid then some head else (addrOfUid r uid).map (fun i => r.chain.findIdx (· == rosterAddr i) + 1)
    match at_ c.up 0 with
    | some p => 64 * p + 1
    | none => match all.find? (fun d => decide (c.up ≠ 0) && decide (d.uid = c.up)) with
      | some d => claimPos r all fuel d + 1
      | none => match at_ c.down (r.chain.length + 1) with
        | some p => 64 * p - 1
        | none => 8192

/-- An ABSENT address whose recorded neighbours are the claimant's (R265). -/
def claimFits (r : Ring) (c : Claim) (i : Fin 61) : Bool :=
  decide (r.roster[i].st = .absent) && neighbourFits r c.up r.roster[i].up && neighbourFits r c.down r.roster[i].down

/-- The address of a claim by rules 1 to 3 of R265. `rest` holds the claims of the cycle still to be decided, `all` every claim of it. -/
def claimAddr (r : Ring) (all rest : List Claim) (c : Claim) : Option (Fin 61) :=
  (addrOfUid r c.uid).or
    (((fins 61).find? (fun i => claimFits r c i && !rest.any (fun d =>
        (addrOfUid r d.uid).isNone && claimFits r d i && decide (claimPos r all 62 d < claimPos r all 62 c)))).or
      ((fins 61).find? (fun i => decide (r.roster[i].st = .free))))

/-- A mirror entry that a new UID takes over: its content is kept, and held where there is any (R279, R280). -/
def heldEntry (e : List Byte) (uid : BitVec 64) (a : BitVec 6) : List Byte :=
  overlay (overlay e 0 (leBytes 8 uid.toNat ++ leBytes 1 a.toNat)) 11
    (leBytes 1 (bitsN (leAt e 11 1) 1 0 + 4 * bitN (bitB (leAt e 11 1) 0 || mirrorHeld e)))

/-- The head grants an address (R263, R265, R280, R281). -/
def grantAddr (i : Fin 61) (uid up down : BitVec 64) (s : State) : State :=
  let e := s.ring.roster[i]
  let isNew := decide (e.st = .free) || decide (e.uid ≠ uid)
  let entry := if isNew then heldEntry (mirrorEntry s i) uid (rosterAddr i) else mirrorEntry s i
  let held := mirrorHeld entry
  let now := s.time.ticks
  let take : Ring → RosterEntry → RosterEntry := fun r e =>
    { e with st := .present, uid := uid, up := neighbourAddr r up, down := neighbourAddr r down, upUid := up, downUid := down, heard := now }
  let s := s.modRing (fun r => reorder { r with roster := vmod r.roster i (take r), enumDue := true })
  let s := sendFrame tyVacancy broadcast (vacancyPayload 3 (rosterAddr i).toNat (bitN held) uid 0 0) none s
  if isNew then
    let s := openStore (.mirror i entry) none s
    if held && bitB s.ring.hcfg.toNat 0 then pushMirror i none (setMirror i entry s) else s
  else s

/-- The head decides one claim: GRANT, or FULL where no address is left (R265). -/
def decideClaim (all rest : List Claim) (c : Claim) (s : State) : State :=
  match claimAddr s.ring all rest c with
  | some i => grantAddr i c.uid c.up c.down s
  | none => sendFrame tyVacancy broadcast (vacancyPayload 5 0 0 c.uid 0 0) none s

def decideClaims (all : List Claim) : List Claim → State → State
  | [], s => s
  | c :: rest, s => decideClaims all rest (decideClaim all rest c s)

/-- The claims that the frames of a cycle bring (R255, R264). -/
def claimsIn (s : State) (fs : List RxFrame) : List Claim :=
  fs.foldl (fun l f => if frameGood f ∧ f.typ = tyVacancy ∧ frameForMe s f ∧ leAt f.payload 0 1 = 2 then insertClaim (claimOf f.payload) l else l) []

/-- CLAIM_RECEIVED (R265): the claims that have arrived in one cycle, on both rings; the head decides them in ascending UID. -/
def execClaimReceived (fs : List RxFrame) (s : State) : Host.Outcome State Fault Refusal :=
  .next (if !s.coreOn then s
    else
      let s := s.forEach (fs.filter (fun f => !frameGood f)) (fun _ s => countFrameErr s)
      if s.ring.isHead then decideClaims (claimsIn s fs) (claimsIn s fs) s else s)

/-- The payload of a VACANCY frame names this unit and a kind. -/
def vacancyForMe (kind : Nat) (f : RxFrame) : Bool := decide (leAt f.payload 0 1 = kind) && decide (leAt f.payload 4 8 = Config.uid.toNat)

/-- The RING page is stored (R265, R266); during a freeze the save stores it. -/
def storeRingPage (s : State) : State := if s.hw.frozen then s else openStore (.page 111) none s

/-- GRANT (R265, R280): the address is in use from the next cycle on; its store does not delay that. -/
def execGrant (f : RxFrame) (s : State) : Host.Outcome State Fault Refusal :=
  .next (withFrame tyVacancy f s (fun s =>
    if vacancyForMe 3 f && !s.ring.isHead then
      storeRingPage (s.modRing (fun r => { r with grantPend := some (BitVec.ofNat 6 (leAt f.payload 1 1), s.nowMs), mirrorDue := true, backoff := 0 }))
    else s))

/-- REVOKE (R266). -/
def execRevoke (f : RxFrame) (s : State) : Host.Outcome State Fault Refusal :=
  .next (withFrame tyVacancy f s (fun s =>
    if vacancyForMe 4 f && !s.ring.isHead then storeRingPage (s.modRing (fun r => { r with addr := 0, grantPend := none, backoff := 0 })) else s))

/-- FULL (R265): the claimant claims again after 1,000 cycles. -/
def execFull (f : RxFrame) (s : State) : Host.Outcome State Fault Refusal :=
  .next (withFrame tyVacancy f s (fun s =>
    if vacancyForMe 5 f && !s.ring.isHead then s.modRing (fun r => { r with ringFull := true, backoff := 1000 }) else s))

/-! ### Gaps (R267 to R269) -/

/-- What a report of unit `x` adds to the topology: an end of a broken place that is up again, or a break of its own (R267, R268). -/
def takeReport (x : BitVec 6) (ports : Nat) (s : State) : State := headTopology (noteA x (bitB ports 0) (noteB x (bitB ports 1) s))

/-- WRAP_REPORT_RECEIVED (R267, R268). -/
def execWrapReportReceived (f : RxFrame) (s : State) : Host.Outcome State Fault Refusal :=
  .next (withFrame tyWrap f s (fun s =>
    if s.ring.isHead && decide (leAt f.payload 0 1 = 2) then takeReport f.src (leAt f.payload 3 1) s else s))

/-- An announcement names a port's change where it agrees with the port. -/
def named (r : Ring) (p : RingPort) : Ring :=
  if portNamed r.addr (nextGap r) p = !(portOf p r).up then modPortOf p (fun q => { q with tell := false }) r else r

/-- WRAP_ANNOUNCE_RECEIVED (R267). -/
def execWrapAnnounceReceived (f : RxFrame) (s : State) : Host.Outcome State Fault Refusal :=
  .next (withFrame tyWrap f s (fun s =>
    if !s.ring.isHead && decide (leAt f.payload 0 1 = 1) then
      let w : Wrap := { up := BitVec.ofNat 8 (leAt f.payload 1 1), down := BitVec.ofNat 8 (leAt f.payload 2 1),
                        at_ := (stampOf (sliceAt f.payload 4 12)).total }
      s.modRing (fun r => named (named { r with wrapPend := some w } .a) .b)
    else s))

/-- A queued frame follows the new topology (R261, R267); ALIGN, claims, broadcasts and the head's frames keep their ring. -/
def reroute (s : State) (f : TxFrame) : TxFrame :=
  if s.ring.isHead ∨ f.typ = tyAlign ∨ f.typ = tyVacancy ∨ f.dst = broadcast then f
  else
    let r := routeTo s (finalDst f)
    { f with ring := r.1.headD f.ring, dst := if r.2 then 1 else finalDst f }

/-- The units of an island become ABSENT (R269). -/
def islandAbsent (w : Wrap) (r : Ring) : Ring :=
  if !r.isHead || w.up == 0 then r
  else
    let inside : Fin 61 → Bool := fun i =>
      let a := rosterAddr i
      r.chain.contains a && decide (upPos r (BitVec.ofNat 6 w.up.toNat) < upPos r a) && decide (upPos r a < downPos r (BitVec.ofNat 6 w.down.toNat))
    reorder { r with roster := Vector.ofFn (fun i =>
      if inside i && decide ((r.roster[i]).st = Presence.present) then { r.roster[i] with st := .absent } else r.roster[i]) }

/-- The announced topology applies (R267, R269, R272, R277). -/
def applyWrap (w : Wrap) (s : State) : State :=
  let new := s.modRing (fun r =>
    islandAbsent w { r with gap := if w.up = 0 then none else some w, wrapPend := none, balGap := true, enumDue := r.enumDue || r.isHead })
  let moved := (1 :: s.ring.order).filter (fun a => decide (routeTo s a ≠ routeTo new a))
  new.modRing (fun r => { r with wrapQuiet := w.at_ / 1000000 + 3, quietDst := moved, txq := r.txq.map (reroute new) })

/-- WRAP_AT (R267). -/
def execWrapAt (s : State) : Host.Outcome State Fault Refusal :=
  .next (match s.ring.wrapPend with
    | some w => if s.coreOn && s.reached w.at_ then applyWrap w s else s
    | none => s)

end Sys2Proof.Machine
end

