-- ==== Sys2Proof/Machine/CdcEvents.lean ====
section
/-! DEFINITION. Events of the watched crossings and their log (R396 to R405). -/

namespace Sys2Proof.Machine

/-- The watchdogs of crossing k work: those in PD_AO (LFDN) as long as it is supplied, the others with the core. -/
def cdcWatched (k : Fin 12) (s : State) : Bool := if k = 8 then decide (s.power.state ≠ .off) else s.coreOn

/-- A port's receive crossing has stalled: its link goes down (R252, R400). -/
def dropLink (p : RingPort) (s : State) : State :=
  if (portOf p s.ring).up then
    linkLost p 0 s
  else s

/-- What a stall does at once (R400): clock reads keep the last record, a port's link goes down, a wideband window has a gap. -/
def onStall (k : Fin 12) (s : State) : State :=
  match k.val with
  | 1 => s.modPq (fun p => { p with wbGap := true })
  | 2 => dropLink .a s
  | 3 => dropLink .b s
  | 7 => s.modClk (fun c => { c with latched := some (clkImage s) })
  | _ => s

/-- CDC_STALL (R399, R400, R405). -/
def execCdcStall (k : Fin 12) (s : State) : Host.Outcome State Fault Refusal :=
  .next (if cdcWatched k s && !s.stalled k.val then
      onStall k (s.modCdc (fun c => { c with stall := c.stall ||| BitVec.ofNat 12 (2 ^ k.val), stalls := vmod c.stalls k (fun n => satAdd n 1),
                                             last := s.stamp }))
    else s)

/-- The crossing works again: what waited for it goes on (R400, R402). -/
def onResume (k : Fin 12) (s : State) : State :=
  match k.val with
  | 7 => s.modClk (fun c => { c with latched := none })
  | 9 => auxSync s
  | 10 => auxSync s
  | 11 => kick (considerAll s)
  | _ => s

/-- CDC_RESUME (R402). -/
def execCdcResume (k : Fin 12) (s : State) : Host.Outcome State Fault Refusal :=
  .next (if cdcWatched k s && s.stalled k.val then
      onResume k (s.modCdc (fun c => { c with stall := c.stall &&& ~~~(BitVec.ofNat 12 (2 ^ k.val)) }))
    else s)

/-- CDC_REALIGN (R403 to R405): a source that leaves reset discards the unread entries, which are counted; a destination gets its
unacknowledged entries again; with both sides the traffic starts empty. A stalled crossing restarts the handshake later. -/
def execCdcRealign (k : Fin 12) (side : CdcSide) (dropped : Nat) (s : State) : Host.Outcome State Fault Refusal :=
  .next (if s.coreOn && !s.stalled k.val then
      match side with
      | .source => s.modCdc (fun c => { c with drops := vmod c.drops k (fun n => satAdd n dropped) })
      | .destination => s
      | .both => s
    else s)

end Sys2Proof.Machine
end

