-- ==== Sys2Proof/Machine/ClockEvents.lean ====
section
/-! DEFINITION. Events of the two clocks (R192 to R223). -/

namespace Sys2Proof.Machine

/-- PD_AO is supplied: the clocks live (R202, R410). -/
def aoOn (s : State) : Bool := decide (s.power.state ≠ .off)

/-- CRYSTAL_TICK (R194, R196, R207, R209, R215, R216, R221). -/
def execCrystalTick (s : State) : Host.Outcome State Fault Refusal :=
  .next (if aoOn s && s.clk.crystalRuns then crystal s else s)

/-- OSC_STOPPED (R204): no edge for 4 nominal ticks. -/
def execOscStopped (s : State) : Host.Outcome State Fault Refusal :=
  .next (if aoOn s then s.modClk (fun k => { k with oscStopped := true, crystalRuns := false }) else s)

/-- OSC_RESUME (R204): the first edge after a stop is a tick; OSC_STOPPED stays set. -/
def execOscResume (s : State) : Host.Outcome State Fault Refusal :=
  .next (if aoOn s && !s.clk.crystalRuns then crystal (s.modClk (fun k => { k with crystalRuns := true })) else s)

/-- ALARM_FIRE (R207). -/
def execAlarmFire (n : Fin 4) (s : State) : Host.Outcome State Fault Refusal := .next (if aoOn s && !s.stalled 7 then doAlarm n s else s)

/-- WEEKDAY_ADVANCE (R209). -/
def execWeekdayAdvance (c : ClockSel) (s : State) : Host.Outcome State Fault Refusal :=
  .next (if aoOn s then doWeekday (decide (c = .legal)) s else s)

/-- BILLING_BOUNDARY (R222, R223). -/
def execBillingBoundary (s : State) : Host.Outcome State Fault Refusal :=
  .next (if s.stalled 7 then s else doBoundary s)

/-- BILL_RECORD (R223). -/
def execBillRecord (s : State) : Host.Outcome State Fault Refusal := .next (if s.mpRuns then copyBoundary s else s)

/-- LEGAL_OFFSET_SAMPLE (R213, R215, R218, R219): at a whole second of ring time. -/
def execLegalOffsetSample (s : State) : Host.Outcome State Fault Refusal :=
  .next (if s.coreOn && s.time.inUse && !s.stalled 7 && decide (s.gridNs % 1000000000 = 0) then s.modClk (sampleOffset (slewHold s) s.gridNs) else s)

/-- TC_UPDATE (R199): every 2^18 ticks; `theta` is the reading of the PD_AO sensor in 2^-6 °C. -/
def execTcUpdate (theta : Int) (s : State) : Host.Outcome State Fault Refusal := .next (if aoOn s && s.clk.tcDue then s.modClk (updateTheta theta) else s)

/-- The latest result of the thermistor input, if it has one. -/
def thermistorCode (s : State) : Option Nat :=
  let i := s.aux.inputs[Fin.ofNat 16 (clkTcAux s.clk.cfg)]
  i.tick.map (fun _ => i.result.toNat)

/-- TC_TEMP_WRITE (R200): nothing is written without a table or without a result. -/
def execTcTempWrite (s : State) : Host.Outcome State Fault Refusal :=
  .next (if s.mpRuns && clkTcSrc s.clk.cfg && !s.clk.tcTable.isEmpty then
      match thermistorCode s with
      | some code => s.modClk (fun k => { k with tcTemp := BitVec.ofInt 16 (thermistor (tablePoints k.tcTable) code), tcFallback := false, tcAge := 0 })
      | none => s
    else s)

/-- TC_FALLBACK (R200): TC_TEMP has not been written for 16 s. -/
def execTcFallback (s : State) : Host.Outcome State Fault Refusal :=
  .next (if aoOn s && clkTcSrc s.clk.cfg && decide (tcLimit ≤ s.clk.tcAge) then s.modClk (fun k => { k with tcFallback := true }) else s)

end Sys2Proof.Machine
end

