-- ==== Sys2Proof/Machine/CmdAux.lean ====
section
/-! DEFINITION. The aux and pulse group of Cesoak (R86 to R90, R328, R355 to R370, R463). -/

namespace Sys2Proof.Machine

def rowAuxSeq : CmdRow := { op := 0x0C01, lane := 2, len := 24, states := stFOS, rsv := [(3, 1)] }

def runAuxSeq (i : CmdIn) (s : State) : Reply :=
  let n := p1 i 1
  let list := (i.pay.drop 4).take n
  let period := p4 i 20
  if 1 < p1 i 0 ∨ n < 1 ∨ 16 < n ∨ 1 < p1 i 2 ∨ list.any (fun b => decide (15 < b.toNat)) ∨
      period < n * convTime (p1 i 2 == 1) ∨ 60000000 < period then fail .range s
  else .store (.auxSeq (p1 i 0 == 1) (p1 i 2 == 1) list (BitVec.ofNat 32 period)) s

/-- AUX_SEQ (R328, R356 to R358). -/
def execAuxSeq (tag : Fin 64) (s : State) : Host.Outcome State Fault Refusal := .next (runCmd rowAuxSeq runAuxSeq tag s)

def rowAuxWin : CmdRow := { op := 0x0C02, lane := 2, len := 8, states := stFOS, rsv := [(2, 2)] }

def runAuxWin (i : CmdIn) (s : State) : Reply :=
  if 15 < p1 i 0 ∨ 1 < p1 i 1 ∨ p2 i 6 < p2 i 4 then fail .range s
  else .store (.auxWin (Fin.ofNat 16 (p1 i 0)) (p1 i 1 == 1) (BitVec.ofNat 16 (p2 i 4)) (BitVec.ofNat 16 (p2 i 6))) s

/-- AUX_WIN (R328, R363, R364). -/
def execAuxWin (tag : Fin 64) (s : State) : Host.Outcome State Fault Refusal := .next (runCmd rowAuxWin runAuxWin tag s)

def rowAuxRead : CmdRow := { op := 0x0C03, lane := 1, len := 0 }

def auxPayload (a : Aux) : List Byte :=
  (fins 16).flatMap (fun n => leBytes 2 (a.inputs[n]).result.toNat) ++
    leBytes 4 ((fins 16).map (fun n => bitN (a.inputs[n]).flag * 2 ^ n.val)).sum ++
    (match a.lastExit with | some t => t.bytes | none => leBytes 12 0)

/-- The read clears the flags whose input is inside, and the stamp of the latest exit (R363). -/
def auxAfterRead (a : Aux) : Aux :=
  { a with inputs := a.inputs.map (fun (i : AuxInput) => { i with flag := i.flag && i.outside.isSome }), lastExit := none }

def runAuxRead (_ : CmdIn) (s : State) : Reply := okWith (auxPayload s.aux) (s.modAux auxAfterRead)

/-- AUX_READ (R328, R363). -/
def execAuxRead (tag : Fin 64) (s : State) : Host.Outcome State Fault Refusal := .next (runCmd rowAuxRead runAuxRead tag s)

def rowAuxInject : CmdRow := { op := 0x0C04, lane := 1, len := 1 }

/-- The response comes with the conversion's result (R362). -/
def runAuxInject (i : CmdIn) (s : State) : Reply :=
  if 15 < p1 i 0 then fail .range s else .hold (injectConv (.inject i.tag) (Fin.ofNat 16 (p1 i 0)) s)

/-- AUX_INJECT (R328, R358, R361). -/
def execAuxInject (tag : Fin 64) (s : State) : Host.Outcome State Fault Refusal := .next (runCmd rowAuxInject runAuxInject tag s)

def rowS0Cfg : CmdRow := { op := 0x0C05, lane := 2, len := 4, states := stFO }

def runS0Cfg (i : CmdIn) (s : State) : Reply :=
  if 7 < p1 i 0 ∨ 1 < p1 i 1 ∨ p2 i 2 < 10 ∨ 20000 < p2 i 2 then fail .range s
  else .store (.s0Cfg (Fin.ofNat 8 (p1 i 0)) (p1 i 1 == 1) (BitVec.ofNat 16 (p2 i 2))) s

/-- S0_CFG (R328, R370). -/
def execS0Cfg (tag : Fin 64) (s : State) : Host.Outcome State Fault Refusal := .next (runCmd rowS0Cfg runS0Cfg tag s)

def rowS0Read : CmdRow := { op := 0x0C06, lane := 1, len := 1 }

def s0Payload (i : S0In) : List Byte := leBytes 8 i.total.toNat ++ leBytes 1 (bitN i.overrun) ++ leBytes 3 0 ++ i.last.bytes

/-- The read clears OVERRUN (R367). -/
def runS0Read (i : CmdIn) (s : State) : Reply :=
  if 7 < p1 i 0 then fail .range s
  else
    let n := Fin.ofNat 8 (p1 i 0)
    okWith (s0Payload s.s0[n]) (s.modS0 n (fun r => { r with overrun := false }))

/-- S0_READ (R328, R367, R369). -/
def execS0Read (tag : Fin 64) (s : State) : Host.Outcome State Fault Refusal := .next (runCmd rowS0Read runS0Read tag s)

/-- The values of an output (R86, R87). -/
def cfWriteOk (s : State) (cfg : Nat) (qpp : Nat) : Bool :=
  let w := BitVec.ofNat 32 cfg
  decide (cfg < 2 ^ 18) && decide (cfSrc w ≤ 9) && decide (1 ≤ cfWidth w) && decide (cfWidth w ≤ 80) &&
    (!cfEn w || (decide (2 ^ 32 ≤ qpp) && (match cfCir w with
      | some c => cfRateOk (cirNv s.circuits[c].cfgW) s.circuits[c].keW (BitVec.ofNat 64 qpp) (cfWidth w)
      | none => false)))

def rowCfWrite : CmdRow := { op := 0x0C07, lane := 2, len := 16, states := stFO, d2 := true, rsv := [(1, 3)] }

def runCfWrite (i : CmdIn) (s : State) : Reply :=
  if 7 < p1 i 0 ∨ !cfWriteOk s (p4 i 4) (p8 i 8) then fail .range s
  else .store (.cf (Fin.ofNat 8 (p1 i 0)) (BitVec.ofNat 32 (p4 i 4)) (BitVec.ofNat 64 (p8 i 8))) s

/-- CF_WRITE (R86, R87, R328, R463). -/
def execCfWrite (tag : Fin 64) (s : State) : Host.Outcome State Fault Refusal := .next (runCmd rowCfWrite runCfWrite tag s)

def rowCfRead : CmdRow := { op := 0x0C08, lane := 1, len := 1 }

def cfPayload (o : CfOut) : List Byte := leBytes 4 o.cfgW.toNat ++ leBytes 8 o.qppW.toNat ++ leBytes 8 o.acc

def runCfRead (i : CmdIn) (s : State) : Reply :=
  if 7 < p1 i 0 then fail .range s else okWith (cfPayload s.cfs[Fin.ofNat 8 (p1 i 0)]) s

/-- CF_READ (R328, R463). -/
def execCfRead (tag : Fin 64) (s : State) : Host.Outcome State Fault Refusal := .next (runCmd rowCfRead runCfRead tag s)

end Sys2Proof.Machine
end

