-- ==== Sys2Proof/Machine/CmdCal.lean ====
section
/-! DEFINITION. The calibration and Tracer group of Cesoak (R26, R124 to R158, R320). -/

namespace Sys2Proof.Machine

/-! ### Transactions -/

/-- The target that KIND and TARGET name (R320). -/
def calTarget (i : CmdIn) : Option CalTarget :=
  if p1 i 0 = 0 then (num24 (p1 i 1)).map .cir
  else if p1 i 0 = 1 ∧ p1 i 1 = 1 then some (.vset false)
  else if p1 i 0 = 1 ∧ p1 i 1 = 2 then some (.vset true)
  else none

/-- A transaction that counts toward the four of R131. -/
def liveTxn (t : Txn) : Bool := decide (t.st ≠ .done) && decide (t.st ≠ .stale)

/-- The channels of a target: the ports that the circuit's configuration in effect names, or the set's four inputs. -/
def targetChans (s : State) : CalTarget → BitVec 32
  | .cir c => BitVec.ofNat 32 ((dedup ((List.range 4).filterMap (elemPort s.circuits[c].cfg))).map (fun p => 2 ^ p.val)).sum
  | .vset b => BitVec.ofNat 32 (15 * 2 ^ (24 + 4 * bitN b))

def dropTxn (t : CalTarget) (s : State) : State := s.modCal (fun k => { k with txns := k.txns.filter (fun u => decide (u.target ≠ t)) })

/-- The active records are copied into the shadow banks (R132). -/
def openShadow (m : BitVec 32) (s : State) : State :=
  { s with
    ports := Vector.ofFn (fun (p : Fin 24) => let r := s.ports[p]; if m.getLsbD p.val then { r with shadow := withComplement r.cal } else r),
    volts := Vector.ofFn (fun (v : Fin 8) => let r := s.volts[v]; if m.getLsbD (24 + v.val) then { r with shadow := withComplement r.cal } else r) }

def rowCalOpen : CmdRow := { op := 0x0401, lane := 2, len := 2, states := stFO }

def runCalOpen (i : CmdIn) (s : State) : Reply :=
  match calTarget i with
  | none => fail .range s
  | some t =>
    if s.cal.txns.any (fun u => liveTxn u && decide (u.target = t)) || decide (4 ≤ (s.cal.txns.filter liveTxn).length) then fail .busy s
    else
      let m := targetChans s t
      okWith (leBytes 4 m.toNat) (openShadow m ((dropTxn t s).modCal (fun k =>
        { k with txns := k.txns ++ [{ target := t, chans := m, loaded := 0, st := .opened, cnt := 0, left := 0, pqLeft := false }] })))

/-- CAL_OPEN (R131, R132, R320). -/
def execCalOpen (tag : Fin 64) (s : State) : Host.Outcome State Fault Refusal := .next (runCmd rowCalOpen runCalOpen tag s)

/-- The transaction on a target, or the status that a command on it receives (R134, R140): STALE is given once. -/
def withTxn (t : CalTarget) (s : State) (f : Txn → Reply) : Reply :=
  match findTxn s t with
  | none => fail .noTxn s
  | some u => if u.st = .stale then fail .stale (dropTxn t s) else f u

/-- Offset and width in bytes of coefficient k in a record (R124). -/
def coefAt (k : Nat) : Nat × Nat := if k = 0 then (0, 3) else if k = 1 then (6, 2) else (10, 3)

/-- Coefficient k lies in its range (R33). -/
def coefOk (k v : Nat) : Bool :=
  if k = 0 then decide (0x300000 ≤ v) && decide (v ≤ 0x500000)
  else if k = 1 then decide ((sgnBits 16 v).natAbs ≤ 4096)
  else true

/-- Coefficient k of a record as a pair is put into a shadow record. -/
def putCoef (rec_ : List Byte) (k : Nat) (c : CalPair) : CalPair :=
  let a := coefAt k
  let v := leAt rec_ a.1 a.2
  let n := leAt rec_ (a.1 + a.2) a.2
  if k = 0 then { val := { c.val with gain := BitVec.ofNat 24 v }, neg := { c.neg with gain := BitVec.ofNat 24 n } }
  else if k = 1 then { val := { c.val with phase := BitVec.ofNat 16 v }, neg := { c.neg with phase := BitVec.ofNat 16 n } }
  else { val := { c.val with offset := BitVec.ofNat 24 v }, neg := { c.neg with offset := BitVec.ofNat 24 n } }

/-- The coefficients that MASK selects. -/
def maskCoefs (mask : Nat) : List Nat := (List.range 3).filter (fun k => mask.testBit k)

def loadShadow (ch : Fin 32) (rec_ : List Byte) (mask : Nat) (s : State) : State :=
  let f : CalPair → CalPair := fun c => (maskCoefs mask).foldl (fun c k => putCoef rec_ k c) c
  match chanSplit ch with
  | .inl p => s.modPort p (fun r => { r with shadow := f r.shadow })
  | .inr v => s.modVolt v (fun r => { r with shadow := f r.shadow })

def rowCalLoad : CmdRow := { op := 0x0402, lane := 2, len := 20, states := stFO }

/-- Pairs of the selected coefficients, then ranges, then the transaction (R133, R311, R320). -/
def runCalLoad (i : CmdIn) (s : State) : Reply :=
  let rec_ := sliceAt i.pay 4 16
  let mask := p1 i 3
  let ch := p1 i 2
  if !(maskCoefs mask).all (fun k => pairOk (coefAt k).2 rec_ (coefAt k).1) then fail .complement s
  else if 7 < mask ∨ ch < 1 ∨ 32 < ch ∨ !(maskCoefs mask).all (fun k => coefOk k (leAt rec_ (coefAt k).1 (coefAt k).2)) then fail .range s
  else match calTarget i with
    | none => fail .range s
    | some t => withTxn t s (fun u =>
        if u.st ≠ .opened then fail .busy s
        else if !u.chans.getLsbD (ch - 1) then fail .range s
        else
          let s := loadShadow (Fin.ofNat 32 (ch - 1)) rec_ mask s
          okWith [] (if mask = 0 then s else modTxn t (fun u => { u with loaded := u.loaded ||| BitVec.ofNat 32 (2 ^ (ch - 1)) }) s))

/-- CAL_LOAD (R133, R320). -/
def execCalLoad (tag : Fin 64) (s : State) : Host.Outcome State Fault Refusal := .next (runCmd rowCalLoad runCalLoad tag s)

def shadowOf (s : State) (k : Nat) : CalPair :=
  match chanSplit (Fin.ofNat 32 k) with
  | .inl p => s.ports[p].shadow
  | .inr v => s.volts[v].shadow

/-- The complement test of R125 on a shadow record. -/
def pairGood (c : CalPair) : Bool :=
  decide (c.neg.gain = ~~~c.val.gain) && decide (c.neg.phase = ~~~c.val.phase) && decide (c.neg.offset = ~~~c.val.offset)

def valuesGood (c : CalPair) : Bool := coefOk 0 c.val.gain.toNat && coefOk 1 c.val.phase.toNat

def rowCalCommit : CmdRow := { op := 0x0403, lane := 2, len := 2, states := stFO, d2 := true, ordered := true }

/-- The checks of R134 in order; the Kettle decides between OK and DEFERRED. -/
def runCalCommit (i : CmdIn) (s : State) : Reply :=
  match calTarget i with
  | none => fail .range s
  | some t => withTxn t s (fun u =>
      let chans := onesOf 32 u.chans.toNat
      if s.sec.state = .sealed then fail .sealed s
      else if u.st ≠ .opened then fail .busy s
      else if u.loaded = 0 then fail .range s
      else if !chans.all (fun k => pairGood (shadowOf s k)) then fail .complement s
      else if !chans.all (fun k => valuesGood (shadowOf s k)) then fail .range s
      else .store (.calCommit t) s)

/-- CAL_COMMIT (R134, R135, R313). -/
def execCalCommit (tag : Fin 64) (s : State) : Host.Outcome State Fault Refusal := .next (runCmd rowCalCommit runCalCommit tag s)

def rowCalAbort : CmdRow := { op := 0x0404, lane := 2, len := 2, states := stFOS }

def runCalAbort (i : CmdIn) (s : State) : Reply :=
  match calTarget i with
  | none => fail .range s
  | some t => withTxn t s (fun u =>
      if u.st = .opened && !s.firn.reqs.any (fun r => decide (r.change = .calCommit t)) then okWith [] (dropTxn t s) else fail .busy s)

/-- CAL_ABORT (R138). -/
def execCalAbort (tag : Fin 64) (s : State) : Host.Outcome State Fault Refusal := .next (runCmd rowCalAbort runCalAbort tag s)

def rowCalStatus : CmdRow := { op := 0x0405, lane := 2, len := 2 }

def runCalStatus (i : CmdIn) (s : State) : Reply :=
  match calTarget i with
  | none => fail .range s
  | some t => withTxn t s (fun u =>
      okWith (leBytes 1 (txnCode u.st) ++ leBytes 3 0 ++ leBytes 4 u.loaded.toNat ++ leBytes 4 u.cnt.toNat) s)

/-- CAL_STATUS (R138, R320). -/
def execCalStatus (tag : Fin 64) (s : State) : Host.Outcome State Fault Refusal := .next (runCmd rowCalStatus runCalStatus tag s)

/-! ### Reports -/

/-- CAL_UNCAL (R129). -/
def calUncal (s : State) : Nat :=
  ((fins 24).map (fun p => bitN (s.ports[p]).uncal * 2 ^ p.val)).sum + ((fins 8).map (fun v => bitN (s.volts[v]).uncal * 2 ^ (24 + v.val))).sum

/-- CAL_TXN (R129). -/
def calTxn (s : State) : Nat :=
  ((dedup ((s.cal.txns.filter liveTxn).map (fun t => t.target))).map (fun t => match t with
    | .cir c => 2 ^ c.val
    | .vset b => 2 ^ (24 + bitN b))).sum

def rowCalInfo : CmdRow := { op := 0x0406, lane := 1, len := 0 }

def calInfoPayload (s : State) : List Byte :=
  leBytes 4 (calUncal s) ++ leBytes 4 s.cal.cnt.toNat ++ leBytes 4 (calTxn s) ++ leBytes 4 s.cal.trimLim.toNat

def runCalInfo (_ : CmdIn) (s : State) : Reply := okWith (calInfoPayload s) s

/-- CAL_INFO (R129, R320). -/
def execCalInfo (tag : Fin 64) (s : State) : Host.Outcome State Fault Refusal := .next (runCmd rowCalInfo runCalInfo tag s)

/-- The record in use of a channel (R320). -/
def activeRec (s : State) (ch : Fin 32) : CalRec :=
  match chanSplit ch with
  | .inl p => s.ports[p].cal
  | .inr v => s.volts[v].cal

def rowCalRead : CmdRow := { op := 0x0407, lane := 1, len := 1 }

def runCalRead (i : CmdIn) (s : State) : Reply :=
  let ch := p1 i 0
  if 1 ≤ ch ∧ ch ≤ 32 then okWith (calPairBytes (withComplement (activeRec s (Fin.ofNat 32 (ch - 1))))) s else fail .range s

/-- CAL_READ (R320). -/
def execCalRead (tag : Fin 64) (s : State) : Host.Outcome State Fault Refusal := .next (runCmd rowCalRead runCalRead tag s)

/-- CNT values that the history may hold, oldest first (R146). -/
def histCnts (s : State) : List Nat := (List.range (min 256 s.cal.cnt.toNat)).map (fun k => s.cal.cnt.toNat - min 256 s.cal.cnt.toNat + 1 + k)

def heldCnts (s : State) : List Nat := (histCnts s).filter (fun c => (histEntry s.firn c).isSome)

def rowLogRead : CmdRow := { op := 0x0408, lane := 3, len := 5, bulkOut := true }

/-- The entries held from FIRST on, up to COUNT; a history page that cannot be read among them answers PAGE_LOST (R320). -/
def runLogRead (i : CmdIn) (s : State) : Reply :=
  let n := p1 i 4
  if n < 1 ∨ 128 < n then fail .range s
  else
    let held := heldCnts s
    let first := if p4 i 0 = 0 then held.headD 0 else p4 i 0
    let out := (held.filter (fun c => decide (first ≤ c))).take n
    let upTo := if out.length < n then s.cal.cnt.toNat else out.getLastD 0
    if (histCnts s).any (fun c => decide (first ≤ c) && decide (c ≤ upTo) && pageLost s.firn (histPage c) && !pageBlank s.firn (histPage c)) then
      fail .pageLost s
    else .done .ok (leBytes 2 held.length ++ leBytes 2 0 ++ leBytes 4 (out.headD 0))
      (out.flatMap (fun c => (histEntry s.firn c).getD [])) s

/-- LOG_READ (R146, R320). -/
def execLogRead (tag : Fin 64) (s : State) : Host.Outcome State Fault Refusal := .next (runCmd rowLogRead runLogRead tag s)

/-! ### Matching -/

/-- The factory trim values of the loop (R26). -/
def acquirePort (r : Port) : Port :=
  { r with mstate := .acquire, gCalc := 0x40000000, dCalc := 0, est := [], badRun := 0 }

def rowMatchAcquire : CmdRow := { op := 0x0409, lane := 2, len := 4, states := stFOS }

def runMatchAcquire (i : CmdIn) (s : State) : Reply :=
  if 2 ^ 24 ≤ p4 i 0 then fail .range s
  else okWith [] (s.forEach (maskPorts (p4 i 0)) (fun p s => takeIfFree p (s.modPort p acquirePort)))

/-- MATCH_ACQUIRE (R26, R320). -/
def execMatchAcquire (tag : Fin 64) (s : State) : Host.Outcome State Fault Refusal := .next (runCmd rowMatchAcquire runMatchAcquire tag s)

/-! ### Tracer -/

def rowTrcWrite : CmdRow := { op := 0x040A, lane := 2, len := 20, states := stFOS, pairs := [(12, 4)], rsv := [(9, 3)] }

/-- TRCn_CFG from the selected fields of the request, the others 0. -/
def trcFields (i : CmdIn) : Word :=
  let pick : Nat → Nat → Nat := fun k v => if bitB (p1 i 4) k then v else 0
  BitVec.ofNat 32 (pick 0 (p1 i 5) + 2 * pick 1 (p1 i 6) + 16 * pick 2 (p1 i 7) + 256 * pick 3 (p1 i 8))

/-- No field of the request has a bit above its width, selected or not (R9, R153), and the selected fields are in range (R153, R320). -/
def trcRangeOk (i : CmdIn) : Bool :=
  let sel := p1 i 4
  decide (p4 i 0 < 2 ^ 24) && decide (sel < 32) && decide (p1 i 5 ≤ 1) && decide (p1 i 6 ≤ 7) && decide (p1 i 7 ≤ 1) &&
    decide (p1 i 8 ≤ 15) && (!bitB sel 3 || (decide (4 ≤ p1 i 8) && decide (p1 i 8 ≤ 10))) &&
    (!bitB sel 4 || decide (p4 i 12 ≤ 94000000))

/-- AUTO = 1 may be written on a port (R157). -/
def autoOk (rs : Nat) (r : Port) : Bool :=
  decide (portSensor r.cfgW ≠ 2) && r.tracer.refValid && decide (1000000 ≤ r.tracer.ref.toNat) && decide (rs ≤ 16 * r.tracer.ref.toNat)

def runTrcWrite (i : CmdIn) (s : State) : Reply :=
  let sel := p1 i 4
  if s.sec.state = .sealed ∧ (bitB sel 2 ∨ bitB sel 4) then fail .sealed s
  else if !trcRangeOk i then fail .range s
  else if bitB sel 2 && decide (p1 i 7 = 1) &&
      !(maskPorts (p4 i 0)).all (fun p => autoOk (if bitB sel 4 then p4 i 12 else (s.ports[p]).tracer.rsNom.toNat) s.ports[p]) then fail .range s
  else .store (.trcWrite (BitVec.ofNat 24 (p4 i 0)) (BitVec.ofNat 5 sel) (trcFields i) (BitVec.ofNat 32 (p4 i 12))) s

/-- TRC_WRITE (R153, R157, R159, R320). -/
def execTrcWrite (tag : Fin 64) (s : State) : Host.Outcome State Fault Refusal := .next (runCmd rowTrcWrite runTrcWrite tag s)

/-- A port's trim updates are held by a transaction on its circuit (R156). -/
def trimHeld (s : State) (p : Fin 24) : Bool :=
  match s.circuitOf p with
  | some c => s.cal.txns.any (fun t => liveTxn t && decide (t.target = .cir c))
  | none => false

/-- TRCn_STAT (R153). -/
def trcStat (s : State) (p : Fin 24) : Nat :=
  let r := (s.ports[p]).tracer
  r.st.toNat + 4 * bitN r.refValid + 8 * bitN r.openSeen + 16 * bitN r.shortSeen + 32 * bitN r.noisySeen + 64 * bitN r.limitSeen +
    128 * bitN (trimHeld s p) + 65536 * r.periods.toNat

def trcPayload (s : State) (p : Fin 24) : List Byte :=
  let r := (s.ports[p]).tracer
  leBytes 4 r.cfg.toNat ++ leBytes 4 r.rsNom.toNat ++ leBytes 4 (trcStat s p) ++ leBytes 4 r.zr.toNat ++ leBytes 4 r.zx.toNat ++
    leBytes 4 r.rLoop.toNat ++ leBytes 4 r.drift.toNat ++ leBytes 4 r.trim.toNat

def rowTrcRead : CmdRow := { op := 0x040B, lane := 1, len := 1 }

/-- The read clears PERIODS. -/
def runTrcRead (i : CmdIn) (s : State) : Reply :=
  match num24 (p1 i 0) with
  | some p => okWith (trcPayload s p) (s.modTracer p (fun r => { r with periods := 0 }))
  | none => fail .range s

/-- TRC_READ (R153, R320). -/
def execTrcRead (tag : Fin 64) (s : State) : Host.Outcome State Fault Refusal := .next (runCmd rowTrcRead runTrcRead tag s)

/-- R_SENSE of the latest accepted period (R152). -/
def rSense (r : Tracer) : Word := BitVec.ofNat 32 (r.rLoop.toNat - r.rsNom.toNat)

def rowTraceRef : CmdRow := { op := 0x040C, lane := 2, len := 8, states := stFO, d2 := true, pairs := [(0, 4)] }

def runTraceRef (i : CmdIn) (s : State) : Reply :=
  if 2 ^ 24 ≤ p4 i 0 then fail .range s
  else if (maskPorts (p4 i 0)).any (fun p => !(s.ports[p]).tracer.everAccepted) then fail .retry s
  else .store (.traceRef ((maskPorts (p4 i 0)).map (fun p => (p, rSense (s.ports[p]).tracer)))) s

/-- TRACE_REF (R155, R320). -/
def execTraceRef (tag : Fin 64) (s : State) : Host.Outcome State Fault Refusal := .next (runCmd rowTraceRef runTraceRef tag s)

def rowTrimLim : CmdRow := { op := 0x040D, lane := 2, len := 8, states := stFO, d2 := true, pairs := [(0, 4)] }

def runTrimLim (i : CmdIn) (s : State) : Reply :=
  if p4 i 0 ≤ 10000 then .store (.trimLim (BitVec.ofNat 32 (p4 i 0))) s else fail .range s

/-- TRIM_LIM_WRITE (R127, R158, R320). -/
def execTrimLimWrite (tag : Fin 64) (s : State) : Host.Outcome State Fault Refusal := .next (runCmd rowTrimLim runTrimLim tag s)

end Sys2Proof.Machine
end

