-- ==== Sys2Proof/Machine/CmdCir.lean ====
section
/-! DEFINITION. The circuits group of Cesoak (R50 to R56, R64, R77, R87, R317 to R319). -/

namespace Sys2Proof.Machine

/-! ### CIR_MAP_WRITE -/

def mapCirMask (b : List Byte) : Nat := leAt b 0 4
def mapPortMask (b : List Byte) : Nat := leAt b 4 4

/-- BULK_LEN is 8 + 4 × (c + p) (R318). -/
def mapLenOk (b : List Byte) : Bool :=
  decide (8 ≤ b.length) && decide (b.length = 8 + 4 * (popCount 32 (mapCirMask b) + popCount 32 (mapPortMask b)))

/-- The words that follow an offset, one per selected number, ascending. -/
def maskedWords (b : List Byte) (off mask : Nat) : List (Fin 24 × Word) :=
  ((fins 24).filter (fun c => mask.testBit c.val)).zipIdx.map (fun e => (e.1, BitVec.ofNat 32 (leAt b (off + 4 * e.2) 4)))

def mapCirs (b : List Byte) : List (Fin 24 × Word) := maskedWords b 8 (mapCirMask b)

def mapPorts (b : List Byte) : List (Fin 24 × Word) := maskedWords b (8 + 4 * popCount 32 (mapCirMask b)) (mapPortMask b)

/-- The circuit words that result from a map (R50). -/
def mappedWords (s : State) (l : List (Fin 24 × Word)) : List Word :=
  (fins 24).map (fun c => ((l.find? (fun e => e.1 == c)).map (·.2)).getD s.circuits[c].cfgW)

/-- Every enabled CF output of a circuit keeps within R87 for a wiring and a KE. -/
def cfsFit (s : State) (c : Fin 24) (w : Word) (ke : BitVec 64) : Bool :=
  (fins 8).all (fun o =>
    let r := s.cfs[o]
    !cfEn r.cfgW || cfCir r.cfgW != some c || cfRateOk (cirNv w) ke r.qppW (cfWidth r.cfgW))

/-- A change that a SEALED unit accepts: EN of a circuit alone (R50, R319, R422). -/
def sealedMapOk (s : State) (b : List Byte) : Bool :=
  decide (mapCirMask b < 2 ^ 24) && decide (mapPortMask b < 2 ^ 24) &&
    (mapCirs b).all (fun e => decide (e.2.toNat / 2 = (s.circuits[e.1]).cfgW.toNat / 2)) &&
    (mapPorts b).all (fun e => decide (e.2 = (s.ports[e.1]).cfgW))

/-- The map that results is legal (R50), keeps the rates of every circuit written and of its outputs (R55, R87), and so is each port word
(R35). -/
def mapOk (s : State) (b : List Byte) : Bool :=
  decide (mapCirMask b < 2 ^ 24) && decide (mapPortMask b < 2 ^ 24) &&
    cirMapOk (mappedWords s (mapCirs b)) && (mapPorts b).all (fun e => portCfgOk e.2.toNat) &&
    (mapCirs b).all (fun e =>
      rateOk (cirNv e.2) (s.circuits[e.1]).pfsW.toNat (s.circuits[e.1]).quantumW.toNat && cfsFit s e.1 e.2 (s.circuits[e.1]).keW)

def rowCirMap : CmdRow := { op := 0x0301, lane := 3, len := 0, bulkIn := some (fun _ b => mapLenOk b), states := stFOS }

def runCirMap (i : CmdIn) (s : State) : Reply :=
  if s.sec.state = .sealed ∧ !sealedMapOk s i.bulk then fail .sealed s
  else if mapOk s i.bulk then .store (.cirMap (mapCirs i.bulk) (mapPorts i.bulk)) s
  else fail .range s

/-- CIR_MAP_WRITE (R318, R319). -/
def execCirMapWrite (tag : Fin 64) (s : State) : Host.Outcome State Fault Refusal := .next (runCmd rowCirMap runCirMap tag s)

/-! ### CIR_READ -/

def rowCirRead : CmdRow := { op := 0x0302, lane := 1, len := 1 }

/-- PEND of CIR_READ. -/
def cirPend (r : Circuit) : Nat :=
  bitN (r.cfg != r.cfgW) + 2 * bitN (r.quantum != r.quantumW || r.pfs != r.pfsW) +
    4 * bitN (r.zcTo != r.zcToW || decide (r.nl ≠ r.nlW))

def cirReadPayload (r : Circuit) : List Byte :=
  leBytes 4 r.cfgW.toNat ++ leBytes 4 r.quantumW.toNat ++ leBytes 6 r.pfsW.toNat ++ leBytes 1 r.zcToW.toNat ++ leBytes 1 (cirPend r) ++
    leBytes 8 r.keW.toNat ++ leBytes 4 r.nlW.p.toNat ++ leBytes 4 r.nlW.q.toNat ++ leBytes 4 r.nlW.s.toNat

def runCirRead (i : CmdIn) (s : State) : Reply :=
  match num24 (p1 i 0) with
  | some c => okWith (cirReadPayload s.circuits[c]) s
  | none => fail .range s

/-- CIR_READ (R317). -/
def execCirRead (tag : Fin 64) (s : State) : Host.Outcome State Fault Refusal := .next (runCmd rowCirRead runCirRead tag s)

/-! ### CIR_SCALE -/

def rowCirScale : CmdRow :=
  { op := 0x0303, lane := 2, len := 24, states := stFO, d2 := true, pairs := [(4, 4), (12, 6)], rsv := [(2, 2)] }

/-- QUANTUM and PFS are in range and keep the rate bounds (R54, R55, R87). -/
def scaleOk (s : State) (c : Fin 24) (q p : Nat) : Bool :=
  decide (1 ≤ q) && decide (q ≤ 1000000) && decide (1 ≤ p) && rateOk (cirNv s.circuits[c].cfgW) p q &&
    cfsFit s c s.circuits[c].cfgW (BitVec.ofNat 64 (keOf p q))

def runCirScale (i : CmdIn) (s : State) : Reply :=
  match num24 (p1 i 0) with
  | none => fail .range s
  | some c =>
    let q := p4 i 4
    let p := p6 i 12
    if 1 < p1 i 1 then fail .range s
    else if p1 i 1 = 0 then
      if q = s.circuits[c].quantumW.toNat ∧ p = s.circuits[c].pfsW.toNat then okWith (leBytes 4 s.cal.cnt.toNat) s
      else fail .range s
    else if scaleOk s c q p then .store (.cirScaleLog c (BitVec.ofNat 32 q) (BitVec.ofNat 48 p)) s
    else fail .range s

/-- CIR_SCALE (R55, R56, R145, R317). -/
def execCirScale (tag : Fin 64) (s : State) : Host.Outcome State Fault Refusal := .next (runCmd rowCirScale runCirScale tag s)

/-! ### CIR_LIMITS and PORT_STATUS -/

def rowCirLimits : CmdRow := { op := 0x0304, lane := 2, len := 16, states := stFO, rsv := [(2, 2)] }

def runCirLimits (i : CmdIn) (s : State) : Reply :=
  match num24 (p1 i 0) with
  | none => fail .range s
  | some c =>
    let z := p1 i 1
    if 10 ≤ z ∧ z ≤ 200 then
      .store (.cirLimits c (BitVec.ofNat 8 z)
        { p := BitVec.ofNat 32 (p4 i 4), q := BitVec.ofNat 32 (p4 i 8), s := BitVec.ofNat 32 (p4 i 12) }) s
    else fail .range s

/-- CIR_LIMITS (R64, R77, R317). -/
def execCirLimits (tag : Fin 64) (s : State) : Host.Outcome State Fault Refusal := .next (runCmd rowCirLimits runCirLimits tag s)

def rowPortStatus : CmdRow := { op := 0x0305, lane := 1, len := 1 }

def portStatusPayload (r : Port) : List Byte :=
  leBytes 4 (matchStat r) ++ leBytes 4 r.gUse.toNat ++ leBytes 4 r.dUse.toNat ++ leBytes 4 r.cfgW.toNat

/-- The read clears REJECTS and SWITCHES (R30). -/
def runPortStatus (i : CmdIn) (s : State) : Reply :=
  match num24 (p1 i 0) with
  | some p => okWith (portStatusPayload s.ports[p]) (s.modPort p (fun r => { r with rejects := 0, switches := 0 }))
  | none => fail .range s

/-- PORT_STATUS (R30, R31, R317). -/
def execPortStatus (tag : Fin 64) (s : State) : Host.Outcome State Fault Refusal := .next (runCmd rowPortStatus runPortStatus tag s)

end Sys2Proof.Machine
end

