-- ==== Sys2Proof/Machine/CmdDisp.lean ====
section
/-! DEFINITION. The display group of Cesoak (R327, R373 to R393). -/

namespace Sys2Proof.Machine

def rowDispCfg : CmdRow := { op := 0x0B01, lane := 2, len := 8, states := stFOS, rsv := [(7, 1)] }

def runDispCfg (i : CmdIn) (s : State) : Reply :=
  if 2 < p1 i 0 ∨ 2 < p1 i 1 ∨ 480 < p2 i 2 ∨ 320 < p2 i 4 ∨ 7 < p1 i 6 then fail .range s
  else .store (.dispCfg (i.pay.take 8)) s

/-- DISP_CFG (R327, R391). -/
def execDispCfg (tag : Fin 64) (s : State) : Host.Outcome State Fault Refusal := .next (runCmd rowDispCfg runDispCfg tag s)

def rowDispStatus : CmdRow := { op := 0x0B02, lane := 1, len := 0 }

/-- CREVASSE in Ω, from a result of 0.1 Ω per LSB (R355). -/
def crevasseOhms (s : State) : Nat := (s.aux.inputs[crevasseIn]).result.toNat / 10

def dispPayload (s : State) : List Byte :=
  leBytes 1 (dispStateByte s.disp) ++ leBytes 1 s.disp.band.toNat ++ leBytes 2 0 ++ leBytes 4 (crevasseOhms s) ++
    leBytes 4 s.disp.lostFrames.toNat ++ leBytes 4 s.disp.updates.toNat

def runDispStatus (_ : CmdIn) (s : State) : Reply := okWith (dispPayload s) s

/-- DISP_STATUS (R327, R393). -/
def execDispStatus (tag : Fin 64) (s : State) : Host.Outcome State Fault Refusal := .next (runCmd rowDispStatus runDispStatus tag s)

/-- A region that a command names must lie on the panel and clear of the legal strip (R327, R392). -/
def regionAllowed (d : Display) (x y w h : Nat) : Bool := regionOk d x y w h && !inStrip d y h

/-- The nibbles of packed rows, left pixel in the low nibble, written into the draw plane. -/
def drawRows (d : Display) (x y w h : Nat) (bs : List Byte) : Memory :=
  (List.range h).foldl (fun m j =>
    memPuts 0 m ((y + j) * d.width.toNat + x)
      ((List.range w).map (fun k =>
        let b := (bs.getD ((j * w + k) / 2) 0).toNat
        BitVec.ofNat 8 (if (j * w + k) % 2 = 0 then b % 16 else b / 16)))) d.draw

def rowDispWrite : CmdRow :=
  { op := 0x0B03, lane := 3, len := 8, bulkIn := some (fun p b => decide (2 * b.length = leAt p 4 2 * leAt p 6 2)), states := stFOS,
    lean := true }

def runDispWrite (i : CmdIn) (s : State) : Reply :=
  if regionAllowed s.disp (p2 i 0) (p2 i 2) (p2 i 4) (p2 i 6) then
    okWith [] (s.modDisp (fun d => { d with draw := drawRows d (p2 i 0) (p2 i 2) (p2 i 4) (p2 i 6) i.bulk }))
  else fail .range s

/-- DISP_WRITE (R327, R378). -/
def execDispWrite (tag : Fin 64) (s : State) : Host.Outcome State Fault Refusal := .next (runCmd rowDispWrite runDispWrite tag s)

/-- An update or a repair is pending or running (R376, R383, R388). -/
def updateBusy (d : Display) : Bool := d.upd.isSome || d.repairDue || d.checkPend

def rowDispUpdate : CmdRow := { op := 0x0B04, lane := 2, len := 10, states := stFOS, lean := true, rsv := [(1, 1)] }

/-- A legacy copy waits for the next scan (R389). -/
def legacyUpdate (typ x y w h : Nat) (d : Display) : Display :=
  { d with legacyCopy := d.legacyCopy ++ [(typ, x, y, w, h)], updates := satAdd d.updates 1,
           record := overlay (padTo 64 d.record) 0 (leBytes 4 (recId d.record + 1)) }

def runDispUpdate (i : CmdIn) (s : State) : Reply :=
  let typ := p1 i 0
  let x := p2 i 2
  let y := p2 i 4
  let w := p2 i 6
  let h := p2 i 8
  let d := s.disp
  if 2 < typ then fail .range s
  else if d.mode = 0 ∨ d.crevOpen then fail .noPanel s
  else if !regionAllowed d x y w h then fail .range s
  else if d.mode = 2 then
    let s := s.modDisp (legacyUpdate typ x y w h)
    okWith (leBytes 4 (recId s.disp.record)) s
  else if !bandsLoaded d (chooseBand s).1.val x y w h then fail .range s
  else if updateBusy d then fail .busy s
  else if s.hw.frozen then fail .retry s
  else .store .dispPrep (beginUpdate typ x y w h s)

/-- DISP_UPDATE (R327, R378, R383, R389). -/
def execDispUpdate (tag : Fin 64) (s : State) : Host.Outcome State Fault Refusal := .next (runCmd rowDispUpdate runDispUpdate tag s)

def rowLutLoad : CmdRow :=
  { op := 0x0B05, lane := 3, len := 1, bulkIn := some (fun _ b => decide (b.length = 384)), states := stFOS, lean := true }

def runLutLoad (i : CmdIn) (s : State) : Reply :=
  if 7 < p1 i 0 ∨ !lutOk i.bulk then fail .range s
  else if updateBusy s.disp then fail .busy s
  else .store (.lut (Fin.ofNat 8 (p1 i 0)) i.bulk) s

/-- LUT_LOAD (R327, R373 to R376). -/
def execLutLoad (tag : Fin 64) (s : State) : Host.Outcome State Fault Refusal := .next (runCmd rowLutLoad runLutLoad tag s)

def rowUnifLoad : CmdRow :=
  { op := 0x0B06, lane := 3, len := 4, bulkIn := some (fun _ b => decide (1 ≤ b.length) && decide (b.length ≤ 300)), states := stFOS,
    lean := true }

def runUnifLoad (i : CmdIn) (s : State) : Reply :=
  if 300 < p4 i 0 + i.bulk.length then fail .range s
  else if updateBusy s.disp then fail .busy s
  else .store (.unif (p4 i 0) i.bulk) s

/-- UNIF_LOAD (R327, R375, R376, R381). -/
def execUnifLoad (tag : Fin 64) (s : State) : Host.Outcome State Fault Refusal := .next (runCmd rowUnifLoad runUnifLoad tag s)

def rowLegalItems : CmdRow := { op := 0x0B07, lane := 2, len := 8, states := stFO, pairs := [(0, 4)] }

def runLegalItems (i : CmdIn) (s : State) : Reply :=
  if p4 i 0 < 32 then .store (.legalItems (BitVec.ofNat 32 (p4 i 0))) s else fail .range s

/-- LEGAL_ITEMS (R327, R392). -/
def execLegalItems (tag : Fin 64) (s : State) : Host.Outcome State Fault Refusal := .next (runCmd rowLegalItems runLegalItems tag s)

end Sys2Proof.Machine
end

