-- ==== Sys2Proof/Machine/CmdEnergy.lean ====
section
/-! DEFINITION. The energy readings group of Cesoak (R60, R74 to R84, R315, R321). -/

namespace Sys2Proof.Machine

/-- The result block of the last closed cycle; zeros before the first (R60). -/
def cirBlock (s : State) (c : Fin 24) : List Byte := padTo 96 (s.circuits[c]).block

def rowCycleRead : CmdRow := { op := 0x0501, lane := 1, len := 1 }

def runCycleRead (i : CmdIn) (s : State) : Reply :=
  match num24 (p1 i 0) with
  | some c => okWith ((cirBlock s c).take 48) s
  | none => fail .range s

/-- CYCLE_READ (R60, R321). -/
def execCycleRead (tag : Fin 64) (s : State) : Host.Outcome State Fault Refusal := .next (runCmd rowCycleRead runCycleRead tag s)

def rowCycleBlocks : CmdRow := { op := 0x0502, lane := 3, len := 4, bulkOut := true }

def runCycleBlocks (i : CmdIn) (s : State) : Reply :=
  if 2 ^ 24 ≤ p4 i 0 then fail .range s
  else
    let cs := maskPorts (p4 i 0)
    .done .ok (leBytes 1 cs.length) (cs.flatMap (cirBlock s)) s

/-- CYCLE_BLOCKS (R60, R321). -/
def execCycleBlocks (tag : Fin 64) (s : State) : Host.Outcome State Fault Refusal := .next (runCmd rowCycleBlocks runCycleBlocks tag s)

/-- A command's snapshot on the MP latch, after the copy of a boundary image (R80, R315). -/
def cmdSnapshot (s : State) : State := snapMp (copyBoundary s)

def mpImage (s : State) : Vector Totals 24 := s.energy.mpLatch.image.getD (Vector.replicate 24 .zero)

def rowSnapRead : CmdRow := { op := 0x0503, lane := 3, len := 0, bulkOut := true }

def runSnapRead (_ : CmdIn) (s : State) : Reply :=
  let s := cmdSnapshot s
  .done .ok (leBytes 2 s.energy.mpLatch.seq.toNat) (imageBytes (mpImage s)) s

/-- SNAP_READ (R81, R315, R321). -/
def execSnapRead (tag : Fin 64) (s : State) : Host.Outcome State Fault Refusal := .next (runCmd rowSnapRead runSnapRead tag s)

/-- SNAP_SEQ, WRAP and LOW32 of the ten accumulators (R84, R321). -/
def viewPayload (seq : BitVec 16) (wrap : Vector (BitVec 4) 10) (t : Totals) : List Byte :=
  leBytes 2 seq.toNat ++ leBytes 5 (((fins 10).map (fun k => (wrap[k]).toNat * 16 ^ k.val)).sum) ++ leBytes 1 0 ++
    t.acc.toList.flatMap (fun a => leBytes 4 (a.toNat / 2 ^ 32))

def rowViewRead : CmdRow := { op := 0x0504, lane := 1, len := 1 }

def runViewRead (i : CmdIn) (s : State) : Reply :=
  match num24 (p1 i 0) with
  | none => fail .range s
  | some c =>
    let s := cmdSnapshot s
    okWith (viewPayload s.energy.mpLatch.seq (s.circuits[c]).wrap (mpImage s)[c])
      (s.modCir c (fun r => { r with wrap := Vector.replicate 10 0 }))

/-- VIEW_READ (R84, R321). -/
def execViewRead (tag : Fin 64) (s : State) : Host.Outcome State Fault Refusal := .next (runCmd rowViewRead runViewRead tag s)

/-- CIRn_STAT (R74). -/
def cirStat (r : Circuit) : Nat :=
  bitN r.totals.pDir + 2 * bitN r.totals.qDir + 4 * r.pRun.toNat + 16 * r.qRun.toNat + 64 * bitN r.pChg + 128 * bitN r.qChg +
    256 * bitN r.nozcSeen + 512 * bitN r.fixedMode + 65536 * r.unassigned.toNat

def rowStatRead : CmdRow := { op := 0x0505, lane := 1, len := 1 }

/-- The read clears UNASSIGNED and the creep counters (R74, R77). -/
def runStatRead (i : CmdIn) (s : State) : Reply :=
  match num24 (p1 i 0) with
  | none => fail .range s
  | some c =>
    let r := s.circuits[c]
    okWith (leBytes 4 (cirStat r) ++ leBytes 2 r.creepP.toNat ++ leBytes 2 r.creepQ.toNat ++ leBytes 4 r.creepS.toNat)
      (s.modCir c (fun r => { r with unassigned := 0, creepP := 0, creepQ := 0, creepS := 0 }))

/-- STAT_READ (R74, R77, R321). -/
def execStatRead (tag : Fin 64) (s : State) : Host.Outcome State Fault Refusal := .next (runCmd rowStatRead runStatRead tag s)

/-- The 16 bytes of a direction event (R75). -/
def dirEventBytes (e : DirEvent) : List Byte := [e.circuit, e.kind] ++ leBytes 2 0 ++ e.time.bytes

def rowDirEvents : CmdRow := { op := 0x0506, lane := 1, len := 0 }

def runDirEvents (_ : CmdIn) (s : State) : Reply :=
  let out := s.energy.dirQueue.take 2
  let rest := s.energy.dirQueue.drop 2
  okWith (leBytes 1 (min rest.length 255) ++ leBytes 1 out.length ++ leBytes 2 0 ++ padTo 32 (out.flatMap dirEventBytes))
    { s with energy := { s.energy with dirQueue := rest } }

/-- DIR_EVENTS (R75, R321). -/
def execDirEvents (tag : Fin 64) (s : State) : Host.Outcome State Fault Refusal := .next (runCmd rowDirEvents runDirEvents tag s)

def rowClearTotals : CmdRow := { op := 0x0507, lane := 2, len := 2, states := stFO, d2 := true, pairs := [(0, 1)] }

/-- The clear waits for the circuit's next close, or acts at once on a disabled circuit (R53, R83). -/
def runClearTotals (i : CmdIn) (s : State) : Reply :=
  match num24 (p1 i 0) with
  | some c => okWith [] (takeIfDisabled c (s.modCir c (fun r => { r with clear := true })))
  | none => fail .range s

/-- CLEAR_TOTALS (R83, R321). -/
def execClearTotals (tag : Fin 64) (s : State) : Host.Outcome State Fault Refusal := .next (runCmd rowClearTotals runClearTotals tag s)

end Sys2Proof.Machine
end

