-- ==== Sys2Proof/Machine/CmdFirn.lean ====
section
/-! DEFINITION. The Firn group of Cesoak (R189, R324). -/

namespace Sys2Proof.Machine

/-- FIRN_STAT (R189). -/
def firnStat (f : Firn) : Nat :=
  bitN (f.reqs.any (fun r => decide (r.stage = .running))) + 2 * bitN (f.reqs.any (fun r => decide (r.stage = .kwait) || r.deferred)) +
    4 * bitN f.unclean + 8 * bitN f.torn + 16 * bitN f.lostSeen + 32 * bitN f.lowKettle + 64 * bitN f.kettleSmall +
    128 * bitN f.worn + 256 * bitN f.wear + 65536 * f.tornPages.toNat

def rowFirnStatus : CmdRow := { op := 0x0801, lane := 1, len := 0 }

def firnPayload (f : Firn) : List Byte :=
  leBytes 4 (firnStat f) ++ leBytes 2 f.refreshes.toNat ++ leBytes 2 f.defers.toNat ++ leBytes 2 f.mpWaitMax.toNat ++
    leBytes 2 f.dispStalls.toNat

/-- The read clears FIRN_COUNT and FIRN_WAIT (R189, R315). -/
def runFirnStatus (_ : CmdIn) (s : State) : Reply :=
  okWith (firnPayload s.firn) (s.modFirn (fun f => { f with refreshes := 0, defers := 0, mpWaitMax := 0, dispStalls := 0 }))

/-- FIRN_STATUS (R189, R324). -/
def execFirnStatus (tag : Fin 64) (s : State) : Host.Outcome State Fault Refusal := .next (runCmd rowFirnStatus runFirnStatus tag s)

def rowFirnClear : CmdRow := { op := 0x0802, lane := 2, len := 4 }

/-- The W1C bits of FIRN_STAT (R189). -/
def clearFirn (m : Nat) (f : Firn) : Firn :=
  { f with unclean := f.unclean && !bitB m 2, torn := f.torn && !bitB m 3, lostSeen := f.lostSeen && !bitB m 4,
           lowKettle := f.lowKettle && !bitB m 5, kettleSmall := f.kettleSmall && !bitB m 6, worn := f.worn && !bitB m 7,
           wear := f.wear && !bitB m 8 }

def runFirnClear (i : CmdIn) (s : State) : Reply :=
  if bitsN (p4 i 0) 15 9 ≠ 0 then fail .range s else okWith [] (s.modFirn (clearFirn (p4 i 0)))

/-- FIRN_CLEAR (R189, R324). -/
def execFirnClear (tag : Fin 64) (s : State) : Host.Outcome State Fault Refusal := .next (runCmd rowFirnClear runFirnClear tag s)

def rowFirnRead : CmdRow := { op := 0x0803, lane := 3, len := 3, bulkOut := true }

/-- A page as FIRN_READ gives it: a critical page from the RAM image, a bulk page from the array (R161, R162, R324). -/
def readPage (s : State) (p : Nat) : List Byte := if p < 512 then ramPage s p else padTo 64 (storedData s.firn p)

def lostMask (f : Firn) (page count : Nat) : Nat :=
  ((List.range count).filter (fun k => pageLost f (page + k))).foldl (fun m k => m + 2 ^ k) 0

def runFirnRead (i : CmdIn) (s : State) : Reply :=
  let page := p2 i 0
  let count := p1 i 2
  if count < 1 ∨ 64 < count ∨ 3072 < page + count then fail .range s
  else
    let lost := lostMask s.firn page count
    .done (if lost = 0 then .ok else .pageLost) (leBytes 8 lost ++ leBytes 4 (pageCount s.firn page))
      ((List.range count).flatMap (fun k => readPage s (page + k))) s

/-- FIRN_READ (R324): a lost page reads zero and the response carries PAGE_LOST with its payload. -/
def execFirnRead (tag : Fin 64) (s : State) : Host.Outcome State Fault Refusal := .next (runCmd rowFirnRead runFirnRead tag s)

def rowFirnStore : CmdRow :=
  { op := 0x0804, lane := 3, len := 3, bulkIn := some (fun p b => decide (b.length = 64 * leAt p 2 1)), states := stFOS }

def runFirnStore (i : CmdIn) (s : State) : Reply :=
  let page := p2 i 0
  let count := p1 i 2
  if count < 1 ∨ 32 < count ∨ page < 3040 ∨ 3072 < page + count then fail .range s
  else .store (.user page i.bulk) s

/-- FIRN_STORE (R324): USER pages only. -/
def execFirnStore (tag : Fin 64) (s : State) : Host.Outcome State Fault Refusal := .next (runCmd rowFirnStore runFirnStore tag s)

end Sys2Proof.Machine
end

