-- ==== Sys2Proof/Machine/CmdIdent.lean ====
section
/-! DEFINITION. The identity group and the lifecycle and seal group of Cesoak (R311, R316, R420 to R425). -/

namespace Sys2Proof.Machine

/-- The opcodes of Cesoak 3.2 by group: the number of commands of each, 1 upward; PING is 0x0100 (R316 to R329). -/
def opcodeDefined (op : Nat) : Bool :=
  decide (op = 0x0100) ||
    (decide (1 ≤ op % 256) && decide (op % 256 ≤ ([0, 1, 6, 5, 13, 7, 9, 18, 4, 9, 9, 7, 8, 4, 3] : List Nat).getD (op / 256) 0))

/-- BAD_OPCODE (R311). -/
def execBadOpcode (tag : Fin 64) (s : State) : Host.Outcome State Fault Refusal :=
  .next (match s.mb.tags[tag] with
    | some c => if !opcodeDefined (dOpcode c.desc) && startable tag c s then answer tag .badOpcode [] [] s else s
    | none => s)

def rowPing : CmdRow := { op := 0x0100, lane := 0, len := 0 }

def runPing (_ : CmdIn) (s : State) : Reply := okWith [] s

/-- PING (R316). -/
def execPing (tag : Fin 64) (s : State) : Host.Outcome State Fault Refusal := .next (runCmd rowPing runPing tag s)

/-- The firmware bank in use. -/
def runningBank (s : State) : FwBank := if s.hw.bank then s.mp.banks[1] else s.mp.banks[0]

def rowIdRead : CmdRow := { op := 0x0101, lane := 1, len := 0 }

/-- PART, REV, GRADE, UID, FW_VER, BANK, ADDR, CMDREF. -/
def idPayload (s : State) : List Byte :=
  leBytes 2 0x4824 ++ leBytes 1 0xB0 ++ leBytes 1 (if Config.gradeX then 0x58 else 0x49) ++ leBytes 8 Config.uid.toNat ++
    leBytes 4 (runningBank s).version.toNat ++ leBytes 1 (bitN s.hw.bank) ++ leBytes 1 s.unitByte ++ leBytes 2 0x0302 ++ leBytes 4 0

def runIdRead (_ : CmdIn) (s : State) : Reply := okWith (idPayload s) s

/-- ID_READ (R316). -/
def execIdRead (tag : Fin 64) (s : State) : Host.Outcome State Fault Refusal := .next (runCmd rowIdRead runIdRead tag s)

def rowLcRead : CmdRow := { op := 0x0201, lane := 1, len := 0 }

def lcPayload (s : State) : List Byte :=
  leBytes 1 (lifecycleCode s.sec.state) ++ leBytes 1 (s.sec.debug).toNat ++ leBytes 2 0 ++ leBytes 4 s.sec.sealBreaks.toNat ++
    leBytes 32 (runningBank s).legalHash.toNat

def runLcRead (_ : CmdIn) (s : State) : Reply := okWith (lcPayload s) s

/-- LC_READ (R316). -/
def execLcRead (tag : Fin 64) (s : State) : Host.Outcome State Fault Refusal := .next (runCmd rowLcRead runLcRead tag s)

/-- A lifecycle transition asks for its store (R420). -/
def transition (target : Lifecycle) (unsealing : Bool) (s : State) : Reply :=
  .store (.lifecycle target unsealing s.stamp s.clk.legal.count) s

def rowLcOpen : CmdRow := { op := 0x0202, lane := 2, len := 8, states := [.factory], pairs := [(0, 4)] }

def runLcOpen (i : CmdIn) (s : State) : Reply := if p4 i 0 = 0x4E45504F then transition .opened false s else fail .range s

/-- LC_OPEN (R316, R420). -/
def execLcOpen (tag : Fin 64) (s : State) : Host.Outcome State Fault Refusal := .next (runCmd rowLcOpen runLcOpen tag s)

/-- A channel used by an enabled circuit is uncalibrated (R130). -/
def uncalUsed (s : State) : Bool :=
  (fins 24).any (fun c =>
    let w := s.circuits[c].cfg
    cirEn w && ((cirPorts w).any (fun p => (s.ports[p]).uncal) ||
      (List.range 4).any (fun k => match elemVoltIdx w k with | some v => (s.volts[v]).uncal | none => false)))

def rowSeal : CmdRow := { op := 0x0203, lane := 2, len := 8, states := [.opened], d2 := true, pairs := [(0, 4)] }

def runSeal (i : CmdIn) (s : State) : Reply :=
  if p4 i 0 ≠ 0x4C414553 then fail .range s
  else if uncalUsed s then fail .uncalibrated s
  else if s.sec.makerKey.isNone then fail .denied s
  else transition .sealed false s

/-- SEAL (R130, R316, R420). -/
def execSeal (tag : Fin 64) (s : State) : Host.Outcome State Fault Refusal := .next (runCmd rowSeal runSeal tag s)

def rowUnsealNonce : CmdRow := { op := 0x0204, lane := 2, len := 0, states := [.sealed] }

/-- A new nonce supersedes the one before (R316). -/
def runUnsealNonce (_ : CmdIn) (s : State) : Reply :=
  let d := s.draw
  okWith (leBytes 16 (Config.nonce d.1).toNat) (d.2.modSec (fun k => { k with unsealNonce := some (Config.nonce d.1) }))

/-- UNSEAL_NONCE (R316, R425). -/
def execUnsealNonce (tag : Fin 64) (s : State) : Host.Outcome State Fault Refusal := .next (runCmd rowUnsealNonce runUnsealNonce tag s)

/-- The signature of a record under the MAKER key (R424, R426). -/
def makerSigned (s : State) (bs : List Byte) : Bool :=
  match s.sec.makerKey with
  | some k => Config.verifies k (bs.take 64) (bs.drop 64)
  | none => false

def nonceMatches (n : Option (BitVec 128)) (bs : List Byte) : Bool := decide (n.map (·.toNat) = some (leAt bs 16 16))

/-- Checks 2 to 5 of R424. -/
def unsealCheck (bs : List Byte) (s : State) : Option Status :=
  if leAt bs 8 8 ≠ Config.uid.toNat then some .badSignature
  else if !nonceMatches s.sec.unsealNonce bs then some .stale
  else if leAt bs 4 4 ≠ s.sec.sealBreaks.toNat then some .stale
  else if !makerSigned s bs then some .badSignature
  else none

def rowUnseal : CmdRow :=
  { op := 0x0205, lane := 3, len := 0, bulkIn := some (fun _ b => decide (b.length = 128)), states := [.sealed], d2 := true }

/-- The record's KIND and reserved bytes, then R424; the nonce is consumed once KIND has passed (R425). -/
def runUnseal (i : CmdIn) (s : State) : Reply :=
  if leAt i.bulk 0 4 ≠ 0x4C534E55 ∨ leAt i.bulk 32 32 ≠ 0 then fail .range s
  else
    let spent := s.modSec (fun k => { k with unsealNonce := none })
    match unsealCheck i.bulk s with
    | some st => fail st spent
    | none => transition .opened true spent

/-- UNSEAL (R316, R424, R425). -/
def execUnseal (tag : Fin 64) (s : State) : Host.Outcome State Fault Refusal := .next (runCmd rowUnseal runUnseal tag s)

def rowRetire : CmdRow := { op := 0x0206, lane := 2, len := 8, states := stFOS, d2 := true, pairs := [(0, 4)] }

def runRetire (i : CmdIn) (s : State) : Reply := if p4 i 0 = 0x49544552 then transition .retired false s else fail .range s

/-- RETIRE (R316, R417, R420). -/
def execRetire (tag : Fin 64) (s : State) : Host.Outcome State Fault Refusal := .next (runCmd rowRetire runRetire tag s)

end Sys2Proof.Machine
end

