-- ==== Sys2Proof/Machine/CmdFw.lean ====
section
/-! DEFINITION. The firmware group and the debug authorisation group of Cesoak (R307, R329, R330, R428 to R435). -/

namespace Sys2Proof.Machine

/-! ### Images. An erased byte of a bank reads 0xFF. -/

def bankStateCode : BankState → Nat
  | .empty => 0 | .loading => 1 | .verified => 2 | .running => 3 | .failed => 4

def rowFwInfo : CmdRow := { op := 0x0D01, lane := 1, len := 0 }

def bankPayload (b : FwBank) : List Byte :=
  leBytes 1 (bankStateCode b.st) ++ leBytes 1 0 ++ leBytes 4 b.version.toNat ++ (leBytes 32 b.legalHash.toNat).take 8

def runFwInfo (_ : CmdIn) (s : State) : Reply := okWith (bankPayload s.mp.banks[0] ++ bankPayload s.mp.banks[1]) s

/-- FW_INFO (R329). -/
def execFwInfo (tag : Fin 64) (s : State) : Host.Outcome State Fault Refusal := .next (runCmd rowFwInfo runFwInfo tag s)

/-- The bank that is not running. -/
def otherBank (s : State) : Fin 2 := if s.hw.bank then 0 else 1

def modBank (b : Fin 2) (f : FwBank → FwBank) (s : State) : State := s.modMp (fun m => { m with banks := vmod m.banks b f })

def rowFwLoad : CmdRow :=
  { op := 0x0D02, lane := 3, len := 5, bulkIn := some (fun _ b => decide (1 ≤ b.length) && decide (b.length ≤ 4096)), states := stFOS }

def runFwLoad (i : CmdIn) (s : State) : Reply :=
  let ofs := p4 i 0
  if ofs % 4096 ≠ 0 ∨ 1048576 ≤ ofs ∨ 1 < p1 i 4 then fail .range s
  else if s.hw.swapping then fail .busy s
  else okWith [] (modBank (otherBank s) (fun b =>
    { b with st := .loading, image := memPuts 0xFF (if p1 i 4 = 1 then [] else b.image) ofs i.bulk }) s)

/-- FW_LOAD (R329): any load marks the bank as loading. -/
def execFwLoad (tag : Fin 64) (s : State) : Host.Outcome State Fault Refusal := .next (runCmd rowFwLoad runFwLoad tag s)

/-- The header's fields (R432). -/
def imageLen (hdr : List Byte) : Nat := leAt hdr 8 4
def legalOfs (hdr : List Byte) : Nat := leAt hdr 12 4
def legalLen (hdr : List Byte) : Nat := leAt hdr 16 4

/-- An image passes FW_VERIFY (R432, R433). -/
def imageGood (m : Memory) : Bool :=
  let hdr := memSlice 0xFF m 0 128
  decide (leAt hdr 0 4 = 0x4B534543) && decide (128 ≤ imageLen hdr) && decide (imageLen hdr ≤ 1048576) &&
    decide (legalOfs hdr + legalLen hdr ≤ imageLen hdr) && decide (leAt hdr 20 1 ≤ 1) &&
    decide ((Config.sha256 (memSlice 0xFF m (legalOfs hdr) (legalLen hdr))).toNat = leAt hdr 32 32) &&
    Config.imageSigned (memSlice 0xFF m 0 (imageLen hdr))

def rowFwVerify : CmdRow := { op := 0x0D03, lane := 3, len := 0, states := stFOS }

/-- The bank that is not running is checked; a failure marks it failed (R433). -/
def runFwVerify (_ : CmdIn) (s : State) : Reply :=
  let b := s.mp.banks[otherBank s]
  if b.st = .empty then fail .noImage s
  else if imageGood b.image then
    let hdr := memSlice 0xFF b.image 0 128
    okWith (leBytes 4 (leAt hdr 4 4) ++ leBytes 32 (leAt hdr 32 32))
      (modBank (otherBank s) (fun b => { b with st := .verified, version := BitVec.ofNat 32 (leAt hdr 4 4),
                                                legalHash := BitVec.ofNat 256 (leAt hdr 32 32) }) s)
  else fail .badSignature (modBank (otherBank s) (fun b => { b with st := .failed }) s)

/-- FW_VERIFY (R329, R433). -/
def execFwVerify (tag : Fin 64) (s : State) : Host.Outcome State Fault Refusal := .next (runCmd rowFwVerify runFwVerify tag s)

/-- The old firmware stops: queued commands receive SWAPPED, nonces are void, the debug level falls and open transactions go
(R141, R307, R425, R429). -/
def stopForSwap (t : Fin 64) (s : State) : State :=
  let s := (s.modHw (fun h => { h with mpReady := false, mpRun := true, swapping := true })).modMp
    (fun m => { m with swapTag := some t, swapFrom := s.hw.bank, swapFires := 0, halted := false })
  mpResetTxns (dropDebug (voidNonces s))

/-- Commands that are queued and not started receive SWAPPED; started ones complete (R307). -/
def swapQueued (t : Fin 64) (s : State) : State :=
  s.forEach ((fins 64).filter (fun u => decide (u ≠ t))) (fun u s =>
    match s.mb.tags[u] with
    | some c => if !c.remote && !c.started then answerHw u .swapped s else s
    | none => s)

def rowFwSwap : CmdRow := { op := 0x0D04, lane := 2, len := 2, states := stFOS, d2 := true, pairs := [(0, 1)] }

def runFwSwap (i : CmdIn) (s : State) : Reply :=
  if 1 < p1 i 0 ∨ p1 i 0 = bitN s.hw.bank then fail .range s
  else
    let b := s.mp.banks[otherBank s]
    if b.st ≠ .verified then fail .noImage s
    else if s.sec.state = .sealed ∧ b.legalHash ≠ (runningBank s).legalHash then fail .sealed s
    else if s.hw.frozen then fail .retry s
    else .hold (swapQueued i.tag (stopForSwap i.tag s))

/-- FW_SWAP (R307, R330, R434): the response comes from the new firmware. -/
def execFwSwap (tag : Fin 64) (s : State) : Host.Outcome State Fault Refusal := .next (runCmd rowFwSwap runFwSwap tag s)

/-! ### Debug authorisation -/

def rowDbgNonce : CmdRow := { op := 0x0E01, lane := 2, len := 0, spiOnly := true }

def runDbgNonce (_ : CmdIn) (s : State) : Reply :=
  let d := s.draw
  okWith (leBytes 16 (Config.nonce d.1).toNat) (d.2.modSec (fun k => { k with debugNonce := some (Config.nonce d.1) }))

/-- DBG_NONCE (R329, R428). -/
def execDbgNonce (tag : Fin 64) (s : State) : Host.Outcome State Fault Refusal := .next (runCmd rowDbgNonce runDbgNonce tag s)

/-- The grant's reserved bytes are 0 and its level is the one named (R428). -/
def grantOk (level : Nat) (bs : List Byte) : Bool :=
  decide (leAt bs 0 4 = 0x47554244) && decide (leAt bs 4 4 = 0) && decide (leAt bs 32 1 = level) && decide (leAt bs 33 3 = 0) &&
    decide (leAt bs 40 24 = 0)

/-- UID, nonce and signature in the order of R424; FACTORY checks no signature (R428). -/
def grantCheck (bs : List Byte) (s : State) : Option Status :=
  if leAt bs 8 8 ≠ Config.uid.toNat then some .badSignature
  else if !nonceMatches s.sec.debugNonce bs then some .stale
  else if s.sec.state ≠ .factory ∧ !makerSigned s bs then some .badSignature
  else none

/-- The debug level changes (R429). -/
def setDebug (level : BitVec 2) (left : Option Nat) (s : State) : State :=
  let s' := s.modSec (fun k => { k with debug := level, debugLeft := left, debugFrom := s.time.ticks })
  if s.sec.debug = level then s' else s'.raise irqLifecycle

def rowDbgAuth : CmdRow :=
  { op := 0x0E02, lane := 3, len := 1, bulkIn := some (fun _ b => decide (b.length = 128)), spiOnly := true }

def runDbgAuth (i : CmdIn) (s : State) : Reply :=
  let level := p1 i 0
  if !debugOk s.sec.state (BitVec.ofNat 2 level) ∧ level = 2 then fail .denied s
  else if level < 1 ∨ 2 < level ∨ !grantOk level i.bulk then fail .range s
  else
    let spent := s.modSec (fun k => { k with debugNonce := none })
    match grantCheck i.bulk s with
    | some st => fail st spent
    | none =>
      let dur := leAt i.bulk 36 4
      okWith (leBytes 1 level) (setDebug (BitVec.ofNat 2 level) (if dur = 0 then none else some dur) spent)

/-- DBG_AUTH (R329, R428, R431). -/
def execDbgAuth (tag : Fin 64) (s : State) : Host.Outcome State Fault Refusal := .next (runCmd rowDbgAuth runDbgAuth tag s)

def rowDbgDrop : CmdRow := { op := 0x0E03, lane := 0, len := 0, spiOnly := true }

def runDbgDrop (_ : CmdIn) (s : State) : Reply := okWith (leBytes 1 0) (dropDebug s)

/-- DBG_DROP (R329, R429). -/
def execDbgDrop (tag : Fin 64) (s : State) : Host.Outcome State Fault Refusal := .next (runCmd rowDbgDrop runDbgDrop tag s)

end Sys2Proof.Machine
end

