-- ==== Sys2Proof/Machine/CmdPlc.lean ====
section
/-! DEFINITION. The power-line modem group of Cesoak (R326, R346 to R354). -/

namespace Sys2Proof.Machine

def rowPlcCfg : CmdRow := { op := 0x0A01, lane := 2, len := 8, states := stFOS, rsv := [(5, 3)] }

def runPlcCfg (i : CmdIn) (s : State) : Reply :=
  if 1 < p1 i 0 ∨ 40 < p1 i 1 ∨ p2 i 2 < 100 ∨ 60000 < p2 i 2 ∨ 1 < p1 i 4 then fail .range s
  else .store (.plcCfg (i.pay.take 8)) s

/-- PLC_CFG (R326, R342). -/
def execPlcCfg (tag : Fin 64) (s : State) : Host.Outcome State Fault Refusal := .next (runCmd rowPlcCfg runPlcCfg tag s)

def rowPlcStatus : CmdRow := { op := 0x0A02, lane := 1, len := 0 }

/-- MODE of PLC_STATUS reads OFF where PD_PLC is unpowered (R350). -/
def plcMode (s : State) : Nat := if s.power.state = .run then s.plc.mode.toNat else 0

def plcPayload (s : State) : List Byte :=
  leBytes 1 (plcMode s + 4 * bitN s.plc.overrun) ++
    leBytes 1 ((fins 240).filter (fun i => decide ((s.plc.nodes[i]).st ≠ 0))).length ++ leBytes 2 0 ++
    leBytes 4 s.plc.polls.toNat ++ leBytes 4 s.plc.fails.toNat ++ leBytes 4 s.plc.repolls.toNat ++ leBytes 4 s.plc.pausedMs.toNat

/-- The read clears OVERRUN (R346, R315). -/
def runPlcStatus (_ : CmdIn) (s : State) : Reply := okWith (plcPayload s) (s.modPlc (fun p => { p with overrun := false }))

/-- PLC_STATUS (R326, R346, R349). -/
def execPlcStatus (tag : Fin 64) (s : State) : Host.Outcome State Fault Refusal := .next (runCmd rowPlcStatus runPlcStatus tag s)

/-! ### The node table -/

/-- Node index 1 to 240. -/
def nodeNo (n : Nat) : Option (Fin 240) := if 1 ≤ n ∧ n ≤ 240 then some (Fin.ofNat 240 (n - 1)) else none

/-- What a request that waits or runs will make of a node: enrolled with an identifier, or empty. -/
def nodeChange (i : Fin 240) : Change → Option (Option (BitVec 64))
  | .nodeEnrol j id => if j = i then some (some id) else none
  | .nodeRetire j => if j = i then some none else none
  | _ => none

/-- The identifier that an index holds or is to hold: by the latest request, the latest stored change, or the table (R353). -/
def nodeIdAt (s : State) (i : Fin 240) : Option (BitVec 64) :=
  match s.firn.reqs.reverse.findSome? (fun r => nodeChange i r.change) with
  | some x => x
  | none => match s.plc.pendNodes.find? (fun e => e.1 == i) with
    | some e => e.2
    | none => if (s.plc.nodes[i]).st = 0 then none else some (s.plc.nodes[i]).id

/-- The index is EMPTY in the table in force. -/
def nodeEmpty (s : State) (i : Fin 240) : Bool := decide ((s.plc.nodes[i]).st = 0)

def rowNodeEnrol : CmdRow := { op := 0x0A03, lane := 2, len := 10, states := stFOS }

def runNodeEnrol (i : CmdIn) (s : State) : Reply :=
  let id := BitVec.ofNat 64 (p8 i 0)
  if 1 < p1 i 8 then fail .range s
  else if p1 i 8 = 1 then
    match nodeNo (p1 i 9) with
    | none => fail .range s
    | some k => if (nodeIdAt s k).isNone then fail .nodeUnknown s else .store (.nodeEnrol k id) s
  else if (fins 240).any (fun k => decide (nodeIdAt s k = some id)) then fail .range s
  else match (fins 240).find? (fun k => (nodeIdAt s k).isNone) with
    | none => fail .tableFull s
    | some k => .store (.nodeEnrol k id) s

/-- NODE_ENROL (R326, R353). -/
def execNodeEnrol (tag : Fin 64) (s : State) : Host.Outcome State Fault Refusal := .next (runCmd rowNodeEnrol runNodeEnrol tag s)

def rowNodeRetire : CmdRow := { op := 0x0A04, lane := 2, len := 12, states := stFOS, rsv := [(1, 3)] }

def runNodeRetire (i : CmdIn) (s : State) : Reply :=
  match nodeNo (p1 i 0) with
  | none => fail .range s
  | some k => if nodeIdAt s k = some (BitVec.ofNat 64 (p8 i 4)) then .store (.nodeRetire k) s else fail .nodeUnknown s

/-- NODE_RETIRE (R326, R353). -/
def execNodeRetire (tag : Fin 64) (s : State) : Host.Outcome State Fault Refusal := .next (runCmd rowNodeRetire runNodeRetire tag s)

/-- A command about one node: RANGE outside 1 to 240, NODE_UNKNOWN where the index is EMPTY. -/
def withNode (i : CmdIn) (s : State) (f : Fin 240 → Node → Reply) : Reply :=
  match nodeNo (p1 i 0) with
  | none => fail .range s
  | some k => if nodeEmpty s k then fail .nodeUnknown s else f k s.plc.nodes[k]

def rowNodeRead : CmdRow := { op := 0x0A05, lane := 1, len := 1 }

def nodePayload (n : Node) : List Byte :=
  leBytes 8 n.id.toNat ++ leBytes 1 n.st.toNat ++ leBytes 1 n.phase.toNat ++ [n.snr] ++ leBytes 1 0 ++ leBytes 4 n.last.toNat ++
    leBytes 1 n.epoch.toNat ++ leBytes 3 0 ++ leBytes 4 n.polled.toNat ++ leBytes 4 n.missed.toNat

def runNodeRead (i : CmdIn) (s : State) : Reply := withNode i s (fun _ n => okWith (nodePayload n) s)

/-- NODE_READ (R326, R351). -/
def execNodeRead (tag : Fin 64) (s : State) : Host.Outcome State Fault Refusal := .next (runCmd rowNodeRead runNodeRead tag s)

def rowNodeData : CmdRow := { op := 0x0A06, lane := 1, len := 1 }

def nodeDataPayload (n : Node) : List Byte :=
  leBytes 4 n.last.toNat ++ leBytes 1 n.epoch.toNat ++ leBytes 1 n.uplink.length ++ leBytes 2 0 ++ padTo 32 n.uplink

def runNodeData (i : CmdIn) (s : State) : Reply := withNode i s (fun _ n => okWith (nodeDataPayload n) s)

/-- NODE_DATA (R326, R345). -/
def execNodeData (tag : Fin 64) (s : State) : Host.Outcome State Fault Refusal := .next (runCmd rowNodeData runNodeData tag s)

def rowNodeSend : CmdRow := { op := 0x0A07, lane := 2, len := 36, states := stFOS, lean := true, rsv := [(2, 2)] }

def runNodeSend (i : CmdIn) (s : State) : Reply :=
  let n := p1 i 1
  if n < 1 ∨ 32 < n then fail .range s
  else withNode i s (fun k nd =>
    if nd.downlink.isEmpty then okWith [] (s.modNode k (fun nd => { nd with downlink := (i.pay.drop 4).take n })) else fail .busy s)

/-- NODE_SEND (R326, R349). -/
def execNodeSend (tag : Fin 64) (s : State) : Host.Outcome State Fault Refusal := .next (runCmd rowNodeSend runNodeSend tag s)

def rowPhaseIdent : CmdRow := { op := 0x0A08, lane := 2, len := 1, states := stFOS, lean := true }

def runPhaseIdent (i : CmdIn) (s : State) : Reply :=
  withNode i s (fun k _ =>
    if s.plc.ident.isSome then fail .busy s else okWith [] (s.modPlc (fun p => { p with ident := some (k, 0, []) })))

/-- PHASE_IDENT (R326, R354). -/
def execPhaseIdent (tag : Fin 64) (s : State) : Host.Outcome State Fault Refusal := .next (runCmd rowPhaseIdent runPhaseIdent tag s)

/-- The eight maps in use: DBPSK everywhere with MAPS = 1 and until the first rebuild (R340). -/
def mapsInUse (p : Plc) : List Byte := if p.fixedMaps || p.maps.isEmpty then List.replicate 384 1 else padTo 384 p.maps

def rowTonemapRead : CmdRow := { op := 0x0A09, lane := 3, len := 0, bulkOut := true, lean := true }

def runTonemapRead (_ : CmdIn) (s : State) : Reply := .done .ok [] (mapsInUse s.plc) s

/-- TONEMAP_READ (R326, R340). -/
def execTonemapRead (tag : Fin 64) (s : State) : Host.Outcome State Fault Refusal := .next (runCmd rowTonemapRead runTonemapRead tag s)

end Sys2Proof.Machine
end

