-- ==== Sys2Proof/Machine/PlcPhy.lean ====
section
/-! DEFINITION. The modem's physical layer: symbols and keying (R333, R335, R336), coding (R337, R338), tone-map sequence (R339), the Colander
(R343) and the demodulation of a reply on both inputs (R332). Where the spec names a code or a decoder without its every parameter, the choice
stands in assumption log row 86. -/

namespace Sys2Proof.Machine

/-! ### Bits -/

/-- Bits of a byte string, least significant first (R338). -/
def bitsOfBytes (bs : List Byte) : List Bool := bs.flatMap (fun b => (List.range 8).map (fun k => b.getLsbD k))

/-- The number whose bits, least significant first, these are. -/
def bitsToNat (l : List Bool) : Nat := l.foldr (fun b n => bitN b + 2 * n) 0

/-- A list in pieces of n. -/
def chunks {α : Type} (n : Nat) : Nat → List α → List (List α)
  | 0, _ => []
  | fuel + 1, l => if l.isEmpty then [] else l.take n :: chunks n fuel (l.drop n)

/-- The next `n` rows across columns of unlike heights, each row from the columns that still have an element. -/
def readAcross {α : Type} : Nat → List (List α) → List α
  | 0, _ => []
  | n + 1, cols => cols.filterMap List.head? ++ readAcross n (cols.map List.tail)

/-! ### Reed–Solomon code over GF(256), polynomial 0x11D (R338) -/

def gfDouble (a : Nat) : Nat := if 2 * a < 256 then 2 * a else 2 * a ^^^ 0x11D

def gfMul (a b : Nat) : Nat :=
  (List.range 8).foldr (fun k acc => if b.testBit k then gfDouble acc ^^^ a else gfDouble acc) 0

/-- α to the power k. -/
def gfPow (k : Nat) : Nat := (List.range (k % 255)).foldl (fun a _ => gfDouble a) 1

/-- The inverse, a to the power 254; 0 for 0. -/
def gfInv (a : Nat) : Nat :=
  ((List.range 6).foldl (fun (r : Nat × Nat) _ => (gfMul r.1 (gfMul r.2 r.2), gfMul r.2 r.2)) (gfMul a a, gfMul a a)).1

/-- Value of a polynomial, highest coefficient first. -/
def gfEval (l : List Nat) (x : Nat) : Nat := l.foldl (fun acc c => gfMul acc x ^^^ c) 0

/-- The generator, highest coefficient first: the product of x − α^i for i = 0 to 15. -/
def rsGenerator : List Nat :=
  (List.range 16).foldl (fun g i => List.zipWith (· ^^^ ·) (g ++ [0]) (0 :: g.map (fun c => gfMul c (gfPow i)))) [1]

/-- The 16 check bytes of a shortened word (R338). -/
def rsCheck (bs : List Nat) : List Nat :=
  bs.foldl (fun r b =>
    let f := b ^^^ r.headD 0
    List.zipWith (fun x g => x ^^^ gfMul f g) (r.tail ++ [0]) rsGenerator.tail) (List.replicate 16 0)

/-- A MAC payload with its check bytes. -/
def rsWord (mac : List Byte) : List Byte := mac ++ (rsCheck (mac.map BitVec.toNat)).map (BitVec.ofNat 8)

def syndromes (w : List Nat) : List Nat := (List.range 16).map (fun i => gfEval w (gfPow i))

/-- The state of the search for the error locator: the locator and the one before the last change, lowest coefficient first, its degree, the
shift, and the discrepancy of that change. -/
structure Locator where
  c : List Nat
  b : List Nat
  deg : Nat
  shift : Nat
  disc : Nat

def xorPad (a b : List Nat) : List Nat := (List.range (max a.length b.length)).map (fun k => a.getD k 0 ^^^ b.getD k 0)

/-- One step of the search (Berlekamp and Massey). -/
def Locator.next (syn : List Nat) (r : Locator) (n : Nat) : Locator :=
  let d := (List.range (r.deg + 1)).foldl (fun acc i => acc ^^^ gfMul (r.c.getD i 0) (if i ≤ n then syn.getD (n - i) 0 else 0)) 0
  if d = 0 then { r with shift := r.shift + 1 }
  else
    let c := xorPad r.c (List.replicate r.shift 0 ++ r.b.map (gfMul (gfMul d (gfInv r.disc))))
    if 2 * r.deg ≤ n then { c := c, b := r.c, deg := n + 1 - r.deg, shift := 1, disc := d }
    else { r with c := c, shift := r.shift + 1 }

/-- The error at a position of the word whose coefficient has degree e (Chien and Forney). -/
def errorAt (syn : List Nat) (r : Locator) (e : Nat) : Nat :=
  let xi := gfPow (255 - e % 255)
  if gfEval r.c.reverse xi ≠ 0 then 0
  else
    let omega := (List.range 16).map (fun k => (List.range (k + 1)).foldl (fun acc i => acc ^^^ gfMul (r.c.getD i 0) (syn.getD (k - i) 0)) 0)
    let deriv := (List.range r.c.length).map (fun k => if k % 2 = 0 then r.c.getD (k + 1) 0 else 0)
    gfMul (gfPow e) (gfMul (gfEval omega.reverse xi) (gfInv (gfEval deriv.reverse xi)))

/-- The word's payload, with up to 8 byte errors corrected (R338): none where no code word lies within 8 bytes. -/
def rsDecode (w : List Nat) : Option (List Nat) :=
  let syn := syndromes w
  if syn.all (· == 0) then some (w.take (w.length - 16))
  else
    let r := (List.range 16).foldl (Locator.next syn) { c := [1], b := [1], deg := 0, shift := 1, disc := 1 }
    let fixed := (List.range w.length).map (fun j => w.getD j 0 ^^^ errorAt syn r (w.length - 1 - j))
    if r.deg ≤ 8 ∧ (syndromes fixed).all (· == 0) ∧ (List.zipWith (fun a b => bitN (a != b)) w fixed).sum ≤ 8 then
      some (fixed.take (w.length - 16))
    else none

/-! ### Convolutional code, generators 133 and 171 octal (R338) -/

/-- Parity of the taps of a generator on the present input, in bit 6, and the six before it. -/
def tapParity (g reg : Nat) : Bool := (List.range 7).foldl (fun p k => p != (g.testBit k && reg.testBit k)) false

/-- Coded bits from the zero state, the 133 output first. -/
def convEncode (bits : List Bool) : List Bool :=
  (bits.foldl (fun (a : Nat × List Bool) b =>
    let reg := a.1 / 2 + 64 * bitN b
    (reg, tapParity 0o171 reg :: tapParity 0o133 reg :: a.2)) (0, [])).2.reverse

/-- Bits with the 6 zero tail bits, coded. -/
def codeBits (bits : List Bool) : List Bool := convEncode (bits ++ List.replicate 6 false)

/-- Columns of the block interleaver of 16 rows. -/
def ilCols (m : Nat) : Nat := (m + 15) / 16

/-- Written by rows, read by columns (R338). -/
def interleave (l : List Bool) : List Bool := readAcross (ilCols l.length) (chunks (ilCols l.length) 16 l)

/-- The columns as received: the first `m % cols` hold one element more where the last row is short. -/
def columnsOf {α : Type} (full rem : Nat) : Nat → List α → List (List α)
  | 0, _ => []
  | n + 1, l =>
    let h := if 0 < rem then full + 1 else full
    l.take h :: columnsOf full (rem - 1) n (l.drop h)

def deinterleave {α : Type} (l : List α) : List α :=
  let c := ilCols l.length
  readAcross 16 (columnsOf (l.length / max c 1) (l.length % max c 1) c l)

/-- A path of the decoder: its metric, and its bits, newest first. -/
abbrev TrellisPath := Option (Rat × List Bool)

/-- The better of two paths into a state, each with what its branch adds; on equal metrics the first. -/
def betterPath (u : Bool) (p : TrellisPath) (gp : Rat) (q : TrellisPath) (gq : Rat) : TrellisPath :=
  match p, q with
  | some (a, x), some (b, y) => if b + gq ≤ a + gp then some (a + gp, u :: x) else some (b + gq, u :: y)
  | some (a, x), none => some (a + gp, u :: x)
  | none, some (b, y) => some (b + gq, u :: y)
  | none, none => none

/-- What a branch adds: each coded bit's soft value, positive for 0. -/
def branchGain (la lb : Rat) (reg : Nat) : Rat :=
  (if tapParity 0o133 reg then -la else la) + (if tapParity 0o171 reg then -lb else lb)

/-- Pairs of neighbouring states 2m and 2m + 1, which lead to m and m + 32. -/
def statePairs : Nat → List TrellisPath → List (Nat × TrellisPath × TrellisPath)
  | m, p :: q :: l => (m, p, q) :: statePairs (m + 1) l
  | _, _ => []

/-- One step of the trellis. Both generators tap the newest and the oldest bit, so a branch that differs in one of them gains the opposite. -/
def trellisStep (l : List TrellisPath) (la lb : Rat) : List TrellisPath :=
  let ps := (statePairs 0 l).map (fun e => (branchGain la lb (2 * e.1), e.2))
  ps.map (fun e => betterPath false e.2.1 e.1 e.2.2 (-e.1)) ++ ps.map (fun e => betterPath true e.2.1 (-e.1) e.2.2 e.1)

def trellis : List Rat → List TrellisPath → List TrellisPath
  | la :: lb :: soft, l => trellis soft (trellisStep l la lb)
  | _, l => l

/-- Soft-decision Viterbi decoding from the zero state to the zero state, without the tail (R338). -/
def viterbi (soft : List Rat) : List Bool :=
  let l := trellis soft (some (0, []) :: List.replicate 63 none)
  match l.headD none with
  | some (_, bits) => (bits.drop 6).reverse
  | none => []

/-! ### Keying (R335, R336). Phases are in units of 1/96 turn. -/

/-- Phase of carrier c in a SYNC symbol: 180° × c² / 48. -/
def syncSymbol : List Nat := (List.range 48).map (fun c => c * c % 96)

/-- SYNCM: every carrier is shifted by 180°. -/
def syncmSymbol : List Nat := syncSymbol.map (fun p => (p + 48) % 96)

def preamble : List (List Nat) := [syncSymbol, syncSymbol, syncSymbol, syncmSymbol]

/-- DBPSK symbols on all carriers, each keyed against the one before. -/
def keyRobust : List Nat → List (List Bool) → List (List Nat)
  | _, [] => []
  | ref, bs :: l =>
    let p := List.zipWith (fun r b => (r + 48 * bitN b) % 96) ref bs
    p :: keyRobust p l

/-- Bits in symbols of 48, the last one padded with zeros. -/
def robustSymbols (l : List Bool) : List (List Bool) := (chunks 48 l.length l).map (fun c => c ++ List.replicate (48 - c.length) false)

/-- The phases of a robust frame: preamble, FCH and payload (R336 to R338). -/
def frameSymbols (fch : Nat) (mac : List Byte) : List (List Nat) :=
  preamble ++ keyRobust syncmSymbol
    (robustSymbols (codeBits ((List.range 42).map fch.testBit)) ++ robustSymbols (interleave (codeBits (bitsOfBytes (rsWord mac)))))

/-! ### The Colander (R343) -/

/-- Samples in 8 symbol periods. -/
def colanderSpan : Nat := 8 * 576

/-- A sample, in nV, exceeds the threshold: 4 times the RMS of the unblanked samples of the preceding 8 symbol periods, and 16 times the noise
floor of 1 µV. -/
def Colander.exceeds (c : Colander) (x : Int) : Bool :=
  decide (16000 < x.natAbs) && (decide (c.count = 0) || decide (16 * c.sq < x.natAbs ^ 2 * c.count))

/-- A sample passes: what goes on to the transform, and whether it is blanked. -/
def Colander.pass (c : Colander) (x : Int) : Colander × (Int × Bool) :=
  let blank := c.exceeds x
  let old := if c.hist.length < colanderSpan then none else c.hist.getLast?
  let gone : Nat × Nat := match old with | some (y, false) => (y.natAbs ^ 2, 1) | _ => (0, 0)
  let add : Nat × Nat := if blank then (0, 0) else (x.natAbs ^ 2, 1)
  ({ hist := (x, blank) :: c.hist.take (colanderSpan - 1), sq := c.sq + add.1 - gone.1, count := c.count + add.2 - gone.2 },
    if blank then (0, true) else (x, false))

/-- The samples of a tick pass, oldest first; what goes on is added to a buffer, newest first. -/
def Colander.passAll : Colander → List Int → List (Int × Bool) → Colander × List (Int × Bool)
  | c, [], buf => (c, buf)
  | c, x :: xs, buf => let r := c.pass x; r.1.passAll xs (r.2 :: buf)

/-- More than a quarter of the symbol's samples are blanked: it is erased. -/
def RxSym.erased (y : RxSym) : Bool := decide (144 < y.blanked)

/-! ### Symbols of a reply -/

/-- The transform of a symbol's body, 512 samples after the prefix of 64 (R333). -/
def symbolOf (l : List (Int × Bool)) : RxSym :=
  { bins := (List.range 48).map (fun c => dftBin (40 + c) ((l.drop 64).map (fun e => (e.1 : Rat)))), blanked := (l.filter (fun e => e.2)).length }

/-- The samples from a wideband tick on, `n` of them, oldest first; `now` is the tick of the newest in the buffer. -/
def bufSlice (now : Nat) (buf : List (Int × Bool)) (start n : Nat) : List (Int × Bool) := ((buf.drop (now + 1 - (start + n))).take n).reverse

/-- The symbols that are complete join those received. -/
def takeSyms (now start : Nat) (buf : List (Int × Bool)) : Nat → List RxSym → List RxSym
  | 0, l => l
  | fuel + 1, l =>
    let a := start + 576 * l.length
    if a + 576 ≤ now + 1 ∧ now + 1 ≤ a + buf.length then takeSyms now start buf fuel (l ++ [symbolOf (bufSlice now buf a 576)]) else l

/-- The receiver goes on with the symbols that are complete, on each input. -/
def Exchange.takeSymbols (now : Nat) (x : Exchange) : Exchange :=
  match x.rxStart with
  | none => x
  | some st => { x with rxSyms := #v[takeSyms now st.1 x.rxBuf[0] 8 x.rxSyms[0], takeSyms now st.2 x.rxBuf[1] 8 x.rxSyms[1]] }

/-- Wideband tick of the present sample instant. -/
def wideTick (s : State) : Nat := 16 * s.time.ticks

/-- The samples of a tick, oldest first, pass the Colander of each input, and those after a poll's end wait for the demodulator. -/
def modemTick (wb1 wb2 : List Int) (s : State) : State :=
  let now := s.nowNs
  let tick := wideTick s
  s.modPlc (fun p =>
    let a := p.colander[0].passAll wb1 []
    let b := p.colander[1].passAll wb2 []
    { p with colander := #v[a.1, b.1],
             xchg := p.xchg.map (fun x => if now < x.pollEnd then x else { x with rxBuf := #v[a.2 ++ x.rxBuf[0], b.2 ++ x.rxBuf[1]] }.takeSymbols tick) })

/-- Samples are missing: what is being received has a gap. -/
def modemGap (s : State) : State := s.modPlc (fun p => { p with xchg := p.xchg.map (fun x => { x with rxLost := true }) })

/-! ### Demodulation (R335, R338, R339, R343) -/

/-- The phase changes of k bits, in eighths of a turn, with their bits, most significant first (R335). -/
def keyPoints (k : Nat) : List (Nat × List Bool) :=
  if k = 1 then [(0, [false]), (4, [true])]
  else if k = 2 then [(0, [false, false]), (2, [false, true]), (4, [true, true]), (6, [true, false])]
  else [(0, [false, false, false]), (1, [false, false, true]), (2, [false, true, true]), (3, [false, true, false]),
        (4, [true, true, false]), (5, [true, true, true]), (6, [true, false, true]), (7, [true, false, false])]

/-- Agreement of a phase change with e eighths of a turn. -/
def agreement (d : Bin) (e : Nat) : Rat :=
  if e = 0 then d.re else if e = 2 then d.im else if e = 4 then -d.re else if e = 6 then -d.im
  else d.re * cosTurn (mkRat e 8) + d.im * sinTurn (mkRat e 8)

def bestOf (l : List Rat) : Rat := l.foldl max (l.headD 0)

/-- Soft values of the bits that a phase change carries, positive for 0: the best agreement with a 0 against the best with a 1. -/
def softBits (k : Nat) (d : Bin) : List Rat :=
  let pts := (keyPoints k).map (fun e => (agreement d e.1, e.2))
  (List.range k).map (fun j =>
    bestOf ((pts.filter (fun e => !e.2.getD j false)).map (fun e => e.1)) - bestOf ((pts.filter (fun e => e.2.getD j false)).map (fun e => e.1)))

/-- One symbol against the last phase of each carrier: its soft bits, zero where it is erased, and the phases for the next. A carrier that is off
keeps its phase. -/
def softSymbol (map : List Nat) (ref : List Bin) (y : RxSym) : List Rat × List Bin :=
  let l := List.zipWith (fun (k : Nat) (e : Bin × Bin) =>
    if k = 0 then (([] : List Rat), e.1)
    else (if y.erased then List.replicate k 0 else softBits k (e.2.mul { re := e.1.re, im := -e.1.im }), e.2)) map (List.zip ref y.bins)
  (l.flatMap (fun e => e.1), l.map (fun e => e.2))

def demod : List (List Nat) → List Bin → List RxSym → List Rat
  | m :: ms, ref, y :: ys =>
    let r := softSymbol m ref y
    r.1 ++ demod ms r.2 ys
  | _, _, _ => []

def robustMap : List Nat := List.replicate 48 1

/-- Segment of payload symbol k (R339). -/
def symSegment (rseg rfrac cyc k : Nat) : Nat := (256 * rseg + rfrac + k * 2304000 / max cyc 1) / 256 % 8

/-- Offset of CYC in the frame that asked for a reply (R345). -/
def cycOfs (x : Exchange) : Nat := if x.join then 12 else 4

/-- The tone maps of a reply's payload symbols: robust, or those of a version in the order that the poll announced (R339, R341). -/
def replyMaps (x : Exchange) (mapsel : Bool) (maps : List Byte) (n : Nat) : List (List Nat) :=
  (List.range n).map (fun k =>
    if mapsel then
      ((maps.drop (48 * symSegment (leAt x.mac (cycOfs x + 2) 1 % 8) (leAt x.mac (cycOfs x + 3) 1) (leAt x.mac (cycOfs x) 2) k)).take 48).map BitVec.toNat
    else robustMap)

/-- The FCH of what an input has received (R336, R337). -/
def rxFch (syms : List RxSym) : BitVec 42 :=
  BitVec.ofNat 42 (bitsToNat (viterbi (demod [robustMap, robustMap] ((syms.getD 3 { bins := [], blanked := 0 }).bins) (syms.drop 4))))

/-- Coded bits of a MAC payload of n bytes (R338). -/
def codedLen (n : Nat) : Nat := 2 * (8 * (n + 16) + 6)

/-- The MAC payload of n bytes that the soft bits of a frame carry (R338). -/
def macOf (soft : List Rat) (n : Nat) : Option (List Byte) :=
  let bits := viterbi (deinterleave (soft.take (codedLen n)))
  (rsDecode ((chunks 8 (n + 16) bits).map bitsToNat)).map (fun l => l.map (BitVec.ofNat 8))

/-- The payload lengths of a REPLY that need exactly the symbols of a frame (R338, R345). -/
def replyLens (maps : List (List Nat)) : List Nat :=
  let room := (maps.map List.sum).sum
  let less := (maps.dropLast.map List.sum).sum
  ((List.range 33).map (· + 8)).filter (fun n => decide (codedLen n ≤ room) && decide (less < codedLen n))

/-- Received level of a carrier in 0.5 dB above 1 µV rms: its mean square over the preamble symbols that are not erased (R340). -/
def preambleLevels (syms : List RxSym) : List Byte :=
  let l := (syms.take 4).filter (fun y => !y.erased)
  (List.range 48).map (fun c => BitVec.ofNat 8 (noiseLevel (sumRats (l.map (fun y => 2 * (y.bins.getD c { re := 0, im := 0 }).sq)) / max l.length 1)))

/-- A preamble symbol is left for the correlation at a detection `lead` ticks after the first sample (R343): not every symbol complete by then is
erased. -/
def correlates (now start lead : Nat) (buf : List (Int × Bool)) : Bool :=
  let l := takeSyms now start buf 4 []
  decide (l.length < min (lead / 576) 4) || l.any (fun y => !y.erased)

end Sys2Proof.Machine
end

