-- ==== Sys2Proof/Machine/PqWide.lean ====
section
/-! DEFINITION. The wideband channels: supraharmonic bands (R121, R122), the segments of the mains cycle (R334) and the modem's noise table (R123). -/

namespace Sys2Proof.Machine

/-! ### The mains cycle (R334) -/

/-- The modem works on a set A that is synchronised. -/
def setASync (s : State) : Bool := (s.pqSets[(0 : Fin 2)]).ref.isSome && (s.pqSets[(0 : Fin 2)]).synced

/-- CYC in µs: the latest full cycle of set A's reference, to the nearest, or the nominal one while set A is unsynchronised or has shown
none (R334). -/
def mainsCyc (s : State) : Nat :=
  let q := s.pqSets[(0 : Fin 2)]
  if setASync s && decide (q.cycleLen ≠ 0) then (2 * q.cycleLen * 125 + 4096) / 8192 else if vsNomf q.cfg then 16667 else 20000

/-- The latest positive-going crossing of set A's reference, in 1/1024 sample. -/
def mainsCross (s : State) : Nat := ((s.pqSets[(0 : Fin 2)]).lastCross).getD Config.firstCross

/-- Time, in units of CYC / 2048 rounded down and modulo 2048, from the latest crossing to an instant in 1/1024 sample (R334, R339): a
1/1024 sample is 125/4096 µs. -/
def mainsPhase (s : State) (t : Nat) : Nat :=
  (((t : Int) - mainsCross s) * 125 * 2048 / (4096 * max (mainsCyc s) 1 : Nat) % 2048).toNat

/-- The segment, 0 to 7, that holds an instant. -/
def mainsSegment (s : State) (t : Nat) : Nat := mainsPhase s t / 256

/-- The wideband channels are measured: in LEAN they are unpowered (R408, R411). -/
def State.wideOn (s : State) : Bool := s.metering && decide (s.power.state = .run)

/-! ### Supraharmonics (R121, R122) -/

/-- B(b)² in nV² over the samples of a 200 ms window, oldest first: 40 bins of 5 Hz (R121). -/
def supraSq (xs : List Rat) (b : Nat) : Rat :=
  sumRats ((List.range 40).map (fun i => rmsSq 1 (dftBin (401 + 40 * b + i) xs)))

/-- The 740 bands of a window in nV. -/
def supraBands (xs : List Int) : List Nat :=
  let xs := xs.reverse.map (fun x => (x : Rat))
  (List.range 740).map (fun b => (roundRat (sqrtRat (supraSq xs b))).toNat)

/-- The bands that the unit's own modem uses (R122). -/
def modemBand (b : Nat) : Bool := decide (185 ≤ b) && decide (b ≤ 429)

/-- An aggregate with one more window; while the modem transmitted, its modem bands are left out and the window is counted (R122). -/
def SupraSum.add (tx : Bool) (bands : Vector (List Nat) 2) (a : SupraSum) : SupraSum :=
  { count := a.count + 1, excl := a.excl + bitN tx,
    sq := Vector.ofFn (fun ch => (List.range 740).map (fun b =>
      (a.sq[ch]).getD b 0 + if tx && modemBand b then 0 else (bands[ch]).getD b 0 ^ 2)) }

/-- The bands of an aggregate, by RMS over the windows that count for each; a modem band with none reads 0 (R121, R122). -/
def SupraSum.bands (a : SupraSum) : Vector (List Nat) 2 :=
  a.sq.map (fun l => (List.range 740).map (fun b => rootMean (if modemBand b then a.count - a.excl else a.count) (l.getD b 0 : Nat)))

/-- A result of one class. -/
def supraResult (status : BitVec 16) (t : Stamp) (excl : Nat) (bands : Vector (List Nat) 2) (old : SupraResult) : SupraResult :=
  { seq := old.seq + 1, status := status, time := t, excl := excl, bands := bands }

/-- Aggregate k of the supraharmonics closes, and the next one is empty. -/
def closeSupra (k : Fin 2) (t : Stamp) (p : PqUnit) : PqUnit :=
  let a := p.supraOpen[k]
  { p with supra := vput p.supra (k.val + 1) (supraResult (if k.val = 0 ∧ a.count < 15 then stShort else 0) t a.excl a.bands),
           supraOpen := vmod p.supraOpen k (fun _ => .empty) }

/-- A 200 ms window of the wideband channels ends (R121, R122); one with a gap is discarded (R400). A window that ends on a 10-minute boundary
counts in the interval that ends there, and the 3 s block closes with it; a window that is cut by a start or a stall counts as one with
a gap (DESIGN CHOICE, assumption log row 73). -/
def supraWindow (s : State) : State :=
  let t := s.gridStamp
  let ns := s.gridNs
  let gap := s.pq.wbGap || s.stalled 1
  s.modPq (fun p =>
    let cross := decide (0 < p.supraLast) && decide (p.supraLast / 600000000000 < ns / 600000000000)
    let p := if gap then p else
      let bands := p.wbWin.map supraBands
      { p with supra := vmod p.supra 0 (supraResult 0 t 0 bands), supraOpen := p.supraOpen.map (SupraSum.add p.winTx bands) }
    let p := if decide (15 ≤ (p.supraOpen[0]).count) || (cross && decide (0 < (p.supraOpen[0]).count)) then closeSupra 0 t p else p
    let p := if cross && decide (0 < (p.supraOpen[1]).count) then closeSupra 1 t p else p
    { p with supraLast := ns, wbGap := s.stalled 1, wbWin := Vector.replicate 2 [], winTx := decide (ns < s.plc.txUntil) })

/-! ### The noise table (R123) -/

/-- The modem marks an instant, in ns, to power quality: the unit transmits, or a reply window is open (R333, R347). -/
def modemMarks (s : State) (now : Nat) : Bool :=
  decide (now < s.plc.txUntil) || (match s.plc.xchg with
    | some x => decide (x.pollEnd + 2000000 ≤ now) && decide (now < x.pollEnd + 5250000)
    | none => false)

/-- Mean square in nV² of carrier c in a 512-sample transform: bin 40 + c of 1 kHz (R123, R333). -/
def carrierPower (xs : List Rat) (c : Nat) : Rat := rmsSq 1 (dftBin (40 + c) xs)

/-- A transform of a channel counts in its segment (R123). -/
def addNoise (ch seg : Nat) (xs : List Int) (p : PqUnit) : PqUnit :=
  let xs := xs.reverse.map (fun x => (x : Rat))
  { p with noiseSums := vput p.noiseSums (8 * ch + seg) (fun n =>
      { count := n.count + 1, power := (List.range 48).map (fun c => n.power.getD c 0 + carrierPower xs c) }) }

/-- The transform of the millisecond that ends on this tick counts in the segment of its centre, unless the modem marked part of it. The
transforms follow each other on whole milliseconds (DESIGN CHOICE, assumption log row 76). -/
def noiseTick (s : State) : State :=
  if s.gridNs % 1000000 = 0 then
    let seg := mainsSegment s (s.time.ticks * 1024 - 16 * 1024)
    s.modPq (fun p =>
      let good := !p.noiseBad
      let p := if good && decide ((p.noiseBlk[0]).length = 512) then addNoise 0 seg p.noiseBlk[0] p else p
      let p := if good && decide ((p.noiseBlk[1]).length = 512) then addNoise 1 seg p.noiseBlk[1] p else p
      { p with noiseBlk := Vector.replicate 2 [], noiseBad := false })
  else s

/-- The entries of a segment over the second that has ended. -/
def noiseEntries (n : NoiseSum) : List Byte := n.power.map (fun x => BitVec.ofNat 8 (noiseLevel (x / n.count)))

/-- The NOISE table is published (R123): a segment without a qualifying transform keeps its entries and is STALE; with WBQ stalled
every segment is (R400). -/
def noisePublish (s : State) : State :=
  let mask : BitVec 16 := (fins 16).foldl (fun m k => if (s.pq.noiseSums[k]).count = 0 then m ||| BitVec.ofNat 16 (2 ^ k.val) else m) 0
  let stale : BitVec 16 := if s.stalled 1 then 0xFFFF else mask
  let s := s.modPlc (fun p => { p with staleSegs := p.staleSegs ||| BitVec.ofNat 8 stale.toNat })
  s.modPq (fun p =>
    { p with noise := Vector.ofFn (fun k => if stale.getLsbD k.val then p.noise[k] else noiseEntries p.noiseSums[k]),
             noiseSums := Vector.replicate 16 .empty, noiseStale := stale, noiseTime := s.gridStamp, noiseNs := s.gridNs })

/-- NOISE[segment][carrier] of a wideband channel. -/
def noiseAt (p : PqUnit) (ch seg carrier : Nat) : Byte := (vget p.noise (8 * ch + seg) []).getD carrier 0

/-! ### The wideband samples of a tick -/

/-- The wideband samples of a sample tick join the window and the millisecond in progress and go to the modem (R332); with WBQ stalled, and in
LEAN, they are missing (R400, R411). -/
def tickWide (wb1 wb2 : List Int) (s : State) : State :=
  if s.stalled 1 || decide (s.power.state ≠ .run) then modemGap (s.modPq (fun p => { p with noiseBad := true, wbGap := true }))
  else
    modemTick wb1 wb2 (noiseTick (s.modPq (fun p =>
      { p with wbWin := #v[wb1.reverse ++ p.wbWin[0], wb2.reverse ++ p.wbWin[1]],
               noiseBlk := #v[wb1.reverse ++ p.noiseBlk[0], wb2.reverse ++ p.noiseBlk[1]],
               noiseBad := p.noiseBad || modemMarks s s.gridNs })))

/-- Boundaries of R121 and R123 at the last sample tick that no SUPRA_WINDOW and no NOISE_PUBLISH has served. -/
def overdueWide (s : State) : State :=
  let s := if s.wideOn ∧ s.gridNs % 200000000 = 0 ∧ s.pq.supraLast ≠ s.gridNs then supraWindow s else s
  if s.wideOn ∧ s.gridNs % 1000000000 = 0 ∧ s.pq.noiseNs ≠ s.gridNs then noisePublish s else s

end Sys2Proof.Machine
end

