-- ==== Sys2Proof/Machine/CmdPq.lean ====
section
/-! DEFINITION. The power quality group of Cesoak (R91 to R93, R104 to R108, R113 to R123, R322). -/

namespace Sys2Proof.Machine

/-! ### Parameters -/

def rowVsetWrite : CmdRow := { op := 0x0601, lane := 2, len := 16, states := stFOS, rsv := [(2, 2)] }

/-- The set that SET names: 1 A, 2 B (R91). -/
def setNo (n : Nat) : Option (Fin 2) := if n = 1 then some 0 else if n = 2 then some 1 else none

def runVsetWrite (i : CmdIn) (s : State) : Reply :=
  match setNo (p1 i 0) with
  | none => fail .range s
  | some b =>
    let sel := p1 i 1
    let nomf := decide (vsNomf (BitVec.ofNat 32 (p4 i 4)) ≠ vsNomf s.pqSets[b].cfgW)
    if s.sec.state = .sealed ∧ bitB sel 0 ∧ nomf then fail .sealed s
    else if 7 < sel ∨ vsetCfgRsv (p4 i 4) ∨ evtRsv (p4 i 12) ∨ (bitB sel 0 ∧ !vsetCfgOk (p4 i 4)) ∨ (bitB sel 1 ∧ !udinOk (p4 i 8)) ∨ (bitB sel 2 ∧ !evtOk (p4 i 12)) then fail .range s
    else .store (.vset b (BitVec.ofNat 3 sel) (BitVec.ofNat 32 (p4 i 4)) (BitVec.ofNat 32 (p4 i 8)) (BitVec.ofNat 32 (p4 i 12))) s

/-- VSET_WRITE (R91, R92, R93, R322). -/
def execVsetWrite (tag : Fin 64) (s : State) : Host.Outcome State Fault Refusal := .next (runCmd rowVsetWrite runVsetWrite tag s)

def rowChWrite : CmdRow := { op := 0x0602, lane := 2, len := 12, states := stFOS, rsv := [(2, 2)] }

def runChWrite (i : CmdIn) (s : State) : Reply :=
  let ch := p1 i 0
  let sel := p1 i 1
  if ch < 1 ∨ 32 < ch ∨ 3 < sel ∨ 0xFFFF < p4 i 4 ∨ (bitB sel 0 ∧ !chFeOk (p4 i 4)) ∨ (bitB sel 1 ∧ 24 < ch) then fail .range s
  else .store (.channel (Fin.ofNat 32 (ch - 1)) (BitVec.ofNat 2 sel) (BitVec.ofNat 32 (p4 i 4)) (BitVec.ofNat 32 (p4 i 8))) s

/-- CH_WRITE (R93, R322). -/
def execChWrite (tag : Fin 64) (s : State) : Host.Outcome State Fault Refusal := .next (runCmd rowChWrite runChWrite tag s)

/-! ### Results -/

def rowPqRead : CmdRow := { op := 0x0603, lane := 3, len := 2, bulkOut := true }

/-- The blocks of the selected sets and classes, set A first, class ascending; zeros before a class's first result. -/
def pqBlocks (sets classes : Nat) (s : State) : List (List Byte) :=
  ((fins 2).filter (fun b => sets.testBit b.val)).flatMap (fun b =>
    ((fins 4).filter (fun k => classes.testBit k.val)).map (fun k => padTo 64 ((s.pqSets[b]).results[k]).block))

def runPqRead (i : CmdIn) (s : State) : Reply :=
  if 3 < p1 i 0 ∨ 15 < p1 i 1 then fail .range s
  else .done .ok (leBytes 1 (pqBlocks (p1 i 0) (p1 i 1) s).length) (pqBlocks (p1 i 0) (p1 i 1) s).flatten s

/-- PQ_READ (R113, R114, R322). -/
def execPqRead (tag : Fin 64) (s : State) : Host.Outcome State Fault Refusal := .next (runCmd rowPqRead runPqRead tag s)

/-- The set whose windows a channel uses (R97). -/
def setOfChan (s : State) (ch : Fin 32) : Fin 2 :=
  match chanSplit ch with
  | .inl p => s.setOfPort p
  | .inr v => Fin.ofNat 2 (v.val / 4)

/-- The values under a key, none where there are none. -/
def keyed (l : Keyed) (k : Nat) : List Int := ((l.find? (fun e => e.1 == k)).map (fun e => e.2)).getD []

/-- One order of a harmonic value block (R104): G, SG, IG, IC, PHASE and the reserved bytes. Aggregates have no PHASE; order 0 reads 0. -/
def harmEntry (n : Fin 4) (r : PqResult) (ch h : Nat) : List Byte :=
  (List.range 4).flatMap (fun k => leBytes 4 ((keyed r.vals.harm ch).getD (4 * h + k) 0).toNat) ++
    leBytes 2 (if h = 0 then 0 else if n = 0 then ((keyed r.vals.phase ch).getD h 0).toNat else Config.freePhase r.draw ch h % 65536) ++ leBytes 2 0

/-- A harmonic value block (R104); zeros before a class's first result, and for a channel that it does not hold. -/
def harmBlock (n : Fin 4) (r : PqResult) (ch : Nat) : List Byte :=
  if (keyed r.vals.harm ch).isEmpty then List.replicate 2560 0 else (List.range 128).flatMap (harmEntry n r ch)

def rowHarmRead : CmdRow := { op := 0x0604, lane := 3, len := 2, bulkOut := true }

def runHarmRead (i : CmdIn) (s : State) : Reply :=
  let ch := p1 i 0
  if ch < 1 ∨ 32 < ch ∨ 3 < p1 i 1 then fail .range s
  else
    let r := (s.pqSets[setOfChan s (Fin.ofNat 32 (ch - 1))]).results[Fin.ofNat 4 (p1 i 1)]
    .done .ok (leBytes 4 r.seq.toNat ++ leBytes 2 r.status.toNat) (harmBlock (Fin.ofNat 4 (p1 i 1)) r (ch - 1)) s

/-- HARM_READ (R104, R105, R322). -/
def execHarmRead (tag : Fin 64) (s : State) : Host.Outcome State Fault Refusal := .next (runCmd rowHarmRead runHarmRead tag s)

/-- A harmonic power block (R106): four elements of orders 0 to 127. -/
def hpowBlock (r : PqResult) (c : Nat) : List Byte := (List.range 512).flatMap (fun k => leInt 4 ((keyed r.vals.hpow c).getD k 0))

def rowHpowRead : CmdRow := { op := 0x0605, lane := 3, len := 2, bulkOut := true }

def runHpowRead (i : CmdIn) (s : State) : Reply :=
  match num24 (p1 i 0) with
  | none => fail .range s
  | some c =>
    if 2 < p1 i 1 then fail .range s
    else
      let w := (s.circuits[c]).cfg
      let r := (s.pqSets[Fin.ofNat 2 (cirSet w)]).results[Fin.ofNat 4 (p1 i 1)]
      .done .ok (leBytes 4 r.seq.toNat ++ leBytes 2 r.status.toNat) (hpowBlock r c.val) s

/-- HPOW_READ (R106, R322). -/
def execHpowRead (tag : Fin 64) (s : State) : Host.Outcome State Fault Refusal := .next (runCmd rowHpowRead runHpowRead tag s)

def rowFlickerRead : CmdRow := { op := 0x0606, lane := 1, len := 1 }

def flickerPayload (f : Flicker) : List Byte :=
  leBytes 4 f.pinst.toNat ++ leBytes 4 f.pst.toNat ++ leBytes 2 f.pstStatus.toNat ++ leBytes 2 f.pltStatus.toNat ++ leBytes 4 f.plt.toNat ++
    f.pstTime.bytes ++ f.pltTime.bytes

def runFlickerRead (i : CmdIn) (s : State) : Reply :=
  let ch := p1 i 0
  if ch < 25 ∨ 32 < ch then fail .range s else okWith (flickerPayload s.pq.flicker[Fin.ofNat 8 (ch - 25)]) s

/-- FLICKER_READ (R107, R108, R322). -/
def execFlickerRead (tag : Fin 64) (s : State) : Host.Outcome State Fault Refusal := .next (runCmd rowFlickerRead runFlickerRead tag s)

/-! ### Events -/

/-- The record that the next EVENT_READ returns, and the lists without it: restored records first (R120). -/
def popEvent (p : PqUnit) : Option EventRec × PqUnit :=
  match p.restored with
  | r :: rest => (some r, { p with restored := rest })
  | [] => match p.fifo with
    | r :: rest => (some r, { p with fifo := rest })
    | [] => (none, p)

def rowEventRead : CmdRow := { op := 0x0607, lane := 1, len := 0 }

/-- EV_STAT is that before the record is removed; the read clears EV_OVF (R119). -/
def runEventRead (_ : CmdIn) (s : State) : Reply :=
  let e := popEvent s.pq
  okWith (leBytes 4 (evStat s) ++ leBytes 1 (bitN e.1.isSome) ++ leBytes 3 0 ++ padTo 32 ((e.1.map eventBytes).getD []))
    (s.modPq (fun p => { (popEvent p).2 with evOvf := 0 }))

/-- EVENT_READ (R118, R119, R120, R322). -/
def execEventRead (tag : Fin 64) (s : State) : Host.Outcome State Fault Refusal := .next (runCmd rowEventRead runEventRead tag s)

/-! ### Wideband results -/

/-- The bands of a wideband channel in a result, zeros before the first (R121). -/
def supraBlock (r : SupraResult) (ch : Fin 2) : List Byte := (List.range 740).flatMap (fun b => leBytes 4 ((r.bands[ch]).getD b 0))

def rowSupraRead : CmdRow := { op := 0x0608, lane := 3, len := 2, bulkOut := true, lean := true }

def runSupraRead (i : CmdIn) (s : State) : Reply :=
  let ch := p1 i 0
  if ch < 1 ∨ 2 < ch ∨ 2 < p1 i 1 then fail .range s
  else
    let k : Fin 3 := Fin.ofNat 3 (p1 i 1)
    let r := s.pq.supra[k]
    .done .ok (leBytes 4 r.seq.toNat ++ leBytes 2 r.status.toNat ++ leBytes 2 (min r.excl 0xFFFF) ++ r.time.bytes)
      (supraBlock r (Fin.ofNat 2 (ch - 1))) s

/-- SUPRA_READ (R121, R122, R322). -/
def execSupraRead (tag : Fin 64) (s : State) : Host.Outcome State Fault Refusal := .next (runCmd rowSupraRead runSupraRead tag s)

def rowNoiseRead : CmdRow := { op := 0x0609, lane := 3, len := 0, bulkOut := true, lean := true }

def runNoiseRead (_ : CmdIn) (s : State) : Reply :=
  .done .ok (leBytes 2 s.pq.noiseStale.toNat ++ leBytes 2 0 ++ s.pq.noiseTime.bytes)
    ((List.range 768).map (fun k => noiseAt s.pq (k / 384) (k / 48 % 8) (k % 48))) s

/-- NOISE_READ (R123, R322). -/
def execNoiseRead (tag : Fin 64) (s : State) : Host.Outcome State Fault Refusal := .next (runCmd rowNoiseRead runNoiseRead tag s)

end Sys2Proof.Machine
end

