-- ==== Sys2Proof/Machine/CmdTime.lean ====
section
/-! DEFINITION. The time group of Cesoak: the two clocks, alarms, billing records, ring time, steps and timed outputs (R192 to
R223, R232, R235 to R248, R323). -/

namespace Sys2Proof.Machine

/-! ### Reading the clocks -/

def rowClkRead : CmdRow := { op := 0x0701, lane := 1, len := 0 }

/-- The record that reads see: the last one latched while LFUP is stalled (R193, R400, R401). -/
def seenClocks (s : State) : ClkImage := s.clk.latched.getD (clkImage s)

/-- The record of R193; TIME reads 0 in FREE. -/
def clkRecord (s : State) : List Byte :=
  let c := seenClocks s
  leBytes 6 c.legal.toNat ++ leBytes 6 c.service.toNat ++ leBytes 1 (c.lwday.toNat + 16 * c.swday.toNat) ++ leBytes 1 0 ++ leBytes 2 c.stat ++
    ((c.time.map (fun t => t.bytes)).getD (leBytes 12 0)) ++ leBytes 4 s.clk.ofs.toNat

def runClkRead (_ : CmdIn) (s : State) : Reply := okWith (clkRecord s) s

/-- CLK_READ (R193, R323). -/
def execClkRead (tag : Fin 64) (s : State) : Host.Outcome State Fault Refusal := .next (runCmd rowClkRead runClkRead tag s)

def rowClkDate : CmdRow := { op := 0x0702, lane := 1, len := 0 }

def datePayload (s : State) : List Byte :=
  let c := seenClocks s
  dateBytes (secondsOf c.legal) ++ dateBytes (secondsOf c.service) ++ leBytes 6 c.legal.toNat ++ leBytes 6 c.service.toNat ++
    leBytes 1 (c.lwday.toNat + 16 * c.swday.toNat)

/-- A count beyond the calendar reads 0 in its record, and the response carries RANGE with the payload (R210, R323). -/
def runClkDate (_ : CmdIn) (s : State) : Reply :=
  let beyond := decide (maxSeconds < secondsOf (seenClocks s).legal) || decide (maxSeconds < secondsOf (seenClocks s).service)
  .done (if beyond then .range else .ok) (datePayload s) [] s

/-- CLK_DATE (R210, R323). -/
def execClkDate (tag : Fin 64) (s : State) : Host.Outcome State Fault Refusal := .next (runCmd rowClkDate runClkDate tag s)

/-! ### Setting the clocks -/

/-- The seconds field that FORM, SECONDS and DATE name, or the refusal (R211, R323). -/
def setSeconds (form seconds : Nat) (date : List Byte) : Nat ⊕ Status :=
  match form with
  | 0 => if seconds < 2 ^ 33 then .inl seconds else .inr .range
  | 1 =>
    match dateFault date with
    | some .range => .inr .range
    | some .badDate => if leAt date 7 1 ≠ 0 then .inr .range else .inr .badDate
    | none => if leAt date 7 1 ≠ 0 then .inr .range else .inl (dateSeconds date)
  | _ => .inr .range

/-- A clock write that waits for its tick, within 3 ticks (R194). -/
def clockWrite (draw seconds : Nat) (wd : Option (BitVec 3)) (c : RtClock) : RtClock :=
  { c with write := some (BitVec.ofNat 33 seconds, wd, Config.clockWriteTicks draw % 3) }

/-- The weekday that a set carries. -/
def setWday (flags wd : Nat) : Option (BitVec 3) := if bitB flags 0 then some (BitVec.ofNat 3 wd) else none

/-- FLAGS has reserved bits, or the weekday to set is not 0 to 6 (R9, R209). -/
def setWdayBad (flags wd : Nat) : Bool := decide (1 < flags) || decide (7 < wd) || (bitB flags 0 && decide (6 < wd))

def rowServiceSet : CmdRow := { clocks := true, op := 0x0703, lane := 2, len := 20, rsv := [(3, 1)] }

def runServiceSet (i : CmdIn) (s : State) : Reply :=
  match setSeconds (p1 i 0) (p8 i 4) ((i.pay.drop 12).take 8) with
  | .inr .badDate => if setWdayBad (p1 i 1) (p1 i 2) then fail .range s else fail .badDate s
  | .inr st => fail st s
  | .inl sec =>
    if setWdayBad (p1 i 1) (p1 i 2) then fail .range s
    else
      let d := s.draw
      okWith [] (d.2.modClk (fun k => { k with service := clockWrite d.1 sec (setWday (p1 i 1) (p1 i 2)) k.service }))

/-- SERVICE_SET (R194, R195, R323). -/
def execServiceSet (tag : Fin 64) (s : State) : Host.Outcome State Fault Refusal := .next (runCmd rowServiceSet runServiceSet tag s)

def rowLegalSet : CmdRow :=
  { clocks := true, op := 0x0704, lane := 2, len := 36, states := [.factory, .opened, .retired], ordered := true, pairs := [(2, 1), (4, 8), (20, 8)] }

/-- COMPLEMENT has been checked; then the values, then SEALED unless LEGAL_INVALID (R211, R220). A boundary that waits is copied
first (R315). -/
def runLegalSet (i : CmdIn) (s : State) : Reply :=
  match setSeconds (p1 i 0) (p8 i 4) ((i.pay.drop 20).take 8) with
  | .inr .badDate => if setWdayBad (p1 i 1) (p1 i 2) then fail .range s else fail .badDate s
  | .inr st => fail st s
  | .inl sec =>
    if setWdayBad (p1 i 1) (p1 i 2) then fail .range s
    else if s.sec.state = .sealed ∧ !s.clk.legalInvalid then fail .sealed s
    else
      let s := copyBoundary s
      let d := s.draw
      okWith (leBytes 4 s.clk.billSeq.toNat)
        (d.2.modClk (fun k => { k with legal := clockWrite d.1 sec (setWday (p1 i 1) (p1 i 2)) k.legal }))

/-- LEGAL_SET (R195, R220, R323). -/
def execLegalSet (tag : Fin 64) (s : State) : Host.Outcome State Fault Refusal := .next (runCmd rowLegalSet runLegalSet tag s)

/-! ### Clock registers -/

def rowClkCfgWrite : CmdRow := { clocks := true, op := 0x0705, lane := 2, len := 4, states := stFOS }

def runClkCfgWrite (i : CmdIn) (s : State) : Reply :=
  if clkCfgOk (p4 i 0) then .store (.clkCfg (BitVec.ofNat 32 (p4 i 0))) s else fail .range s

/-- CLK_CFG_WRITE (R205, R323). -/
def execClkCfgWrite (tag : Fin 64) (s : State) : Host.Outcome State Fault Refusal := .next (runCmd rowClkCfgWrite runClkCfgWrite tag s)

def rowLtrimWrite : CmdRow := { clocks := true, op := 0x0706, lane := 2, len := 4, states := stFO, pairs := [(0, 2)] }

def runLtrimWrite (i : CmdIn) (s : State) : Reply :=
  if (sgnBits 16 (p2 i 0)).natAbs ≤ 512 then .store (.ltrim (BitVec.ofNat 32 (p4 i 0))) s else fail .range s

/-- LTRIM_WRITE (R197, R323). -/
def execLtrimWrite (tag : Fin 64) (s : State) : Host.Outcome State Fault Refusal := .next (runCmd rowLtrimWrite runLtrimWrite tag s)

def rowLegalParams : CmdRow :=
  { clocks := true, op := 0x0707, lane := 2, len := 36, states := stFO, pairs := [(4, 8), (20, 4), (28, 4)], rsv := [(1, 3)] }

def runLegalParams (i : CmdIn) (s : State) : Reply :=
  let sel := p1 i 0
  if 7 < sel ∨ slewCfgRsv (p4 i 20) ∨ 7 < p4 i 28 ∨ (bitB sel 1 ∧ !slewCfgOk (p4 i 20)) ∨ (bitB sel 2 ∧ !billCfgOk (p4 i 28)) then fail .range s
  else .store (.legalParams (BitVec.ofNat 3 sel) (BitVec.ofNat 64 (p8 i 4)) (BitVec.ofNat 32 (p4 i 20)) (BitVec.ofNat 32 (p4 i 28))) s

/-- LEGAL_PARAMS (R212, R214, R221, R323). -/
def execLegalParams (tag : Fin 64) (s : State) : Host.Outcome State Fault Refusal := .next (runCmd rowLegalParams runLegalParams tag s)

def rowWdayWrite : CmdRow := { clocks := true, op := 0x0708, lane := 2, len := 2 }

/-- LWDAY is written in FACTORY and OPEN only (R209, R323). -/
def runWdayWrite (i : CmdIn) (s : State) : Reply :=
  let legal := decide (p1 i 0 = 0)
  if legal && decide (s.sec.state = .sealed) then fail .sealed s
  else if legal && decide (s.sec.state = .retired) then fail .denied s
  else if 1 < p1 i 0 ∨ 6 < p1 i 1 then fail .range s
  else
    let s := doWeekday legal s
    okWith [] (s.modClk (fun k =>
      if legal then { k with legal := { k.legal with wday := BitVec.ofNat 3 (p1 i 1) } }
      else { k with service := { k.service with wday := BitVec.ofNat 3 (p1 i 1) } }))

/-- WDAY_WRITE (R209, R323). -/
def execWdayWrite (tag : Fin 64) (s : State) : Host.Outcome State Fault Refusal := .next (runCmd rowWdayWrite runWdayWrite tag s)

/-- The clock of an alarm (R206). -/
def alarmClock (k : Clocks) (n : Fin 4) : RtClock := if n.val < 2 then k.legal else k.service

/-- TIME and CTL written (R206, R208): an arming whose value is reached fires on the next tick with SKIPPED. -/
def Alarm.write (time : BitVec 48) (ctl : Nat) (count : BitVec 48) (a : Alarm) : Alarm :=
  { a with time := time, arm := bitB ctl 0, fired := a.fired && !bitB ctl 1, skipped := a.skipped && !bitB ctl 2, wake := bitB ctl 3,
           late := bitB ctl 0 && decide (time.toNat ≤ count.toNat), due := false, dueSkip := false }

def rowAlarmWrite : CmdRow := { clocks := true, op := 0x0709, lane := 2, len := 12, states := stFOS, rsv := [(1, 1)] }

def runAlarmWrite (i : CmdIn) (s : State) : Reply :=
  if 3 < p1 i 0 ∨ 15 < p4 i 8 then fail .range s
  else
    let n := Fin.ofNat 4 (p1 i 0)
    let s := doAlarm n s
    okWith [] (s.modClk (fun k => { k with
      alarms := vmod k.alarms n (Alarm.write (BitVec.ofNat 48 (p6 i 2)) (p4 i 8) (alarmClock k n).count) }))

/-- ALARM_WRITE (R206, R208, R323). -/
def execAlarmWrite (tag : Fin 64) (s : State) : Host.Outcome State Fault Refusal := .next (runCmd rowAlarmWrite runAlarmWrite tag s)

def rowClkClear : CmdRow := { clocks := true, op := 0x070A, lane := 2, len := 4, states := stFOS }

/-- W1C bits of CLK_STAT; OSC_STOPPED stands while the crystal is stopped (R204, R205). -/
def clearClk (m : Nat) (k : Clocks) : Clocks :=
  { k with oscStopped := k.oscStopped && !(bitB m 0 && k.crystalRuns), tcClamp := k.tcClamp && !bitB m 6,
           vbakLow := k.vbakLow && !bitB m 7, bndMissed := k.bndMissed && !bitB m 9 }

def runClkClear (i : CmdIn) (s : State) : Reply :=
  if bitsN (p4 i 0) 15 10 ≠ 0 then fail .range s else okWith [] (s.modClk (clearClk (p4 i 0)))

/-- CLK_CLEAR (R204, R205, R323). -/
def execClkClear (tag : Fin 64) (s : State) : Host.Outcome State Fault Refusal := .next (runCmd rowClkClear runClkClear tag s)

/-! ### Billing records -/

def rowBillRead : CmdRow := { op := 0x070B, lane := 3, len := 1, bulkOut := true }

def runBillRead (i : CmdIn) (s : State) : Reply :=
  let s' := copyBoundary s
  if 3 < p1 i 0 then fail .range s
  else match s'.clk.records[p1 i 0]? with
    | some r => .done .ok (leBytes 4 r.seq.toNat) (billBytes r ++ imageBytes r.image) s'
    | none => fail .range s'

/-- BILL_READ (R223, R315, R323). -/
def execBillRead (tag : Fin 64) (s : State) : Host.Outcome State Fault Refusal := .next (runCmd rowBillRead runBillRead tag s)

/-! ### Ring time -/

def rowTimeStatus : CmdRow := { op := 0x070C, lane := 1, len := 0 }

def timePayload (s : State) : List Byte :=
  s.stamp.bytes ++ leBytes 4 (alignStat s.time) ++ leBytes 4 (rtStat s) ++ leBytes 4 s.time.offset.toNat ++
    leBytes 4 s.ring.portA.delay.toNat ++ leBytes 4 s.ring.portB.delay.toNat ++ leBytes 4 s.ring.portA.asym.toNat ++
    leBytes 4 s.ring.portB.asym.toNat

/-- The read clears SYNC_ERR (R238, R315). -/
def runTimeStatus (_ : CmdIn) (s : State) : Reply := okWith (timePayload s) (s.modTime (fun t => { t with syncErr := 0 }))

/-- TIME_STATUS (R45, R232, R238, R323). -/
def execTimeStatus (tag : Fin 64) (s : State) : Host.Outcome State Fault Refusal := .next (runCmd rowTimeStatus runTimeStatus tag s)

def rowRtWrite : CmdRow := { op := 0x070D, lane := 2, len := 12, head := true, states := stFOS, rsv := [(1, 3)] }

def runRtWrite (i : CmdIn) (s : State) : Reply :=
  let sel := p1 i 0
  let fadj := sgnBits 32 (p4 i 8)
  if 3 < sel ∨ rtCfgRsv (p4 i 4) ∨ (bitB sel 0 ∧ !rtCfgOk (p4 i 4)) ∨ (bitB sel 1 ∧ !fadjOk fadj) then fail .range s
  else
    let cfg := if bitB sel 0 then BitVec.ofNat 32 (p4 i 4) else s.time.cfg
    if bitB sel 1 ∧ rtSrc cfg = 1 then fail .busy s
    else okWith [] (s.modTime (fun t => { t with cfg := cfg, fadj := if bitB sel 1 then BitVec.ofNat 32 (p4 i 8) else t.fadj }))

/-- RT_WRITE (R235, R323). -/
def execRtWrite (tag : Fin 64) (s : State) : Host.Outcome State Fault Refusal := .next (runCmd rowRtWrite runRtWrite tag s)

def rowStep : CmdRow := { op := 0x070E, lane := 2, len := 16, head := true, states := stFOS, pairs := [(0, 8)] }

/-- The new time lies from 0 to below 2^48 s (R239), judged at the earliest AT. -/
def stepInRange (s : State) (delta : Int) : Bool :=
  let t : Int := (((s.nowNs + 5000000 + 999999) / 1000000 * 1000000 : Nat) : Int) + delta
  decide (delta ≠ 0) && decide (0 ≤ t) && decide (t < 2 ^ 48 * 1000000000)

def runRingStep (i : CmdIn) (s : State) : Reply :=
  let delta := sgnBits 64 (p8 i 0)
  if !stepInRange s delta then fail .range s
  else if s.time.step.isSome || s.time.stepStore then fail .busy s
  else .store (.stepEpoch delta) (s.modTime (fun t => { t with stepStore := true }))

/-- A STEP that the freeze turns away leaves nothing pending (R183, R239). -/
def stepBody (i : CmdIn) (s : State) : Reply := if s.hw.frozen then fail .retry s else runRingStep i s

/-- STEP (R239, R323). -/
def execStep (tag : Fin 64) (s : State) : Host.Outcome State Fault Refusal := .next (runCmd rowStep stepBody tag s)

/-! ### Timed outputs -/

/-- The values of TIME, PERIOD and WIDTH that a write joins: those that wait for the pulse's end, or those held (R248). -/
def Tout.held (o : Tout) : BitVec 80 × Word × Word := o.pend.getD (o.time, o.period, o.width)

/-- The values after a write of the selected registers. -/
def toutValues (i : CmdIn) (o : Tout) : BitVec 80 × Word × Word :=
  let sel := p1 i 1
  let h := o.held
  (if bitB sel 1 then BitVec.ofNat 80 (leAt i.pay 8 10) else h.1, if bitB sel 2 then BitVec.ofNat 32 (p4 i 20) else h.2.1,
   if bitB sel 3 then BitVec.ofNat 32 (p4 i 24) else h.2.2)

/-- The registers of an output are legal together (R243). -/
def toutOk (periodic : Bool) (v : BitVec 80 × Word × Word) : Bool :=
  decide (v.1.toNat % 2 ^ 32 < 1000000000) && decide (1000 ≤ v.2.1.toNat) && decide (v.2.1.toNat ≤ 4000000000) &&
    decide (v.2.1.toNat % 5 = 0) && decide (20 ≤ v.2.2.toNat) && decide (v.2.2.toNat ≤ 4000000000) &&
    (!periodic || decide (v.2.2.toNat + 20 ≤ v.2.1.toNat))

/-- CTL written (R243); an output switched off goes idle. -/
def Tout.control (ctl now : Nat) (o : Tout) : Tout :=
  let o := { o with en := bitB ctl 0, periodic := bitB ctl 1, pol := bitB ctl 2, arm := bitB ctl 3, fired := o.fired && !bitB ctl 4,
                    late := o.late && !bitB ctl 5, rephased := o.rephased && !bitB ctl 6 }
  if !o.en then o.finish (now * nsUnits)
  else match o.pulse with
    | some _ => { o with level := !o.idle }
    | none => { o with level := o.idle }

/-- A write of an output (R243, R245, R248): TIME, PERIOD and WIDTH wait for the end of a pulse in progress. -/
def Tout.write (i : CmdIn) (now : Nat) (o : Tout) : Tout :=
  let v := toutValues i o
  let o := if bitB (p1 i 1) 0 then o.control (p4 i 4) now else o
  match o.pulse with
  | some _ => { (if bitB (p1 i 1) 0 then o.rearm now else o) with pend := some v }
  | none => ({ o with time := v.1, period := v.2.1, width := v.2.2, pend := none }).rearm now

def rowToutWrite : CmdRow := { op := 0x070F, lane := 2, len := 28, states := stFOS, rsv := [(3, 1), (18, 2)] }

def runToutWrite (i : CmdIn) (s : State) : Reply :=
  let sel := p1 i 1
  if 3 < p1 i 0 ∨ 15 < sel ∨ bitB (p4 i 4) 7 ∨ 0xFFFF < p4 i 4 ∨ (bitB sel 1 ∧ 15 < p1 i 2) then fail .range s
  else
    let n := Fin.ofNat 4 (p1 i 0)
    let o := s.time.outs[n]
    if !toutOk (if bitB sel 0 then bitB (p4 i 4) 1 else o.periodic) (toutValues i o) then fail .range s
    else if bitB sel 1 ∧ p1 i 2 ≠ s.time.epoch.toNat then fail .stale s
    else okWith [] (s.modTout n (Tout.write i s.nowNs))

/-- TOUT_WRITE (R243, R245, R248, R323). -/
def execToutWrite (tag : Fin 64) (s : State) : Host.Outcome State Fault Refusal := .next (runCmd rowToutWrite runToutWrite tag s)

/-! ### Stored parameters -/

def asymOk (v : Nat) : Bool := decide ((sgnBits 32 v).natAbs ≤ 655360)

def rowAsymWrite : CmdRow := { op := 0x0710, lane := 2, len := 12, states := stFOS, rsv := [(1, 3)] }

def runAsymWrite (i : CmdIn) (s : State) : Reply :=
  let sel := p1 i 0
  if 3 < sel ∨ (bitB sel 0 ∧ !asymOk (p4 i 4)) ∨ (bitB sel 1 ∧ !asymOk (p4 i 8)) then fail .range s
  else .store (.asym (BitVec.ofNat 2 sel) (BitVec.ofNat 32 (p4 i 4)) (BitVec.ofNat 32 (p4 i 8))) s

/-- ASYM_WRITE (R232, R323). -/
def execAsymWrite (tag : Fin 64) (s : State) : Host.Outcome State Fault Refusal := .next (runCmd rowAsymWrite runAsymWrite tag s)

def bulk64 (_ : List Byte) (b : List Byte) : Bool := decide (b.length = 64)

def rowTcompWrite : CmdRow := { op := 0x0711, lane := 3, len := 0, bulkIn := some bulk64, states := stFOS }

def runTcompWrite (i : CmdIn) (s : State) : Reply := .store (.tcomp i.bulk) s

/-- TCOMP_WRITE (R199, R323). -/
def execTcompWrite (tag : Fin 64) (s : State) : Host.Outcome State Fault Refusal := .next (runCmd rowTcompWrite runTcompWrite tag s)

def rowTcTableWrite : CmdRow := { op := 0x0712, lane := 3, len := 0, bulkIn := some bulk64, states := stFOS }

def runTcTableWrite (i : CmdIn) (s : State) : Reply :=
  if risingCodes (tablePoints i.bulk) then .store (.tcTable i.bulk) s else fail .range s

/-- TC_TABLE_WRITE (R200, R323). -/
def execTcTableWrite (tag : Fin 64) (s : State) : Host.Outcome State Fault Refusal := .next (runCmd rowTcTableWrite runTcTableWrite tag s)

end Sys2Proof.Machine
end

