-- ==== Sys2Proof/Machine/MpEvents.lean ====
section
/-! DEFINITION. Events of the management processor: watchdog, readiness, firmware swap and reversion, debug expiry, the TAP
accesses, and the posting of events (R75, R306, R307, R415, R416, R426 to R435). -/

namespace Sys2Proof.Machine

/-- The first 60 s of the firmware in use, in ticks (R434). -/
def swapTrial (s : State) : Bool := decide (s.time.ticks ≤ s.mp.swapAt + 1920000)

/-- WATCHDOG_EXPIRY (R306, R434, R435): paused while the MP is halted (R427). -/
def execWatchdogExpiry (s : State) : Host.Outcome State Fault Refusal :=
  .next (if s.coreOn && s.hw.mpRun && !s.mp.halted then
      let s := if swapTrial s then s.modMp (fun m => { m with swapFires := m.swapFires + 1 }) else s
      (clearSwap (resetMp s)).modHw (fun h => { h with wdogFired := true })
    else s)

/-- A bank whose image the boot ROM accepts (R416): it has been verified, or has run. -/
def bankBoots (b : FwBank) : Bool := decide (b.st = .running) || decide (b.st = .verified)

/-- The boot ROM's choice (R416): the bank in use, or the other one where the first fails. -/
def bootBank (s : State) : Option Bool :=
  let b := s.hw.bank
  if bankBoots (runningBank s) then some b
  else if bankBoots s.mp.banks[otherBank s] then some (!b)
  else none

/-- Bank `b` runs; the other one, if it ran, is verified. -/
def runBank (b : Bool) (m : Mp) : Mp :=
  { m with banks := Vector.ofFn (fun (k : Fin 2) =>
      let x := m.banks[k]
      if bitN b = k.val then { x with st := .running }
      else if x.st = .running then { x with st := .verified } else x) }

/-- A single page of the MP is stored where its image has changed or the page is lost (R205, R434). -/
def storeIfDirty (p : Nat) (s : State) : State :=
  if (pageDirty s p || pageLost s.firn p) && !s.hw.frozen then openStore (.page p) none s else s

/-- The modem's first version base of a run is stored (R342). -/
def storePlcBase (s : State) : State :=
  if s.plc.baseStored || s.hw.frozen || s.firn.reqs.any (fun r => match r.change with | .plcBase _ => true | _ => false) then s
  else openStore (.plcBase (s.plc.base + 8)) none (s.modPlc (fun p => { p with mapVer := p.base + 8 }))

/-- The history lacks an entry (R146): nothing newer stands in its place. -/
def histLacks (f : Firn) (e : LogEntry) : Bool :=
  let bs := ((storedData f (histPage e.cnt.toNat)).drop (32 * (e.cnt.toNat % 2))).take 32
  pageLost f (histPage e.cnt.toNat) || decide (leAt bs 4 1 = 0) || decide (leAt bs 0 4 < e.cnt.toNat)

/-- The LAST_ENTRY of each header that the history lacks, oldest first (R146). -/
def missingEntries (s : State) : List LogEntry :=
  (([s.cal.lastI, s.cal.lastV, s.cal.lastT].filterMap id).filter (histLacks s.firn)).mergeSort (fun a b => decide (a.cnt.toNat ≤ b.cnt.toNat))

/-- The history takes what it lacks (R146). -/
def storeHistory (s : State) : State :=
  if s.hw.frozen then s else s.forEach (missingEntries s) (fun e s => openStore (.logHist e.cnt (entryBytes e)) none s)

/-- Cesoak is ready (R415, R434): it takes commands, records its bank and begins its start-up work. -/
def mpIsReady (b : Bool) (s : State) : State :=
  let s := (s.modHw (fun h => { h with mpReady := true, mpRun := true, bank := b })).modMp (fun m => { runBank b m with fwState := b })
  storeHistory (storePlcBase (storeIfDirty 109 (storeIfDirty 423 s)))

/-- MP_READY (R415, R416). -/
def execMpReady (s : State) : Host.Outcome State Fault Refusal :=
  .next (if s.coreOn && s.hw.loaded && !s.hw.mpReady && !s.hw.swapping then
      match bootBank s with
      | some b => mpIsReady b (if b = s.hw.bank then s else modBank (otherBank (s.modHw (fun h => { h with bank := b })))
          (fun x => { x with st := .failed }) s)
      | none => s.modHw (fun h => { h with mpRun := false })
    else s)

/-- Remote commands in flight record the swap (R305). -/
def yieldSwap (s : State) : State :=
  s.modMb (fun m => { m with tags := m.tags.map (fun c => c.map (fun c => if c.remote then { c with yielded := c.yielded ||| 4 } else c)) })

/-- A PLC frame is in progress: the unit's own, or a reply whose preamble has been detected (R412). -/
def plcFraming (s : State) : Bool :=
  decide (s.nowNs < s.plc.txUntil) || (match s.plc.xchg with | some x => x.detected.isSome | none => false)

/-- A change of LEAN_N takes effect, unless a swap runs or, toward LEAN, a display update, a repair or a PLC frame (R412). -/
def takeLean (s : State) : State :=
  match s.power.leanPend with
  | none => s
  | some lean =>
    let st : PowerState := if lean then .lean else .run
    if s.hw.swapping || (lean && (plcFraming s || (s.disp.upd.isSome && decide (s.disp.mode = 1)))) then s
    else if st = s.power.state then s.modPower (fun p => { p with leanPend := none })
    else
      let s := s.modPower (fun p => { p with leanPend := none })
      let s := voidNonces (dropDebug (s.modPower (fun p => { p with state := st })))
      if lean then
        (s.modPlc (fun p => { p with xchg := none, prepared := none, turnPend := false, turnLeft := [], turnLeaves := [],
                                     colander := Plc.reset.colander })).modDisp (fun d => { d with dpwrEn := false, doe := false })
      else s.modDisp (fun d => { d with dpwrEn := decide (d.mode = 2) })

/-- SWAP_COMPLETE (R307, R330, R434): the new firmware answers the swap command with its VERSION. -/
def execSwapComplete (s : State) : Host.Outcome State Fault Refusal :=
  .next (match s.mp.swapTag with
    | some t =>
      if s.coreOn && s.hw.swapping then
        let s := mpIsReady (!s.hw.bank) s
        let s := (clearSwap (yieldSwap s)).modMp (fun m => { m with swapFires := 0, swapAt := s.time.ticks })
        takeLean ((answer t .ok (leBytes 4 (runningBank s).version.toNat) [] s).raise irqSwap)
      else s
    | none => s)

/-- FW_REVERT (R434): the new firmware failed to become ready, or its watchdog fired twice; the device goes back to the previous
bank and marks the new one failed. -/
def execFwRevert (s : State) : Host.Outcome State Fault Refusal :=
  .next (if !s.coreOn then s
    else if s.hw.swapping then takeLean (modBank (otherBank s) (fun b => { b with st := .failed }) (clearSwap (resetMp s)))
    else if decide (2 ≤ s.mp.swapFires) && decide (s.mp.swapFrom ≠ s.hw.bank) then
      let new := s.hw.bank
      let s := resetMp s
      let s := modBank (Fin.ofNat 2 (bitN new)) (fun b => { b with st := .failed }) s
      (s.modHw (fun h => { h with bank := !new })).modMp (fun m => { m with swapFires := 0 })
    else s)

/-- DURATION has passed since the grant (R428). -/
def grantOver (s : State) : Bool :=
  match s.sec.debugLeft with
  | some d => decide (s.sec.debugFrom + 32000 * d ≤ s.time.ticks)
  | none => false

/-- DEBUG_EXPIRY (R429). -/
def execDebugExpiry (s : State) : Host.Outcome State Fault Refusal := .next (if grantOver s then dropDebug s else s)

/-- MAKER_KEY_WRITE (R426): once, through the TAP at D2 in FACTORY. -/
def execMakerKeyWrite (key : BitVec 512) (s : State) : Host.Outcome State Fault Refusal :=
  .next (if s.coreOn && decide (s.sec.debug = 2) && decide (s.sec.state = .factory) && s.sec.makerKey.isNone then
      s.modSec (fun k => { k with makerKey := some key })
    else s)

/-- MP_HALT (R427). -/
def execMpHalt (s : State) : Host.Outcome State Fault Refusal :=
  .next (if s.coreOn && decide (s.sec.debug = 2) then s.modMp (fun m => { m with halted := true }) else s)

/-- MP_RESUME (R427): a single step leaves the MP halted. -/
def execMpResume (step : Bool) (s : State) : Host.Outcome State Fault Refusal :=
  .next (if s.coreOn && decide (s.sec.debug = 2) && s.mp.halted then s.modMp (fun m => { m with halted := step }) else s)

/-- BREAKPOINT_HIT (R427): a breakpoint is set only at D2. -/
def execBreakpointHit (s : State) : Host.Outcome State Fault Refusal :=
  .next (if s.coreOn && decide (s.sec.debug = 2) && s.hw.mpRun then s.modMp (fun m => { m with halted := true }) else s)

/-- MP_EVENT_POST (R75, R119, R287): the MP takes the events that the hardware kept and sets EVENT. -/
def execMpEventPost (s : State) : Host.Outcome State Fault Refusal :=
  .next (if s.mpRuns && !s.stalled 6 && (decide (0 < s.mp.events) || !s.energy.dirHw.isEmpty) then
      let s := { s with energy := { s.energy with dirQueue := s.energy.dirQueue ++ s.energy.dirHw, dirHw := [] } }
      (s.modMp (fun m => { m with events := 0 })).raise irqEvent
    else s)

end Sys2Proof.Machine
end

