-- ==== Sys2Proof/Machine/DispEvents.lean ====
section
/-! DEFINITION. Events of the display controller (R372, R383 to R392). -/

namespace Sys2Proof.Machine

/-- PD_DISP is powered and the controller works (R408, R415). -/
def dispOn (s : State) : Bool := s.coreOn && decide (s.power.state = .run) && !s.hw.frozen

/-- A LEDGER store runs or waits. -/
def ledgerStoring (s : State) : Bool := s.firn.reqs.any (fun r => match r.change with | .ledger _ _ _ => true | _ => false)

/-- DISP_LEDGER_STORED (R383): every LEDGER store of the update is complete and DPWR_EN rises. -/
def execDispLedgerStored (s : State) : Host.Outcome State Fault Refusal :=
  .next (match s.disp.upd with
    | some u =>
      if dispOn s && decide (u.stage = .ledger) && !ledgerStoring s then
        s.modDisp (fun d => { d with upd := some { u with stage := .rails }, dpwrEn := true, frameAt := s.time.ticks })
      else s
    | none => s)

/-- Frame k of an update is scanned (R371, R372). -/
def scanFrame (k : Nat) (u : Update) (s : State) : State :=
  s.modDisp (fun d => { d with upd := some { u with stage := .frames, frame := k }, frameNo := k, doe := true, frameAt := s.time.ticks,
                               lastFrame := nativeWords d u k, st := if u.typ = 3 then dRepair else dRunning })

/-- A stage that began at `frameAt` has lasted a number of ticks. -/
def dispWaited (n : Nat) (s : State) : Bool := decide (s.disp.frameAt + n ≤ s.time.ticks)

/-- DISP_RAILS_SETTLED (R383): 5 ms after DPWR_EN rises. -/
def execDispRailsSettled (s : State) : Host.Outcome State Fault Refusal :=
  .next (match s.disp.upd with
    | some u => if dispOn s && decide (u.stage = .rails) && dispWaited 160 s then scanFrame 0 u s else s
    | none => s)

/-- DISP_FRAME (R372, R389): the next native frame, FRAME_MS after the last began, or the next legacy frame at 60 Hz. -/
def execDispFrame (s : State) : Host.Outcome State Fault Refusal :=
  .next (if !dispOn s then s
    else match s.disp.upd with
      | some u => if u.stage = .frames ∧ u.frame + 1 < u.frames ∧ dispWaited (framePeriod s.disp u) s then scanFrame (u.frame + 1) u s else s
      | none =>
        if s.disp.mode = 2 ∧ !s.disp.crevOpen ∧ s.disp.dpwrEn ∧ dispWaited 533 s then
          s.modDisp (fun d =>
            let d := legacyScan d
            { d with lastFrame := legacyWords d d.frameNo, frameNo := d.frameNo + 1, doe := true, frameAt := s.time.ticks })
        else s)

/-- A DISP_CFG that waited takes effect, with the stores of a panel that counts as new (R391). -/
def takePending (s : State) : State :=
  match s.disp.pendCfg with
  | some _ =>
    let s := auxSync (s.modDisp applyDispCfg)
    if s.disp.crevNew then s.forEach renewStores (fun e s => openStore e.1 none s) else s
  | none => s

/-- DISP_UPDATE_END (R378, R383, R391): the shown plane takes the new levels, and the record is stored as DONE. -/
def execDispUpdateEnd (s : State) : Host.Outcome State Fault Refusal :=
  .next (match s.disp.upd with
    | some u =>
      if dispOn s && decide (u.stage = .frames) && decide (u.frames ≤ u.frame + 1) && dispWaited (framePeriod s.disp u) s then
        let s := s.modDisp (fun d =>
          { d with shown := shownAfter d u, record := doneRecord d.record, upd := none, dpwrEn := false, doe := false, st := dIdle,
                   updates := satAdd d.updates 1 })
        takeLean (takePending (openStore .dispDone none s))
      else s
    | none => s)

/-- DISP_RECORD_CHECK (R386, R387): an open loop holds the controller in NO_PANEL and nothing is corrected (R390), so the check waits
until two readings say whether the loop is open. -/
def execDispRecordCheck (s : State) : Host.Outcome State Fault Refusal :=
  .next (if dispOn s && s.mpRuns && s.disp.checkPend && decide (s.disp.mode = 1) && decide (2 ≤ s.disp.crevReads) then
      let s := s.modDisp (fun d => { d with checkPend := false, inexact := d.inexact || s.firn.lowKettle || s.firn.unclean })
      if s.disp.crevOpen || decide (recState s.disp.record ≠ 1) then s
      else
        let cs := corrections s
        let lost := (cs.map (fun c => c.2.2)).sum
        let s := s.modDisp (fun d => { d with repairDue := true, repairLost := satAdd d.repairLost lost, st := dRepair })
        s.forEach cs (fun c s => openStore (.ledger c.1 c.2.1 1) none s)
    else s)

/-- DISP_REPAIR (R388): once the corrected ledger is stored, the whole panel is cleared. -/
def execDispRepair (s : State) : Host.Outcome State Fault Refusal :=
  .next (if dispOn s && s.disp.repairDue && s.disp.upd.isNone && decide (s.disp.mode = 1) && !s.disp.crevOpen && !ledgerStoring s then
      let s := s.modDisp (fun d => { d with repairDue := false, crevNew := false })
      openStore .dispPrep none (beginUpdate 3 0 0 s.disp.width.toNat s.disp.height.toNat s)
    else s)

/-- CREVASSE_CLOSE (R390): after 1 s of readings below 2 kΩ the panel counts as new. -/
def execCrevasseClose (s : State) : Host.Outcome State Fault Refusal :=
  .next (if dispOn s && s.disp.crevOpen && decide (100 ≤ s.disp.crevGood) then
      let s := s.modDisp (fun d => panelNew { d with crevOpen := false, crevGood := 0, st := if d.mode = 0 then dOff else dIdle,
                                                     dpwrEn := decide (d.mode = 2) })
      if s.disp.crevNew then s.forEach renewStores (fun e s => openStore e.1 none s) else s
    else s)

/-! ### The legal strip (R392) -/

/-- The items of bits 0 to 2, whose change makes a redraw due. -/
def stripItems (s : State) : List Byte :=
  let m := s.disp.legalMask.toNat
  (if bitB m 0 then (leBytes 32 (runningBank s).legalHash.toNat).take 8 else []) ++
    (if bitB m 1 then leBytes 1 (lifecycleCode s.sec.state) ++ leBytes 4 s.sec.sealBreaks.toNat else []) ++
    (if bitB m 2 then leBytes 4 s.cal.cnt.toNat else [])

/-- Everything the strip shows. -/
def stripContent (s : State) : List Byte :=
  let m := s.disp.legalMask.toNat
  let r := s.clk.records.head?
  stripItems s ++ (if bitB m 3 then leBytes 6 ((r.map (fun (b : BillRec) => b.stop)).getD 0).toNat else []) ++
    (if bitB m 4 then leBytes 12 ((r.map (fun (b : BillRec) => (b.image[(0 : Fin 24)]).acc[(0 : Fin 10)])).getD 0).toNat else [])

/-- The MP draws the strip into the draw plane. -/
def drawStrip (s : State) : State :=
  let c := stripContent s
  s.modDisp (fun d =>
    let w := d.width.toNat
    let top := d.height.toNat - 32
    { d with draw := memPuts 0 d.draw (top * w) ((List.range ((d.height.toNat - top) * w)).map (fun i => Config.stripPixel c i &&& 0x0F)) })

/-- LEGAL_STRIP_REDRAW (R392): a partial update of the bottom 32 rows. -/
def execLegalStripRedraw (s : State) : Host.Outcome State Fault Refusal :=
  .next (if dispOn s && s.mpRuns && decide (s.disp.legalMask ≠ 0) && (s.disp.stripDue || decide (s.disp.stripKey ≠ stripItems s)) &&
        decide (s.disp.mode ≠ 0) && !s.disp.crevOpen && !updateBusy s.disp then
      let key := stripItems s
      let s := (drawStrip s).modDisp (fun d => { d with stripDue := false, stripKey := key, lastRedraw := some s.clk.legal.count })
      let w := s.disp.width.toNat
      let h := min s.disp.height.toNat 32
      let y := s.disp.height.toNat - h
      if s.disp.mode = 2 then s.modDisp (legacyUpdate 0 0 y w h)
      else if bandsLoaded s.disp (chooseBand s).1.val 0 y w h then openStore .dispPrep none (beginUpdate 0 0 y w h s)
      else s
    else s)

end Sys2Proof.Machine
end

