-- ==== Sys2Proof/Machine/EnergyEvents.lean ====
section
/-! DEFINITION. Events of the energy engine, the sense ports, the matching loops, the Tracer and the calibration transactions
(R19, R24 to R29, R44, R62 to R90, R140, R147 to R158). -/

namespace Sys2Proof.Machine

/-! ### Cycle closes -/

def execCycleClose (c : Fin 24) (s : State) : Host.Outcome State Fault Refusal :=
  .next (if s.metering && decide ((s.circuits[c]).due = .crossing) then closeCircuit c s else s)

/-- NOZC_TIMEOUT (R64). -/
def execNozcTimeout (c : Fin 24) (s : State) : Host.Outcome State Fault Refusal :=
  .next (if s.metering && decide ((s.circuits[c]).due = .timeout) then closeCircuit c s else s)

/-- FIXED_BOUNDARY (R66). -/
def execFixedBoundary (c : Fin 24) (s : State) : Host.Outcome State Fault Refusal :=
  .next (if s.metering && decide ((s.circuits[c]).due = .boundary) then closeCircuit c s else s)

/-! ### CF outputs -/

/-- The first scheduled pulse starts (R86, R88). -/
def startPulse (now : Nat) (o : CfOut) : CfOut :=
  match o.sched with
  | t :: rest => if t ≤ now then
      { o with sched := rest, started := some now, pulse := some (now + 32 * cfWidth o.cfg), level := !cfIdle o.cfg } else o
  | [] => o

/-- CF_PULSE (R88). -/
def execCfPulse (o : Fin 8) (s : State) : Host.Outcome State Fault Refusal :=
  .next (if s.metering && (s.cfs[o]).pulse.isNone then s.modCf o (startPulse s.time.ticks) else s)

/-- A pulse ends WIDTH after its start (R86). -/
def endPulse (now : Nat) (o : CfOut) : CfOut :=
  match o.pulse with
  | some t => if t ≤ now then { o with pulse := none, level := cfIdle o.cfg } else o
  | none => o

/-- CF_PULSE_END (R86). -/
def execCfPulseEnd (o : Fin 8) (s : State) : Host.Outcome State Fault Refusal :=
  .next (if s.metering then s.modCf o (endPulse s.time.ticks) else s)

/-! ### Ports -/

/-- SETTLING_END (R19): 64 sample periods after power-up the samples become valid. -/
def execSettlingEnd (u : SettleUnit) (s : State) : Host.Outcome State Fault Refusal :=
  .next (if !s.coreOn then s
    else match u with
      | .port p => if (s.ports[p]).settle = 1 then s.modPort p (fun r => { r with settle := 0 }) else s
      | .vset b => let k := Fin.ofNat 2 (bitN b)
        if (s.pqSets[k]).settle = 1 then s.modSet k (fun q => { q with settle := 0 }) else s)

/-- At the end of a match block, new computed values come into use where no enabled circuit has the port (R28). -/
def useIfFree (p : Fin 24) (s : State) : State := match s.circuitOf p with | some _ => s | none => s.modPort p useMatch

/-- A match block ends (R24 to R26, R28). -/
def endBlock (p : Fin 24) (g d : Word) (s : State) : State := useIfFree p (s.modPort p (matchBlock g d))

/-- MATCH_BLOCK_END (R24 to R26, R28): after the block's 32,000 samples, and not before. -/
def execMatchBlockEnd (p : Fin 24) (g d : Word) (s : State) : Host.Outcome State Fault Refusal :=
  .next (if s.metering && decide (blockLen ≤ (s.ports[p]).blockCnt) then endBlock p g d s else s)

/-- MATCH_HOLD_TIMEOUT (R26): 60 s without an accepted block. -/
def execMatchHoldTimeout (p : Fin 24) (s : State) : Host.Outcome State Fault Refusal :=
  .next (if s.coreOn then s.modPort p holdTimeout else s)

/-- Whether periodic stores may be made: restored, powered by VSUP and not frozen. -/
def storesRun (s : State) : Bool := s.coreOn && s.hw.loaded && !s.hw.frozen

/-- MATCH_STORE (R29): every 24 h of powered time (R465). -/
def execMatchStore (s : State) : Host.Outcome State Fault Refusal :=
  .next (if storesRun s && decide (691200 ≤ s.firn.ptMatch.toNat) then
      openStore .matchPages none (s.modFirn (fun f => { f with ptMatch := 0 }))
    else s)

/-- ALIGN_LOCK (R44): the phase error has stayed within ±5 ns for 32,000 samples. -/
def execAlignLock (s : State) : Host.Outcome State Fault Refusal :=
  .next (if s.coreOn && decide (s.time.mode = .pull) && decide (32000 ≤ s.time.lockRun) then
      s.modTime (fun t => { t with mode := .lock, stepPull := false, pulling := false })
    else s)

/-! ### Tracer -/

/-- |Z| lies above 10 kΩ (R153). -/
def loopOpen (zr zx : Int) : Bool := decide (10000000000 ^ 2 < zr * zr + zx * zx)

/-- OPEN (R153, R154): pilot and subtraction go off. -/
def openLoop (t : Tracer) : Tracer := { t.enter 3 with openSeen := true, zs := none }

/-- The sums of the demodulation block start again. -/
def nextDem (t : Tracer) : Tracer := { t with demI := 0, demQ := 0, demAmp := 0, demN := 0 }

/-- A demodulation block ends (R148, R149, R154): a loop above 10 kΩ, or a pilot out of compliance, leads to FAULT; else Z joins the
smoothed value and, in MEASURE, the period. -/
def tracerBlock (lost : Bool) (t : Tracer) : Tracer :=
  match demodulated t with
  | none => if lost then openLoop t else nextDem t
  | some z =>
    if lost || loopOpen z.1 z.2 then openLoop t
    else
      let t := { nextDem t with zs := smoothZ z t.zs }
      if t.st = 2 then { t with blocks := z :: t.blocks } else t

/-- TRACER_BLOCK (R148, R154): after the 8,000 samples of the block; lost compliance is seen at once. -/
def execTracerBlock (p : Fin 24) (hi lo : Bool) (lost : Bool) (s : State) : Host.Outcome State Fault Refusal :=
  let lost := hi || lo || lost
  .next (if s.metering && pilotOn s.ports[p] && (lost || decide (demLen ≤ (s.ports[p]).tracer.demN)) then s.modTracer p (tracerBlock lost)
    else s)

/-- A signed value saturated to 32 bits. -/
def sat32 (v : Int) : Word := BitVec.ofInt 32 (clampInt (-2147483648) 2147483647 v)

/-- R_LOOP = 1 / Re(1/Z) in µΩ, saturating (R148, R153). Where the real part of Z is zero or negative the rule gives no R_LOOP, and
the model takes the saturated value (log row 62). -/
def loopOhms (zr zx : Int) : Word :=
  if zr ≤ 0 then 0xFFFFFFFF else BitVec.ofNat 32 (min (roundDiv (zr * zr + zx * zx) zr.toNat).toNat 0xFFFFFFFF)

/-- DRIFT in 2^-8 ppm (R152); 0 without a reference. -/
def driftOf (valid : Bool) (rSense : Int) (ref : Nat) : Word :=
  if valid && decide (ref ≠ 0) then sat32 (roundDiv ((rSense - ref) * 256000000) ref) else 0

/-- The number of blocks of a period of 2^AVG s (R148, R153). -/
def periodBlocks (t : Tracer) : Nat := 4 * 2 ^ bitsN t.cfg.toNat 11 8

/-- Squared distance of two impedances. -/
def zDist2 (a b : Int × Int) : Int := (a.1 - b.1) ^ 2 + (a.2 - b.2) ^ 2

/-- The spread of block estimates exceeds 1 % of |Z| (R148). The rule does not say how spread is measured: where even the standard
deviation exceeds the limit the period is rejected, where no two blocks lie further apart than it, it is not, and in between the answer
comes with the event (log row 62). -/
def periodNoisy (wide : Bool) (z : Int × Int) (l : List (Int × Int)) : Bool :=
  let lim := z.1 ^ 2 + z.2 ^ 2
  let far := l.any (fun a => l.any (fun b => decide (lim < 10000 * zDist2 a b)))
  let dev := decide (lim * l.length < 10000 * (l.map (zDist2 z)).sum)
  dev || (far && wide)

/-- A period ends (R148, R152, R153): rejected with NOISY, or accepted. -/
def tracerPeriod (wide : Bool) (t : Tracer) : Tracer :=
  let zr := meanOf (t.blocks.map (·.1))
  let zx := meanOf (t.blocks.map (·.2))
  if periodNoisy wide (zr, zx) t.blocks then { t with noisySeen := true, blocks := [] }
  else
    let r := loopOhms zr zx
    let sense : Int := (r.toNat : Int) - t.rsNom.toNat
    { t with zr := sat32 zr, zx := sat32 zx, rLoop := r, drift := driftOf t.refValid sense t.ref.toNat, periods := satAdd t.periods 1,
             blocks := [], accepted := r :: t.accepted, everAccepted := true,
             shortSeen := t.shortSeen || (t.refValid && decide (2 * sense < t.ref.toNat)) }

/-- The period of a port is over (R148): 2^AVG s of blocks in MEASURE. -/
def periodDue (r : Port) : Bool := pilotOn r && decide (r.tracer.st = 2) && decide (periodBlocks r.tracer ≤ r.tracer.blocks.length)

/-- TRACER_PERIOD_END (R148). -/
def execTracerPeriodEnd (p : Fin 24) (wide : Bool) (s : State) : Host.Outcome State Fault Refusal :=
  .next (if s.metering && periodDue s.ports[p] then s.modTracer p (tracerPeriod wide) else s)

/-- The ramp of 8 s is over (R150). -/
def rampDue (t : Tracer) : Bool := decide (t.st = 1) && decide (rampTicks ≤ t.stTicks)

/-- MEASURE is entered: no period has been accepted in it yet (R150, R155). -/
def toMeasure (t : Tracer) : Tracer := { t.enter 2 with everAccepted := false }

/-- TRACER_RAMP_END (R150). -/
def execTracerRampEnd (p : Fin 24) (s : State) : Host.Outcome State Fault Refusal :=
  .next (if s.coreOn && rampDue (s.ports[p]).tracer then s.modTracer p toMeasure else s)

/-- 64 s in FAULT have passed (R154). -/
def retryDue (t : Tracer) : Bool := decide (t.st = 3) && decide (64 * 32000 ≤ t.stTicks)

/-- TRACER_RETRY (R154). -/
def execTracerRetry (p : Fin 24) (s : State) : Host.Outcome State Fault Refusal :=
  .next (if s.coreOn && retryDue (s.ports[p]).tracer then s.modPort p tracerStart else s)

/-- What a Tracer owes when the next sample comes and no event has brought it: the end of a block, of a period, of the ramp, of the wait
in FAULT. -/
def overdueTracer (r : Port) : Port :=
  let r := if pilotOn r && decide (demLen ≤ r.tracer.demN) then { r with tracer := tracerBlock false r.tracer } else r
  let r := if periodDue r then { r with tracer := tracerPeriod false r.tracer } else r
  let r := if rampDue r.tracer then { r with tracer := toMeasure r.tracer } else r
  if retryDue r.tracer then tracerStart r else r

/-- Trim updates of a port are held by a transaction on its circuit in a state before DONE (R156). -/
def trimHeldBy (s : State) (p : Fin 24) : Bool :=
  match s.circuitOf p with
  | some c => s.cal.txns.any (fun t => decide (t.st ≠ .done) && decide (t.st ≠ .stale) && decide (t.target = .cir c))
  | none => false

/-- The new TRIM that an evaluation queues for a port, and whether it was clamped at TRIM_LIM (R156). -/
def newTrim (lim : Nat) (t : Tracer) : Option (Word × Bool) :=
  let n := t.accepted.length
  let rs : Rat := ((t.accepted.map (fun w => w.toNat)).sum : Rat) / n - t.rsNom.toNat
  if n < 4 ∨ rs ≤ 0 then none
  else
    let want : Rat := (t.ref.toNat : Rat) / rs
    let trim : Rat := trimOf t.trim
    let diff := want - trim
    if |diff| ≤ 20 / 1000000 then none
    else
      let new := trim + max (-(100 / 1000000)) (min (100 / 1000000) diff)
      let lo : Rat := 1 - (lim : Rat) / 1000000
      let hi : Rat := 1 + (lim : Rat) / 1000000
      some (BitVec.ofInt 32 (roundRat (max lo (min hi new) * 2 ^ 30)), decide (new < lo) || decide (hi < new))

/-- The trims that an evaluation queues (R156): FAULT holds the trim (R154), EN = 0 freezes it (R159). -/
def queuedTrims (s : State) : List (Fin 24 × Word × Bool) :=
  (fins 24).filterMap (fun p =>
    let r := s.ports[p]
    if bitB r.tracer.cfg.toNat 4 && r.tracer.refValid && !r.tracer.shortSeen && trcEn r.tracer.cfg && decide (r.tracer.st ≠ 3) && !trimHeldBy s p then
      (newTrim s.cal.trimLim.toNat r.tracer).map (fun t => (p, t.1, t.2))
    else none)

/-- TRIM_EVALUATION (R156): once per 3,600 s of powered time (R465). -/
def execTrimEvaluation (s : State) : Host.Outcome State Fault Refusal :=
  .next (if storesRun s && decide (28800 ≤ s.firn.ptTrace.toNat) then
      let s := s.modFirn (fun f => { f with ptTrace := 0 })
      let q := queuedTrims s
      let s := s.forEach q (fun e s => s.modTracer e.1 (fun t => { t with limitSeen := t.limitSeen || e.2.2 }))
      if q.isEmpty then s else openStore (.trims (q.map (fun e => (e.1, e.2.1)))) none s
    else s)

/-- CAL_IDLE_TIMEOUT (R140): an open transaction without a command for 900 s is aborted. -/
def execCalIdleTimeout (t : CalTarget) (s : State) : Host.Outcome State Fault Refusal :=
  .next (modTxn t (fun u => if u.st = .opened then { u with st := .stale } else u) s)

end Sys2Proof.Machine
end

