-- ==== Sys2Proof/Machine/FirnEvents.lean ====
section
/-! DEFINITION. Events of the Firn store in normal running (R164, R172, R174, R177, R186, R187). -/

namespace Sys2Proof.Machine

/-- STORE_START (R174): waiting stores start on a KETTLE reading of 4.6 V or more, in their order. -/
def execStoreStart (s : State) : Host.Outcome State Fault Refusal :=
  .next (startWaiting s)

/-- PAGE_STORE_DONE (R164, R169, R177, R180, R182): `verified` is the verify's result, `m` what the save sequencer measures. -/
def execPageStoreDone (bank : Fin 16) (verified : Bool) (m : SaveMeter) (s : State) : Host.Outcome State Fault Refusal :=
  .next (if s.firnOn && !s.stalled 11 then pageDone bank verified m s else s)

/-- GROUP_STORE_DONE (R172, R173). -/
def execGroupStoreDone (base : Nat) (s : State) : Host.Outcome State Fault Refusal :=
  .next (if s.firnOn && !s.stalled 11 then groupDone base s else s)

/-- ACCUMULATOR_CHECKPOINT (R186, R369, R465). -/
def execAccumulatorCheckpoint (s : State) : Host.Outcome State Fault Refusal :=
  .next (if storesRun s && decide (28800 ≤ s.firn.ptCkpt.toNat) then
      openStore .checkpoint none (s.modFirn (fun f => { f with ptCkpt := 0 }))
    else s)

/-- A page, or its group, has a store pending or in progress (R187). -/
def pageInStore (s : State) (p : Nat) : Bool := s.firn.reqs.any (fun r => (reqKeys r).contains (storeKey p))

/-- SCRUBBER_STEP (R187): `pass0` and `pass1` are the margin reads of the page's two slots. -/
def execScrubberStep (pass0 pass1 : Bool) (s : State) : Host.Outcome State Fault Refusal :=
  .next (if storesRun s && decide (1575 ≤ s.firn.ptScrub.toNat) then
      let p := s.firn.scrubPage.toNat
      let s := s.modFirn (fun f => { f with ptScrub := 0 })
      if pageInStore s p then s
      else
        let s := s.modFirn (fun f => { f with scrubPage := BitVec.ofNat 16 ((p + 1) % 3072) })
        if (pass0 && pass1) || pageLost s.firn p then s else openStore (.refresh p) none s
    else s)

end Sys2Proof.Machine
end

