-- ==== Sys2Proof/Machine/HostPort.lean ====
section
/-! DEFINITION. The commands of the host SPI port: SPI transactions, doorbells, the snapshot trigger, FORCE, and the events
of the mailbox hardware (R282 to R306). -/

namespace Sys2Proof.Machine

/-- REG_READ (R283, R284): in the CRC form N must be a multiple of 4. -/
def execRegRead (addr : Byte) (form : ReadForm) (s : State) : Host.Outcome State Fault Refusal :=
  let n := formLen form
  let hdr := formHdr 0x03 [addr] form
  if !spiOn s then .next s
  else if !hdr.isEmpty && decide (n % 4 ≠ 0) then .next (sendNothing s)
  else .next (sendData hdr form (regBytes s addr.toNat n) (regReadEffect addr.toNat n s))

/-- REG_WRITE (R283, R284): four data bytes; fewer write nothing, more are ignored. -/
def execRegWrite (addr : Byte) (data : List Byte) (form : Option CrcForm) (s : State) : Host.Outcome State Fault Refusal :=
  if !spiOn s then .next s
  else
    match writeCheck 0x02 [addr] data (some 4) form with
    | .discard => .next (sendNothing s)
    | .crcBad => .next (crcFail (sendNothing s))
    | .apply => if data.length < 4 then .next (sendNothing s) else .next (writeReg addr.toNat (leNat (data.take 4)) (sendNothing s))

/-- WIN_READ (R283). -/
def execWinRead (addr : BitVec 16) (form : ReadForm) (s : State) : Host.Outcome State Fault Refusal :=
  let n := formLen form
  let hdr := formHdr 0x0B (leBytes 2 addr.toNat) form
  if !spiOn s then .next s
  else if s.coreOn then .next (sendData hdr form (winBytes s addr.toNat n) s)
  else .next (notAvail (sendData hdr form (List.replicate n 0) s))

/-- WIN_WRITE (R283, R290): each byte on its 8th bit; in the CRC form all N bytes after the check value matches. -/
def execWinWrite (addr : BitVec 16) (data : List Byte) (form : Option CrcForm) (s : State) : Host.Outcome State Fault Refusal :=
  if !spiOn s then .next s
  else
    match writeCheck 0x0A (leBytes 2 addr.toNat) data none form with
    | .discard => .next (sendNothing s)
    | .crcBad => .next (crcFail (sendNothing s))
    | .apply => if s.coreOn then .next (writeWin addr.toNat data (sendNothing s)) else .next (sendNothing s)

/-- COLD_READ (R283, R289): hardware only, from LOADED on (R286). -/
def execColdRead (addr : BitVec 16) (form : ReadForm) (s : State) : Host.Outcome State Fault Refusal :=
  let n := formLen form
  let hdr := formHdr 0x0C (leBytes 2 addr.toNat) form
  if !spiOn s then .next s
  else if s.coreOn && s.hw.loaded then .next (sendData hdr form (coldBytes s addr.toNat n) s)
  else .next (notAvail (sendData hdr form (List.replicate n 0) s))

/-- UNDEFINED_INSTRUCTION (R283): the transaction is ignored and HMISO stays low. -/
def execUndefinedInstruction (_code : Byte) (s : State) : Host.Outcome State Fault Refusal :=
  .next (if spiOn s then sendNothing s else s)

/-- CMD_PI_WRITE (R286, R291). -/
def execCmdPiWrite (v : Byte) (s : State) : Host.Outcome State Fault Refusal := .next (if s.coreOn then writeCmdPi v s else s)

/-- RSP_CI_WRITE (R286, R291, R299). -/
def execRspCiWrite (v : Byte) (s : State) : Host.Outcome State Fault Refusal := .next (if s.coreOn then writeRspCi v s else s)

/-- TRIGGER (R80, R289). -/
def execTrigger (s : State) : Host.Outcome State Fault Refusal := .next (if spiOn s then triggerSnap s else s)

/-- FORCE (R287, R435). -/
def execForce (v : Byte) (s : State) : Host.Outcome State Fault Refusal := .next (forceReset v s)

/-- DESCRIPTOR_CONSUME (R291, R292). -/
def execDescriptorConsume (s : State) : Host.Outcome State Fault Refusal := .next (consume s)

/-- WIN_EXPIRED (R299): 100 ms, 3,200 sample ticks, after the host's last write. -/
def execWinExpired (s : State) : Host.Outcome State Fault Refusal :=
  .next (if s.coreOn && decide (s.mb.bulk = .filling) && decide (s.mb.fillAt + 3200 ≤ s.time.ticks) then
      (setBulk .free s).modHw (fun h => { h with winExpired := true })
    else s)

/-- How long the origin waits in a lane, in sample ticks: 20 ms, 100 ms, 1 s and 10 s (R301). -/
def relayWait (lane : Nat) : Nat := match lane with | 0 => 640 | 1 => 3200 | 2 => 32000 | _ => 320000

/-- RELAY_TIMEOUT (R301): TIMEOUT is placed and the tag freed. -/
def execRelayTimeout (tag : Fin 64) (s : State) : Host.Outcome State Fault Refusal :=
  .next (match s.mb.tags[tag] with
    | some c => if s.coreOn && c.remote && decide (c.claimed + relayWait (dLane c.desc) ≤ s.time.ticks) then
        answerHw tag .timeout (s.modRing (fun r =>
          { r with push := r.push.filter (fun e => e.2 ≠ some tag),
                   txq := r.txq.map (fun f => if f.tag = some tag then { f with tag := none } else f) }))
      else s
    | none => s)

/-- MP_RESET (R306): a reset of the MP by a cause that has no row of its own. -/
def execMpReset (s : State) : Host.Outcome State Fault Refusal := .next (if s.coreOn then clearSwap (resetMp s) else s)

end Sys2Proof.Machine
end

