-- ==== Sys2Proof/Machine/PlcOps.lean ====
section
/-! DEFINITION. The power-line modem at work: frames and their checks (R336 to R339, R345), turns and exchanges (R346 to R349),
tone maps (R340 to R342), nodes (R351 to R353) and phase identification (R354). -/

namespace Sys2Proof.Machine

/-! ### Frames (R337, R338, R345) -/

def crc8Bit (c : Nat) (b : Bool) : Nat :=
  let top := decide (128 ≤ c) != b
  let c := c * 2 % 256
  if top then c ^^^ 7 else c

/-- CRC-8, polynomial 0x07, initial value 0, over 34 bits, bit 33 first (R337). -/
def fchCrc (v : Nat) : Nat := ((List.range 34).reverse.map (fun k => bitB v k)).foldl crc8Bit 0

/-- The payload with its CRC-16, low byte first (R345). -/
def withCrc (bs : List Byte) : List Byte := bs ++ leBytes 2 (crc16 bs).toNat

/-- Robust payload symbols of a MAC payload (R338): RS check bytes, tail, rate 1/2, 48 bits a symbol. -/
def robustSyms (mac : List Byte) : Nat := (2 * (8 * (mac.length + 16) + 6) + 47) / 48

/-- The FCH of a master frame: master frames are robust (R337, R341). -/
def masterFch (typ idx mapVer : Nat) (mac : List Byte) : Nat :=
  let v := typ + 32 * mapVer + 512 * (robustSyms mac) + 131072 * idx
  v + 2 ^ 34 * fchCrc v

/-- A master frame: FCH, MAC payload and check bytes (R337, R338). -/
def masterFrame (typ idx mapVer : Nat) (mac : List Byte) : List Byte := leBytes 6 (masterFch typ idx mapVer mac) ++ rsWord mac

/-- Length of a master frame in ns: preamble, FCH and payload symbols of 1.125 ms (R333, R336). -/
def frameNs (mac : List Byte) : Nat := (6 + robustSyms mac) * 1125000

/-- The unit transmits: the frame's bytes and its symbols, and the interval marked to power quality (R333, R335, R336). -/
def transmit (start typ idx mapVer : Nat) (mac : List Byte) (s : State) : State :=
  (s.modPlc (fun p => { p with txFrames := [masterFrame typ idx mapVer mac], txSyms := [frameSymbols (masterFch typ idx mapVer mac) mac],
                               txUntil := start + frameNs mac })).modPq (fun u => { u with winTx := true })

/-! ### Mains timing (R334, R339) -/

/-- An instant in 1/1024 sample of the sample count. -/
def sampleInstant (s : State) (ns : Nat) : Nat := ((s.time.ticks * 1024 : Nat) + ((ns : Int) - s.nowNs) * 1024 / 31250).toNat

/-- Time from a poll's end to the nominal centre of its reply's first payload symbol: 2.5 ms, six symbols and a half (R333, R336, R339, R347). -/
def replyCentre : Nat := 2500000 + 6 * 1125000 + 562500

/-- 256 × RSEG + RFRAC for a poll that ends at `pollEnd`, from the crossing and CYC that the MP prepared it with (R339). -/
def pollPos (m : Nat × Nat) (pollEnd : Nat) (s : State) : Nat :=
  (((sampleInstant s (pollEnd + replyCentre) : Int) - m.1) * 125 * 2048 / (4096 * max m.2 1 : Nat) % 2048).toNat

/-- The version a poll names: the one before a version that no MAP frame has announced (R341, R342). -/
def pollVer (p : Plc) : BitVec 4 := if p.mapNew then p.mapVer - 1 else p.mapVer

/-- Offsets 2 to 7 of a POLL. -/
def pollMid (req : Bool) (pos : Nat) (s : State) : List Byte :=
  leBytes 1 (bitN req) ++ leBytes 1 (pollVer s.plc).toNat ++ leBytes 2 s.plc.prepMains.2 ++ leBytes 1 (pos / 256) ++ leBytes 1 (pos % 256)

/-- A node that is identified: its polls carry PHASE_REQ (R354). -/
def identAsks (p : Plc) (i : Fin 240) : Bool := match p.ident with | some (k, _, _) => k == i | none => false

def pollMac (i : Fin 240) (n : Node) (pos : Nat) (s : State) : List Byte :=
  withCrc (leBytes 1 (i.val + 1) ++ leBytes 1 n.seq.toNat ++ pollMid (identAsks s.plc i) pos s ++ leBytes 1 n.downlink.length ++ n.downlink)

def joinMac (i : Fin 240) (n : Node) (pos : Nat) (s : State) : List Byte :=
  withCrc (leBytes 8 n.id.toNat ++ leBytes 1 (i.val + 1) ++ leBytes 1 n.seq.toNat ++ pollMid (identAsks s.plc i) pos s)

/-- Two bits per carrier, map 0 first (R345). -/
def packMaps (l : List Byte) : List Byte := leBytes 96 (packBits 2 (l.map (fun b => b.toNat)))

def mapMac (p : Plc) : List Byte := withCrc (leBytes 1 p.mapVer.toNat ++ leBytes 1 0 ++ packMaps (mapsInUse p))

def leaveMac (id : BitVec 64) : List Byte := withCrc (leBytes 8 id.toNat)

/-! ### Turns (R346, R349, R350, R353) -/

/-- The modem is on: PD_PLC powered and EN set. -/
def plcOn (s : State) : Bool := s.coreOn && !s.hw.frozen && decide (s.power.state = .run) && s.plc.en

/-- A store of the version base runs or waits (R342). -/
def baseStoring (s : State) : Bool := s.firn.reqs.any (fun r => match r.change with | .plcBase _ => true | _ => false)

/-- The table changes that wait for a turn take effect (R353). -/
def takeNodes (p : Plc) : Plc :=
  p.pendNodes.foldl (fun p e =>
    let gone := match p.ident with | some (k, _, _) => k == e.1 | none => false
    { p with nodes := vmod p.nodes e.1 (fun _ => match e.2 with | some id => { Node.reset with st := 1, id := id } | none => .reset),
             ident := if gone then none else p.ident })
    { p with pendNodes := [] }

/-- The time between exchanges, one symbol (R346); the same after a MAP or a LEAVE frame. -/
def exchangeGap : Nat := 1125000

/-- A turn begins at an instant: MODE reads RUN, table changes apply, LEAVE frames and every node that is not EMPTY fall due, and a MAP frame
that is owed goes out first (R341, R346, R353). -/
def beginTurn (at_ : Nat) (s : State) : State :=
  let s := s.modPlc (fun p =>
    let p := takeNodes p
    { p with mode := 1, turnPend := false, turnLeaves := p.leaves, leaves := [], prepared := none, nextAt := at_,
             turnLeft := (fins 240).filter (fun i => decide ((p.nodes[i]).st ≠ 0)) })
  if s.plc.mapOwed && !baseStoring s then
    let mac := mapMac s.plc
    transmit at_ 3 255 s.plc.mapVer.toNat mac
      (s.modPlc (fun p => { p with mapOwed := false, mapNew := false, nextAt := at_ + frameNs mac + exchangeGap }))
  else s

/-- The turn in progress has ended. -/
def turnEnded (p : Plc) : Bool := p.turnLeaves.isEmpty && p.turnLeft.isEmpty && p.xchg.isNone

/-- What takes the line has ended at an instant: the next exchange may start a symbol later, and a turn that fell due during an overrun starts
when the previous one ends (R346). -/
def closeTurn (end_ : Nat) (s : State) : State :=
  let s := s.modPlc (fun p => { p with nextAt := end_ + exchangeGap })
  if s.plc.turnPend && turnEnded s.plc && s.mpRuns then beginTurn end_ s else s

/-- The instant at which the prepared exchange starts: when the schedule lets it, and at least 2 ms after its preparation (R346, R350). -/
def startAt (s : State) : Nat := max s.plc.nextAt (s.plc.prepAt + 2000000)

/-- The exchange ends without an accepted reply, at its window's close or with the reply that failed (R344, R346, R347, R349, R351). -/
def failExchange (x : Exchange) (s : State) : State :=
  let s := s.modNode x.node (fun n =>
    { n with missed := n.missed + 1, missRun := n.missRun + 1, failed := true, st := if n.st = 2 ∧ 8 ≤ n.missRun + 1 then 3 else n.st })
  closeTurn (x.pollEnd + 5250000) (s.modPlc (fun p => { p with xchg := none, fails := p.fails + 1 }))

/-! ### Replies (R337, R339, R344, R345, R347) -/

def fchTyp (v : BitVec 42) : Nat := bitsN v.toNat 3 0
def fchMapsel (v : BitVec 42) : Bool := bitB v.toNat 4
def fchMapver (v : BitVec 42) : Nat := bitsN v.toNat 8 5
def fchIdx (v : BitVec 42) : Nat := bitsN v.toNat 24 17

def fchNsym (v : BitVec 42) : Nat := bitsN v.toNat 16 9

/-- The FCH is good: its CRC, its type, and the node polled as its sender. -/
def fchOk (i : Fin 240) (v : BitVec 42) : Bool :=
  decide (fchCrc (v.toNat % 2 ^ 34) = v.toNat / 2 ^ 34) && decide (fchTyp v = 2) && decide (fchIdx v = i.val + 1)

/-- The reply's maps are held: robust, or the current version, or the one before it (R341). -/
def verHeld (p : Plc) (v : BitVec 42) : Bool :=
  !fchMapsel v || decide (fchMapver v = p.mapVer.toNat) || (!p.oldMaps.isEmpty && decide (fchMapver v = (p.mapVer - 1).toNat))

/-- The MAC payload is good and answers the poll: CRC, LEN, INDEX and SEQ (R344, R345). -/
def replyOk (x : Exchange) (seq : Byte) (bs : List Byte) : Bool :=
  decide (8 ≤ bs.length) && decide (leAt bs 3 1 ≤ 32) && decide (bs.length = 8 + leAt bs 3 1) &&
    decide ((crc16 (bs.take (bs.length - 2))).toNat = leAt bs (bs.length - 2) 2) && decide (leAt bs 0 1 = x.node.val + 1) &&
    decide (leAt bs 1 1 = seq.toNat)

/-- A reply as decoded: its FCH, its MAC payload, the levels of its carriers, and its SNR. -/
structure Decoded where
  fch : BitVec 42
  payload : List Byte
  levels : List Byte
  snr : Byte

/-- What an input has of a reply: it waits for symbols, it has failed, or it has passed, ending on a wideband tick. -/
inductive RxOutcome where
  | waits
  | bad
  | good (tick : Nat) (d : Decoded)

/-- The payload of a frame whose FCH is good, in the version that it names and for the first length that passes (R338, R339, R341, R344). -/
def rxPayload (p : Plc) (x : Exchange) (fch : BitVec 42) (syms : List RxSym) : Option (List Byte) :=
  let maps := replyMaps x (fchMapsel fch) (if fchMapver fch = p.mapVer.toNat then mapsInUse p else p.oldMaps) (fchNsym fch)
  let soft := (demod ([robustMap, robustMap] ++ maps) ((syms.getD 3 { bins := [], blanked := 0 }).bins) (syms.drop 4)).drop 96
  (replyLens maps).findSome? (fun n => (macOf soft n).filter (replyOk x (BitVec.ofNat 8 (leAt x.mac (if x.join then 9 else 1) 1))))

/-- One input's copy of the reply (R332, R336, R337, R344). -/
def rxCopy (p : Plc) (x : Exchange) (start : Nat) (snr : Byte) (syms : List RxSym) : RxOutcome :=
  if syms.length < 6 then .waits
  else
    let fch := rxFch syms
    if !fchOk x.node fch || !verHeld p fch then .bad
    else if syms.length < 6 + fchNsym fch then .waits
    else match rxPayload p x fch (syms.take (6 + fchNsym fch)) with
      | some bs => .good (start + 576 * (6 + fchNsym fch)) { fch := fch, payload := bs, levels := preambleLevels syms, snr := snr }
      | none => .bad

/-- The copy that passes first, WB1's where both pass on one tick (R332); the reply has failed when both copies have. -/
def firstCopy (a b : RxOutcome) : RxOutcome :=
  match a, b with
  | .good t d, .good u e => if t ≤ u then .good t d else .good u e
  | .good t d, _ => .good t d
  | _, .good u e => .good u e
  | .bad, .bad => .bad
  | _, _ => .waits

/-- Ring time of a wideband tick. -/
def tickNs (s : State) (tick : Nat) : Nat := s.nowNs + tick * 15625 / 8 - wideTick s * 15625 / 8

/-- The reply as both inputs have it; with samples missing it has failed (R400). -/
def received (x : Exchange) (snr : Byte) (s : State) : RxOutcome :=
  if s.stalled 1 || x.rxLost then .bad
  else match x.rxStart with
    | some st => firstCopy (rxCopy s.plc x st.1 snr x.rxSyms[0]) (rxCopy s.plc x st.2 snr x.rxSyms[1])
    | none => .bad

/-- Whether the poll sent downlink data. -/
def sentData (x : Exchange) : Bool := !x.join && decide (leAt x.mac 8 1 ≠ 0)

/-- A node after its accepted reply (R347, R349, R351). -/
def takeReplyNode (x : Exchange) (r : Decoded) (d : Word × BitVec 4) (n : Node) : Node :=
  { n with st := 2, snr := r.snr, last := d.1, epoch := d.2, missRun := 0, failed := false, levels := r.levels,
           uplink := (r.payload.drop 6).take (leAt r.payload 3 1),
           downlink := if sentData x && bitB (leAt r.payload 2 1) 1 then [] else n.downlink }

/-- The phase that one reply shows: d in µs modulo CYC against thirds of the cycle. The next V1 crossing after the poll's end is a whole number
of cycles after the latest one, with the detector's delay removed (R354). -/
def phaseOf (s : State) (pollEnd cyc zc : Nat) : BitVec 2 :=
  let v1 := (mainsCross s : Int) - Config.crossDelay (((s.pqSets[(0 : Fin 2)]).ref.map (·.val)).getD 0)
  let d := ((((sampleInstant s pollEnd : Int) - v1) * 125 / 4096 + (2 * zc : Nat)) % (max cyc 1 : Nat)).toNat
  let near : Nat → Bool := fun c => decide (((12 * d : Nat) - (c : Int)).natAbs ≤ cyc)
  if near 0 || near (12 * cyc) then 1 else if near (4 * cyc) then 2 else if near (8 * cyc) then 3 else 0

/-- Identification is void: set A is wired in delta, or V1 is below 10 % of UDIN (R354). -/
def identVoid (s : State) : Bool :=
  let q := s.pqSets[(0 : Fin 2)]
  vsDelta q.cfg || !atLeast ((q.vals[0]).headD 0) 10 q.udin.toNat

/-- PHASE of a node is written, and stored where it changes (R352, R354). -/
def setPhase (i : Fin 240) (ph : BitVec 2) (s : State) : State :=
  let s := s.modPlc (fun p => { p with ident := none })
  if (s.plc.nodes[i]).phase = ph then s
  else
    let s := s.modNode i (fun n => { n with phase := ph })
    if s.hw.frozen then s else openStore (.page (114 + i.val / 4)) none s

/-- One reply's share of an identification: PHASE becomes the phase on which four replies agree (R354). -/
def identReply (i : Fin 240) (pollEnd cyc : Nat) (bs : List Byte) (s : State) : State :=
  match s.plc.ident with
  | some (k, turns, l) =>
    if k = i ∧ bitB (leAt bs 2 1) 0 then
      let l := (if identVoid s then 0 else phaseOf s pollEnd cyc (leAt bs 4 2)) :: l
      if 4 ≤ l.length then setPhase i (if l.all (fun p => decide (p = l.headD 0)) then l.headD 0 else 0) s
      else s.modPlc (fun p => { p with ident := some (k, turns, l) })
    else s
  | none => s

/-- Eight turns without four replies: the result is 0 (R354). -/
def identExpire (i : Fin 240) (s : State) : State :=
  match s.plc.ident with
  | some (k, turns, _) => if k = i ∧ 8 ≤ turns then setPhase i 0 s else s
  | none => s

/-! ### Tone maps (R340 to R342) -/

/-- Margin in 0.5 dB that a setting needs: DBPSK 10 dB, DQPSK 18 dB, D8PSK 24 dB. -/
def mapNeed (k : Nat) : Int := if k = 0 then -1000 else if k = 1 then 20 else if k = 2 then 36 else 48

/-- A carrier's setting by margin and hysteresis of 3 dB. -/
def mapChoice (old : Nat) (m : Int) : Nat :=
  let upTo := ([3, 2, 1] : List Nat).find? (fun k => decide (old < k) && decide (mapNeed k + 6 < m))
  match upTo with
  | some k => k
  | none => (([3, 2, 1] : List Nat).find? (fun k => decide (k ≤ old) && decide (mapNeed k - 6 ≤ m))).getD 0

/-- The 12 carriers of highest margin; on equal margins the lower number. -/
def bestCarriers (m : Nat → Int) : List Nat :=
  (List.range 48).filter (fun c => decide (((List.range 48).filter (fun d => decide (m c < m d) || (decide (m d = m c) && decide (d < c)))).length < 12))

/-- The lowest received level of a carrier over the ACTIVE nodes that have replied. -/
def lowestLevel (p : Plc) (c : Nat) : Option Nat :=
  ((fins 240).filterMap (fun i =>
    let n := p.nodes[i]
    if n.st = 2 ∧ !n.levels.isEmpty then some (n.levels.getD c 0).toNat else none)).min?

/-- One segment's new map; a stale segment keeps its own. -/
def mapSegment (s : State) (old : List Byte) (seg : Nat) : List Byte :=
  let cur := (old.drop (48 * seg)).take 48
  if s.plc.staleSegs.getLsbD seg then cur
  else
    let m : Nat → Int := fun c => ((lowestLevel s.plc c).getD 0 : Int) - (noiseAt s.pq 0 seg c).toNat
    let new := (List.range 48).map (fun c => mapChoice (cur.getD c 1).toNat (m c))
    if (new.filter (fun k => decide (k ≠ 0))).length < 12 then
      let best := bestCarriers m
      (List.range 48).map (fun c => if best.contains c then 1 else 0)
    else new.map (fun k => BitVec.ofNat 8 k)

/-- The eight maps that a rebuild forms. -/
def rebuilt (s : State) : List Byte := (List.range 8).flatMap (mapSegment s (mapsInUse s.plc))

/-- A rebuild: a change gives a new version at most once per 60 s; a version beyond the stored base waits for its store (R341,
R342). -/
def rebuildMaps (s : State) : State :=
  let old := mapsInUse s.plc
  let new := rebuilt s
  let soon := match s.plc.lastVer with | some t => decide (s.time.ticks < t + 60 * 32000) | none => false
  let s := s.modPlc (fun p => { p with staleSegs := 0 })
  if decide (new = old) || soon then s
  else
    let v := s.plc.mapVer + 1
    let s := s.modPlc (fun p => { p with oldMaps := old, maps := new, mapVer := v, mapOwed := true, mapNew := true, lastVer := some s.time.ticks })
    if v = s.plc.base + 8 ∧ !s.hw.frozen then openStore (.plcBase v) none s else s

end Sys2Proof.Machine
end

