-- ==== Sys2Proof/Machine/PlcEvents.lean ====
section
/-! DEFINITION. Events of the power-line modem (R340 to R350). -/

namespace Sys2Proof.Machine

/-- The instant lies on a turn boundary: a whole multiple of POLL ms of ring time (R346). -/
def turnDue (s : State) : Bool := decide (s.plc.poll ≠ 0) && decide (s.gridNs % (s.plc.poll.toNat * 1000000) = 0)

/-- TURN_START (R346, R350): an unfinished turn sets OVERRUN and the new one waits; with the MP stopped the turn is not served and
MODE reads PAUSED. -/
def execTurnStart (s : State) : Host.Outcome State Fault Refusal :=
  .next (if !plcOn s || !turnDue s || !s.plc.baseStored then s
    else if !s.mpRuns then s.modPlc (fun p => { p with mode := 2 })
    else if turnEnded s.plc then beginTurn s.gridNs s
    else s.modPlc (fun p => { p with overrun := true, turnPend := true }))

/-- POLL_PREPARE (R350): at least 2 ms before the exchange starts. -/
def execPollPrepare (s : State) : Host.Outcome State Fault Refusal :=
  .next (if plcOn s && s.mpRuns && s.plc.prepared.isNone then s.modPlc (fun p => { p with prepared := p.turnLeft.head?, prepMains := (mainsCross s, mainsCyc s), prepAt := s.nowNs }) else s)

/-- A LEAVE frame of the turn goes out; no reply is expected (R345, R353). -/
def sendLeave (e : Fin 240 × BitVec 64) (s : State) : State :=
  let start := max s.plc.nextAt s.nowNs
  let s := s.modPlc (fun p => { p with turnLeaves := p.turnLeaves.tail })
  closeTurn (start + frameNs (leaveMac e.2)) (transmit start 5 (e.1.val + 1) s.plc.mapVer.toNat (leaveMac e.2) s)

/-- A POLL or JOIN goes out (R345, R346, R349, R354). -/
def startExchange (i : Fin 240) (s : State) : State :=
  let n := s.plc.nodes[i]
  let join := decide (n.st = 1)
  let start := max (startAt s) s.nowNs
  let form : Nat → List Byte := fun pos => if join then joinMac i n pos s else pollMac i n pos s
  let mac := form (pollPos s.plc.prepMains (start + frameNs (form 0)) s)
  let s := s.modNode i (fun n => { n with seq := n.seq + 1, polled := n.polled + 1 })
  let s := s.modPlc (fun p => { p with
    polls := p.polls + 1, repolls := if n.failed then p.repolls + 1 else p.repolls, prepared := none, turnLeft := p.turnLeft.filter (· ≠ i),
    ident := p.ident.map (fun e => if e.1 = i then (e.1, e.2.1 + 1, e.2.2) else e),
    xchg := some { node := i, join := join, mac := mac, pollEnd := start + frameNs mac, winOpen := false, detected := none } })
  transmit start (if join then 4 else 1) (if join then 255 else i.val + 1) (pollVer s.plc).toNat mac s

/-- EXCHANGE_START (R346, R350): a stopped MP starts no frame, and none starts before its instant. -/
def execExchangeStart (s : State) : Host.Outcome State Fault Refusal :=
  .next (if !plcOn s || !s.mpRuns || s.plc.xchg.isSome then s
    else match s.plc.turnLeaves.head? with
      | some e => if s.reached s.plc.nextAt then sendLeave e s else s
      | none => match s.plc.prepared with
        | some i => if s.reached (startAt s) then startExchange i s else s
        | none => s)

/-- REPLY_WINDOW_OPEN (R347): 2.000 ms after the poll's end. -/
def execReplyWindowOpen (s : State) : Host.Outcome State Fault Refusal :=
  .next (match s.plc.xchg with
    | some x =>
      if plcOn s && decide (x.pollEnd + 2000000 ≤ s.nowNs + 31250) then s.modPlc (fun p => { p with xchg := some { x with winOpen := true } })
      else s
    | none => s)

/-- REPLY_DETECT (R336, R343, R347, R348): on the closing tick or later it is not taken, nor where every preamble symbol so far is erased. -/
def execReplyDetect (d : ReplyDetection) (s : State) : Host.Outcome State Fault Refusal :=
  .next (match s.plc.xchg with
    | some x =>
      if plcOn s && x.winOpen && x.detected.isNone && decide (x.pollEnd + 2000000 ≤ s.nowNs + d.dt) && decide (s.nowNs + d.dt < x.pollEnd + 5250000) then
        let tick := wideTick s + d.dt * 8 / 15625
        let st := (tick - d.lead1, tick - d.lead2)
        if !correlates (wideTick s) st.1 d.lead1 x.rxBuf[0] && !correlates (wideTick s) st.2 d.lead2 x.rxBuf[1] then s
        else s.modPlc (fun p => { p with xchg := some ({ x with detected := some (shortStamp (s.nowNs + d.dt), s.time.epoch), rxStart := some st }.takeSymbols (wideTick s)) })
      else s
    | none => s)

/-- REPLY_WINDOW_CLOSE (R347, R348). -/
def execReplyWindowClose (s : State) : Host.Outcome State Fault Refusal :=
  .next (match s.plc.xchg with
    | some x =>
      if plcOn s && x.winOpen && x.detected.isNone && decide (x.pollEnd + 5250000 ≤ s.nowNs + 31250) then identExpire x.node (failExchange x s)
      else s
    | none => s)

/-- An accepted reply (R341, R347, R349, R351, R352, R354). -/
def acceptReply (x : Exchange) (r : Decoded) (d : Word × BitVec 4) (end_ : Nat) (s : State) : State :=
  let first := decide ((s.plc.nodes[x.node]).st = 1)
  let s := s.modNode x.node (takeReplyNode x r d)
  let s := s.modPlc (fun p => { p with xchg := none, mapOwed := p.mapOwed || bitB (leAt r.payload 2 1) 2 })
  let s := identExpire x.node (identReply x.node x.pollEnd (leAt x.mac (if x.join then 12 else 4) 2) r.payload s)
  let s := if first && !s.hw.frozen then openStore (.page (114 + x.node.val / 4)) none s else s
  closeTurn end_ s

/-- REPLY_RECEIVED (R332, R337, R341, R344, R345, R347): the whole frame has come, on an input that decodes it, or has failed on both. -/
def execReplyReceived (r : RxReply) (s : State) : Host.Outcome State Fault Refusal :=
  .next (match s.plc.xchg with
    | some x =>
      match x.detected with
      | some d =>
        if !plcOn s then s
        else match received x r.snr s with
          | .good k c => acceptReply x c d (tickNs s k) s
          | .bad => identExpire x.node (failExchange x s)
          | .waits => s
      | none => s
    | none => s)

/-- TONEMAP_REBUILD (R340 to R342): every 10 s, with MAPS = 0 and an ACTIVE node. -/
def execTonemapRebuild (s : State) : Host.Outcome State Fault Refusal :=
  .next (if plcOn s && s.mpRuns && !s.plc.fixedMaps && (lowestLevel s.plc 0).isSome then rebuildMaps s else s)

end Sys2Proof.Machine
end

