-- ==== Sys2Proof/Machine/Restore.lean ====
section
/-! DEFINITION. The loader (R415): the choice of slots at restore (R166, R167, R171, R173), what each page gives back to its
owner (R82, R120, R128, R186, R205, R223, R227, R352, R369, R375, R405, R418, R465), and what stays while the core is without
supply (R408). -/

namespace Sys2Proof.Machine

/-! ### Slots -/

/-- The pages of the array that are not blank (R167). -/
def writtenPages (f : Firn) : List Nat := dedup (f.arr.map (fun c => c.1 / 160))

/-- The slots of a page that count for it, slot 0 first (R171). -/
def countingSlots (f : Firn) (p : Nat) : List (Bool × List Byte) :=
  [false, true].filterMap (fun b => let bs := slotBytes f p b; if slotCounts p bs then some (b, bs) else none)

/-- The slot with the higher COUNT; slot 0 where both are equal (R166). -/
def higherCount : List (Bool × List Byte) → Option (Bool × List Byte)
  | [] => none
  | [a] => some a
  | a :: b :: _ => if slotCount a.2 < slotCount b.2 then some b else some a

/-- GSEQ values, newest first (R171). -/
def newestFirst : Nat → List (BitVec 16) → List (BitVec 16)
  | 0, _ => []
  | n + 1, l => match newestSeq l with
    | none => []
    | some g => g :: newestFirst n (l.filter (· ≠ g))

/-- The slot of a member that carries a GSEQ. -/
def slotWith (g : BitVec 16) (l : List (Bool × List Byte)) : Option Bool :=
  (higherCount (l.filter (fun e => slotGseq e.2 == g))).map (·.1)

/-- The GSEQ of the newest image that every member carries (R171, R173). -/
def commonGseq (ms : List (List (Bool × List Byte))) : Option (BitVec 16) :=
  let seqs := dedup (ms.flatMap (fun l => l.map (fun e => slotGseq e.2)))
  (newestFirst seqs.length seqs).find? (fun g => ms.all (fun l => (slotWith g l).isSome))

/-- A slot holds what an interrupted store left: it is not erased throughout and not valid (R164, R168). -/
def slotTorn (bs : List Byte) : Bool := bs.any (· != 0xFF) && !slotValid bs

def pageTorn (f : Firn) (p : Nat) : Bool := slotTorn (slotBytes f p false) || slotTorn (slotBytes f p true)

/-- A valid slot of a member is newer than the image taken (R171, R189). -/
def passedOver (g : Option (BitVec 16)) (l : List (Bool × List Byte)) : Bool :=
  l.any (fun e => match g with | some g => newer16 (slotGseq e.2) g | none => true)

/-- What the restore finds of a store key: the slots taken, the newest GSEQ seen, torn pages, and loss. -/
structure KeyRead where
  taken : List (Nat × Bool)
  newest : Option (BitVec 16)
  torn : Nat
  lost : Bool
  deriving DecidableEq, Repr

def readKey (f : Firn) (k : Nat) : KeyRead :=
  if isGroupKey k then
    let ps := keyPages k
    let ms := ps.map (fun p => (p, countingSlots f p))
    let g := commonGseq (ms.map (·.2))
    { taken := match g with
        | some g => ms.filterMap (fun m => (slotWith g m.2).map (fun b => (m.1, b)))
        | none => [],
      newest := newestSeq (ms.flatMap (fun m => m.2.map (fun e => slotGseq e.2))),
      torn := (ms.filter (fun m => pageTorn f m.1 || passedOver g m.2)).length,
      lost := g.isNone }
  else
    let l := higherCount (countingSlots f k)
    { taken := (l.map (fun e => (k, e.1))).toList, newest := none, torn := bitN (pageTorn f k), lost := l.isNone }

/-- The restore of the array: slots in use, GSEQs, TORN, LOST and WEAR (R167, R171, R173, R188, R189). -/
def restoreSlots (f : Firn) : Firn :=
  let keys := dedup ((writtenPages f).map storeKey)
  let rs : List (Nat × KeyRead) := keys.map (fun k => (k, readKey f k))
  let torn := (rs.map (fun (r : Nat × KeyRead) => r.2.torn)).sum
  let f := { f with
    slots := rs.flatMap (fun (r : Nat × KeyRead) => r.2.taken),
    gseq := rs.filterMap (fun (r : Nat × KeyRead) => r.2.newest.map (fun g => (r.1, g))),
    torn := decide (0 < torn), tornPages := BitVec.ofNat 16 (min torn 0xFFFF), lostSeen := rs.any (fun (r : Nat × KeyRead) => r.2.lost) }
  { f with wear := f.slots.any (fun e => decide (1800000 ≤ pageCount f e.1)) }

/-! ### Pages -/

/-- The image of n pages from page p, zeros where a page is lost. -/
def groupImage (f : Firn) (p n : Nat) : List Byte := (List.range n).flatMap (fun k => padTo 64 (storedData f (p + k)))

/-- Word j of n bytes of a list that starts at an offset. -/
def wordAt (bs : List Byte) (off n j : Nat) : Nat := leAt bs (off + n * j) n

/-- Lifecycle state and counter at start-up, and the fuses burnt (R418, R419). With the RETIRED fuse burnt and the record lost the
counter reads 0xFFFFFFFF (assumption log row 31). -/
def lifecycleAtStart (f : Firn) (k : Security) : Security :=
  let bs := storedData f 0
  let good := !pageLost f 0 && pairOk 1 bs 0 && pairOk 4 bs 4 && decide (leAt bs 0 1 ≤ 3)
  let st : Lifecycle := match leAt bs 0 1 with | 0 => .factory | 1 => .opened | 2 => .sealed | _ => .retired
  let breaks : Word := BitVec.ofNat 32 (leAt bs 4 4)
  let p1 := storedData f 1
  let k := if good then
      { k with sealBreaks := breaks, transition := stampOf ((bs.drop 12).take 12),
               unseals := ((List.range 4).map (fun j => (BitVec.ofNat 32 (leAt p1 (16 * j) 4), BitVec.ofNat 48 (leAt p1 (16 * j + 4) 6)))).filter
                 (fun e => decide (e.1 ≠ 0)) }
    else { k with sealBreaks := if k.fuseOpened || k.fuseRetired then 0xFFFFFFFF else 0, transition := .zero, unseals := [] }
  let st : Lifecycle :=
    if k.fuseRetired then .retired
    else if good then (if decide (st = .factory) && k.fuseOpened then .sealed else st)
    else if k.fuseOpened then .sealed else .factory
  { k with state := st, fuseRetired := k.fuseRetired || decide (st = .retired),
           fuseOpened := k.fuseOpened || (good && (decide (st = .opened) || decide (st = .sealed))),
           lock := decide (st = .sealed) || decide (st = .retired) }

/-- The totals of the accumulator set (R82). -/
def restoreTotals (f : Firn) (c : Nat) : Totals := totalsOf (groupImage f (2 + 2 * c) 2)

/-- A calibration record, if it passes (R125, R128). -/
def recAt (bs : List Byte) (off : Nat) : Option CalRec :=
  if pairOk 3 bs off && pairOk 2 bs (off + 6) && pairOk 3 bs (off + 10) && coefOk 0 (leAt bs off 3) && coefOk 1 (leAt bs (off + 6) 2) then
    some { gain := BitVec.ofNat 24 (leAt bs off 3), phase := BitVec.ofNat 16 (leAt bs (off + 6) 2), offset := BitVec.ofNat 24 (leAt bs (off + 10) 3) }
  else none

/-- A 4-byte value whose pair passes. -/
def pairWord (bs : List Byte) (off : Nat) : Option Word := if pairOk 4 bs off then some (BitVec.ofNat 32 (leAt bs off 4)) else none

/-- The log entry of a header whose CAL_CNT pair passes (R127). -/
def headerEntry (bs : List Byte) : Option LogEntry :=
  if pairOk 4 bs 0 && decide (leAt bs 12 1 ≠ 0) then some (entryOf ((bs.drop 8).take 32)) else none

/-- CAL_CNT over the headers that pass (R128). -/
def headerCnt (bs : List Byte) : Nat := if pairOk 4 bs 0 then leAt bs 0 4 else 0

def restoreCal (f : Firn) : Cal :=
  let i := storedData f 59
  let v := storedData f 66
  let t := storedData f 69
  { Cal.reset with
    cnt := BitVec.ofNat 32 (max (headerCnt i) (max (headerCnt v) (headerCnt t))),
    trimLim := (pairWord t 40).getD 2000, lastI := headerEntry i, lastV := headerEntry v, lastT := headerEntry t }

/-- A Tracer at start-up: TRIM and reference from CAL_T, both or neither (R128), configuration from CONF3. -/
def restoreTracer (f : Firn) (p : Nat) (t : Tracer) : Tracer :=
  let ct := groupImage f 69 7
  let c3 := groupImage f 100 8
  let t := if pageLost f 100 then t else { t with cfg := BitVec.ofNat 32 (wordAt c3 248 4 p), rsNom := BitVec.ofNat 32 (wordAt c3 344 4 p) }
  match pairWord ct (64 + 8 * p), pairWord ct (256 + 8 * p) with
  | some trim, some ref => { t with trim := trim, ref := ref, refValid := true }
  | _, _ => { t with trim := 0x40000000, ref := 0, refValid := false }

/-- A port at start-up (R19, R29, R35, R128). -/
def restorePort (f : Firn) (p : Nat) : Port :=
  let r := Port.reset p
  let c0 := groupImage f 76 8
  let cfg : Word := if pageLost f 76 then r.cfg else BitVec.ofNat 32 (wordAt c0 96 4 p)
  let m := storedData f (52 + p / 8)
  let ml := pageLost f (52 + p / 8)
  let g : Word := if ml then r.gUse else BitVec.ofNat 32 (leAt m (8 * (p % 8)) 4)
  let d : Word := if ml then r.dUse else BitVec.ofNat 32 (leAt m (8 * (p % 8) + 4) 4)
  let rec_ := recAt (groupImage f 59 7) (64 + 16 * p)
  tracerStart { r with
    cfgW := cfg, cfg := cfg, gUse := g, gCalc := g, dUse := d, dCalc := d, mstate := if ml then .acquire else .hold,
    cal := rec_.getD .reset, shadow := withComplement (rec_.getD .reset), uncal := rec_.isNone,
    tracer := restoreTracer f p r.tracer }

/-- A voltage input at start-up (R128). -/
def restoreVolt (f : Firn) (v : Nat) : Volt :=
  let rec_ := recAt (groupImage f 66 3) (64 + 16 * v)
  { Volt.reset with cal := rec_.getD .reset, calPq := rec_.getD .reset, shadow := withComplement (rec_.getD .reset), uncal := rec_.isNone }

/-- A voltage set at start-up. -/
def restoreSet (f : Firn) (b : Nat) : PqSet :=
  let c3 := groupImage f 100 8
  let q := PqSet.reset
  let q := if pageLost f 100 then q
    else
      let w : Nat → Word := fun k => BitVec.ofNat 32 (leAt c3 (12 * b + 4 * k) 4)
      { q with cfgW := w 0, cfg := w 0, udinW := w 1, udin := w 1, evtW := w 2, evt := w 2 }
  { q with aggs := Vector.replicate 3 (Aggregate.fresh stPartial) }

/-- A circuit at start-up: configuration, totals, and a detector that starts anew (R49, R54, R68, R82, R417); its first cycle carries the flags
of the changes taken since the last close of the run before (R69, R142). -/
def restoreCircuit (f : Firn) (retired : Bool) (volts : Vector Volt 8) (sets : Vector PqSet 2) (c : Nat) : Circuit :=
  let r := Circuit.reset c
  let c0 := groupImage f 76 8
  let c1 := groupImage f 84 8
  let c2 := groupImage f 92 8
  let cfg : Word := if pageLost f 76 then r.cfg else BitVec.ofNat 32 (wordAt c0 0 4 c)
  let r := { r with cfgW := cfg, cfg := cfg, totals := restoreTotals f c, stopped := retired,
                    next := { vget f.startNext c NextFlags.reset with isPartial := true } }
  let r := if pageLost f 84 then r
    else
      let q : Word := BitVec.ofNat 32 (leAt c1 (18 * c) 4)
      let p : BitVec 48 := BitVec.ofNat 48 (leAt c1 (18 * c + 4) 6)
      let k : BitVec 64 := BitVec.ofNat 64 (leAt c1 (18 * c + 10) 8)
      { r with quantumW := q, quantum := q, pfsW := p, pfs := p, keW := k, ke := k }
  let r := if pageLost f 92 then r
    else
      let z : Byte := BitVec.ofNat 8 (leAt c2 (13 * c) 1)
      let nl : NoLoad := { p := BitVec.ofNat 32 (leAt c2 (13 * c + 1) 4), q := BitVec.ofNat 32 (leAt c2 (13 * c + 5) 4),
                           s := BitVec.ofNat 32 (leAt c2 (13 * c + 9) 4) }
      { r with zcToW := z, zcTo := z, nlW := nl, nl := nl }
  let nomf := vsNomf (sets[Fin.ofNat 2 (cirSet cfg)]).cfg
  { r with nomf := nomf, tune := if nomf then 60 else 50,
           vcal := Vector.ofFn (fun j => (volts[Fin.ofNat 8 (4 * cirSet cfg + j.val)]).cal) }

/-- A CF output at start-up, and whether its CF_ACC was cleared for differing CYCLES (R186). -/
def restoreCf (f : Firn) (circuits : Vector Circuit 24) (o : Nat) : CfOut × Bool :=
  let r := CfOut.reset
  let c0 := groupImage f 76 8
  let r := if pageLost f 76 then r
    else
      let w : Word := BitVec.ofNat 32 (wordAt c0 192 4 o)
      let q : BitVec 64 := BitVec.ofNat 64 (wordAt c0 224 8 o)
      { r with cfgW := w, cfg := w, qppW := q, qpp := q, level := cfIdle w }
  if pageLost f 50 then (r, false)
  else
    let a := groupImage f 50 2
    let cyc := match cfCir r.cfg with | some c => (circuits[c]).totals.cycles.toNat | none => 0
    if wordAt a 96 4 o ≠ (cfCheck r).toNat then (r, false)
    else if wordAt a 64 4 o ≠ cyc then (r, true)
    else ({ r with acc := wordAt a 0 8 o }, false)

/-- The records kept of power quality, newest first, marked RECOVERED (R120). -/
def restoreEvents (f : Firn) : List EventRec :=
  let bs := groupImage f 55 4
  (((List.range 8).map (fun k => eventOf ((bs.drop (32 * k)).take 32))).filter (fun r => decide (r.typ ≠ 0))).map
    (fun r => { r with flags := r.flags ||| 8 })

def restorePq (f : Firn) : PqUnit :=
  let p := PqUnit.reset
  let c3 := groupImage f 100 8
  let evs := restoreEvents f
  let p := { p with latest := evs, restored := evs.reverse, evSeq := match evs with | r :: _ => r.seq + 1 | [] => 0,
                    flicker := p.flicker.map (fun (k : Flicker) => { k with settleLeft := 1920000, gather := stPartial }) }
  if pageLost f 100 then p
  else
    let fe : Vector Word 32 := Vector.ofFn (fun k => BitVec.ofNat 32 (wordAt c3 24 4 k.val))
    let il : Vector Word 24 := Vector.ofFn (fun k => BitVec.ofNat 32 (wordAt c3 152 4 k.val))
    { p with chFeW := fe, chFe := fe, ilW := il, il := il }

/-- CONF2's part for the aux converter. -/
def restoreAux (f : Firn) : Aux :=
  let c2 := groupImage f 92 8
  if pageLost f 92 then Aux.reset
  else
    { Aux.reset with
      inputs := Vector.ofFn (fun i => { AuxInput.reset with
        low := BitVec.ofNat 16 (leAt c2 (344 + 4 * i.val) 2), high := BitVec.ofNat 16 (leAt c2 (346 + 4 * i.val) 2),
        en := bitB (leAt c2 408 2) i.val }),
      regular := (c2.drop 411).take (min (leAt c2 410 1) 16), regPeriod := BitVec.ofNat 32 (leAt c2 427 4),
      injected := (c2.drop 432).take (min (leAt c2 431 1) 16), injPeriod := BitVec.ofNat 32 (leAt c2 448 4),
      lowPower := bitB (leAt c2 452 1) 0 }

def restoreS0 (f : Firn) (i : Nat) : S0In :=
  let c2 := groupImage f 92 8
  let w := wordAt c2 312 4 i
  let r := { S0In.reset with total := BitVec.ofNat 64 (wordAt (storedData f 421) 0 8 i) }
  if pageLost f 92 then r else { r with en := bitB w 0, debounce := BitVec.ofNat 16 (bitsN w 31 16) }

/-- The clock registers that the CLOCKS page gives where PD_AO was reset (R205), TCOMP, the thermistor table, and the open billing
interval (R223): PFAIL is set, and MISSED stands for one further interval (assumption log row 32). -/
def restoreClocks (f : Firn) (aoReset : Bool) (k : Clocks) : Clocks :=
  let pg := storedData f 109
  let k := if aoReset && !pageLost f 109 then
      { k with ltrim := BitVec.ofNat 32 (leAt pg 0 4), cfg := BitVec.ofNat 32 (leAt pg 4 4), slewCfg := BitVec.ofNat 32 (leAt pg 8 4),
               billCfgW := BitVec.ofNat 32 (leAt pg 12 4), base := BitVec.ofNat 64 (leAt pg 16 8) }
    else k
  let bo := storedData f 426
  let k := if pageLost f 426 then k
    else
      { k with billIsOpen := true, billSeq := BitVec.ofNat 32 (leAt bo 0 4), billStart := BitVec.ofNat 48 (leAt bo 4 6),
               billFlags := BitVec.ofNat 16 (leAt bo 10 2), billExtra := bitN (bitB (leAt bo 10 2) 5) }
  { k with tcomp := if pageLost f 108 then [] else storedData f 108, tcTable := if pageLost f 425 then [] else storedData f 425,
           billCfg := k.billCfgW, tcFallback := clkTcSrc k.cfg, chgOn := chargerStart k.cfg k.vbakMv,
           ctheta := if pageLost f 108 then 0 else k.ctheta }

/-- The ring's stored part: address, port asymmetries, head configuration, balance groups, and the mirror, whose entries give the
roster (R232, R262, R263, R273, R274, R279). -/
def restoreRing (f : Firn) (head : Bool) : Ring :=
  let pg := storedData f 111
  let mir : Memory := memPuts 0 [] 0 ((List.range 61).flatMap (fun a => groupImage f (177 + 4 * a) 4))
  let asym : Nat → LinkPort := fun off => { LinkPort.reset with asym := BitVec.ofNat 32 (leAt pg off 4), asymNow := BitVec.ofNat 32 (leAt pg off 4) }
  let entry : Fin 61 → RosterEntry := fun a =>
    let e := memSlice 0 mir (256 * a.val) 32
    if head && decide (leAt e 0 8 ≠ 0) then
      { RosterEntry.reset with st := .absent, uid := BitVec.ofNat 64 (leAt e 0 8), up := BitVec.ofNat 6 (leAt e 9 1),
                               down := BitVec.ofNat 6 (leAt e 10 1) }
    else RosterEntry.reset
  { Ring.reset with
    isHead := head, addr := if head then 1 else BitVec.ofNat 6 (leAt pg 0 1), portA := asym 4, portB := asym 8,
    hcfg := BitVec.ofNat 32 (leAt (storedData f 427) 0 4), roster := Vector.ofFn entry, mirror := mir,
    groups := Vector.ofFn (fun k => { BalGroup.reset with desc := if pageLost f (493 + k.val) then [] else storedData f (493 + k.val) }) }

/-- The epoch of a start of the head (R227). -/
def startEpoch (f : Firn) : BitVec 4 := BitVec.ofNat 4 (leAt (storedData f 111) 1 1 + 1)

/-- The free count's seed from the service clock, in whole multiples of 31,250 ns (R462). -/
def seedNs (count : BitVec 48) : Nat :=
  secondsOf count * 1000000000 + count.toNat % 32768 * 30517578 / 1000 / 31250 * 31250

/-- Ring time at start-up: the free count; on the head it is ring time, in the epoch of this start (R227, R462). -/
def restoreTime (f : Firn) (head : Bool) (service : BitVec 48) : Time :=
  { Time.reset with rt := seedNs service * nsUnits, inUse := head, epoch := if head then startEpoch f else 0 }

/-- A node at start-up (R352). -/
def restoreNode (f : Firn) (i : Nat) : Node :=
  let e := ((storedData f (114 + i / 4)).drop (16 * (i % 4))).take 16
  match leAt e 8 1 with
  | 0 => Node.reset
  | 1 => { Node.reset with st := 1, id := BitVec.ofNat 64 (leAt e 0 8), phase := BitVec.ofNat 2 (leAt e 9 1) }
  | _ => { Node.reset with st := 2, id := BitVec.ofNat 64 (leAt e 0 8), phase := BitVec.ofNat 2 (leAt e 9 1) }

def restorePlc (f : Firn) : Plc :=
  let h := storedData f 113
  let p := { Plc.reset with base := BitVec.ofNat 4 (leAt h 8 1), nodes := Vector.ofFn (fun i => restoreNode f i.val) }
  if pageLost f 113 then p else takePlcCfg (h.take 8) p

/-- A band's LUT as stored; unloaded where a page is lost or the CRC differs (R375). -/
def restoreLut (f : Firn) (b : Nat) : Option (List Byte) :=
  let bs := (groupImage f (440 + 6 * b) 6)
  if pageLost f 439 || (List.range 6).any (fun k => pageLost f (440 + 6 * b + k)) || decide ((crc32 bs).toNat ≠ leAt (storedData f 439) (8 + 4 * b) 4) then none
  else some bs

/-- The display controller at start-up: its configuration, LUTs, record and legal items (R375, R382, R392). -/
def restoreDisp (f : Firn) : Display :=
  let dir := storedData f 439
  let un := (groupImage f 488 5).take 300
  let unOk := !pageLost f 439 && (List.range 5).all (fun k => !pageLost f (488 + k)) && decide ((crc32 un).toNat = leAt dir 40 4)
  let d := { Display.reset with
    luts := Vector.ofFn (fun b => restoreLut f b.val), unif := if unOk then memPuts 0 [] 0 un else [],
    record := if pageLost f 110 then [] else storedData f 110, legalMask := BitVec.ofNat 32 (leAt (storedData f 438) 0 4) }
  let d := if pageLost f 439 then d else takeDispCfg (dir.take 8) d
  { d with checkPend := decide (d.mode = 1), stripDue := decide (d.legalMask ≠ 0) }

def restoreCdc (f : Firn) : Cdc :=
  let pg := storedData f 422
  { Cdc.reset with
    stalls := Vector.ofFn (fun k => BitVec.ofNat 16 (leAt pg (4 + 2 * k.val) 2)), drops := Vector.ofFn (fun k => BitVec.ofNat 16 (leAt pg (28 + 2 * k.val) 2)),
    last := stampOf ((pg.drop 52).take 12) }

/-- PTIME (R465), the run log (R185) and LOW_KETTLE (R182). -/
def restoreFirn (f : Firn) (kettleLow : Bool) : Firn :=
  let pt := storedData f 424
  let w : Nat → Word := fun k => BitVec.ofNat 32 (leAt pt (4 * k) 4)
  let log := storedData f 112
  { f with ptCkpt := w 0, ptMatch := w 1, ptTrace := w 2, ptScrub := w 3, scrubPage := BitVec.ofNat 16 (leAt pt 16 2 % 3072),
           runLog := log, unclean := !pageLost f 112 && decide (leAt log 4 1 = 1), lowKettle := f.save.lowKettleAo,
           charge := if kettleLow then some [] else none, pump := true, runLogOwed := true }

/-! ### What stays without supply -/

/-- PD_AO is reset (R202, R204, R205): both clocks, the alarms, the clock registers and the host port's registers. -/
def pdAoReset (s : State) : State :=
  { s with
    clk := { Clocks.reset with crystalRuns := false },
    hw := HwRegs.reset,
    sec := { s.sec with state := .factory, sealBreaks := 0, lock := false },
    firn := { s.firn with save := { s.firn.save with lowKettleAo := false } },
    power := { s.power with aoReset := true, pwrWake := false } }

/-- The clocks with the core off: counts, trims, alarms and status stand; following, charging and billing stop (R201, R203, R223). -/
def clocksAlone (k : Clocks) : Clocks :=
  { k with slewing := false, chgOn := false, ofs := 0, skipSample := false, slewTotal := 0,
           slewTick := 0, slewHeld := 0, billSeq := 0, billStart := 0, billFlags := 0, billIsOpen := false, billExtra := 0,
           boundaryDue := false, boundary := none, records := [], 
           legal := { k.legal with write := none }, service := { k.service with write := none } }

/-- The host port's registers with the core off (R285, R287, R408). -/
def hwAlone (h : HwRegs) : HwRegs :=
  { HwRegs.reset with
    frozen := h.frozen, crcErr := h.crcErr, winViol := h.winViol, dbErr := h.dbErr, notAvail := h.notAvail, winExpired := h.winExpired,
    crcCnt := h.crcCnt, rspStalls := h.rspStalls, irq := h.irq, irqEn := h.irqEn, bank := h.bank, hmiso := h.hmiso }

/-- The firmware banks keep their images without supply. -/
def mpAlone (m : Mp) : Mp := { m with swapTag := none, swapFires := 0, halted := false, events := 0 }

/-- Every domain but PD_AO loses its supply (R408, R410, R425, R429). What stays: PD_AO, the array with the flags of each
circuit's next cycle (assumption log row 66), fuses and key, firmware banks. -/
def coreLost (s : State) : State :=
  let s := voidNonces (dropDebug s)
  { State.reset with
    pending := s.pending, fresh := s.fresh, power := s.power, sec := s.sec, mp := mpAlone s.mp, hw := hwAlone s.hw,
    firn := { Firn.reset with arr := s.firn.arr, save := { s.firn.save with saving := false }, startNext := s.firn.startNext }, clk := clocksAlone s.clk }

/-! ### Start-up -/

/-- Every register that the loader restores, over a core that comes out of reset. -/
def restoreRegs (head kettleLow : Bool) (s : State) : State :=
  let f := restoreFirn (restoreSlots s.firn) kettleLow
  let sec := lifecycleAtStart f s.sec
  let volts : Vector Volt 8 := Vector.ofFn (fun v => restoreVolt f v.val)
  let sets : Vector PqSet 2 := Vector.ofFn (fun b => restoreSet f b.val)
  let cirs : Vector Circuit 24 := Vector.ofFn (fun c => restoreCircuit f (decide (sec.state = .retired)) volts sets c.val)
  let cfs : Vector (CfOut × Bool) 8 := Vector.ofFn (fun o => restoreCf f cirs o.val)
  let bank := bitB (leAt (storedData f 423) 0 1) 0
  { s with
    firn := { f with torn := f.torn || cfs.toList.any (·.2), startNext := Firn.reset.startNext },
    sec := sec, mp := { s.mp with fwState := bank }, hw := { s.hw with bank := bank },
    ports := Vector.ofFn (fun p => restorePort f p.val), volts := volts, cal := restoreCal f, circuits := cirs,
    cfs := cfs.map (fun (e : CfOut × Bool) => e.1), pqSets := sets, pq := restorePq f, clk := restoreClocks f s.power.aoReset s.clk,
    time := restoreTime f head s.clk.service.count, ring := restoreRing f head, plc := restorePlc f, aux := restoreAux f,
    s0 := Vector.ofFn (fun i => restoreS0 f i.val), disp := restoreDisp f, cdc := restoreCdc f }

/-- After the restore no page is dirty but CLOCKS, where its registers differ from the page (R161, R205). -/
def latchRestored (s : State) : State :=
  s.modFirn (fun f => latchPages ((List.range 512).map (fun p =>
    (p, if p = 109 ∧ !pageLost f 109 then storedData f 109 else encodePage p s))) f)

/-- VSUP valid: start-up up to the end of the loader (R410, R415). PD_AO goes back to VSUP on the
next tick; one without supply is on VSUP at once (R201). The open billing interval takes PFAIL (R223). -/
def startUp (leanN head kettleLow : Bool) (s : State) : State :=
  let s := if s.power.state = .off then pdAoReset s else s
  let s := restoreRegs head kettleLow (coreLost s)
  let s := latchRestored s
  let s := s.modClk (fun k => if k.billIsOpen then { k with billFlags := k.billFlags ||| 8 } else k)
  (s.modHw (fun h => { h with frozen := false })).modPower (fun p => { p with
    state := if leanN then .run else .lean, vsupValid := true, vsupHeld := true, resetN := true, leanN := leanN, leanPend := none,
    supply := if p.supply = .none then .vsup else p.supply, vsupDue := decide (p.supply ≠ .none), pwrWake := false, aoReset := false })

end Sys2Proof.Machine
end

