-- ==== Sys2Proof/Machine/PowerEvents.lean ====
section
/-! DEFINITION. Events of the supplies and of the power states (R179 to R185, R201 to R203, R408 to R416). -/

namespace Sys2Proof.Machine

/-! ### Power fail -/

/-- HOLD: every domain but PD_AO is without supply (R201, R410). -/
def enterHold (s : State) : State :=
  (coreLost s).modPower (fun p => { p with
    state := .hold, vsupValid := false, leanPend := none, supply := if p.vsupHeld then .vsup else .vbak })

/-- HOLD is entered once VSUP valid has ended and no save runs (R410). -/
def holdIfSaved (s : State) : State :=
  if s.firnOn && !s.power.vsupValid && !s.firn.save.saving then enterHold s else s

/-- EARLY_WARNING (R179): it does not end VSUP valid; VMON has fallen again, should it have risen meanwhile (R184). `dt` is the time in ns from the present sample to the trigger instant, `kettle`
the KETTLE voltage in mV then. -/
def execEarlyWarning (dt : Nat) (kettle : BitVec 16) (s : State) : Host.Outcome State Fault Refusal :=
  .next (if s.coreOn then (powerFail 1 dt kettle s).modFirn (fun f => { f with save := { f.save with resumeDue := false } }) else s)

/-- BROWN_OUT (R179, R201, R203, R409): VSUP valid ends, and VSUP no longer supplies PD_AO and the charger. -/
def execBrownOut (dt : Nat) (kettle : BitVec 16) (s : State) : Host.Outcome State Fault Refusal :=
  .next (if s.firnOn then
      let s := s.modClk (fun k => { k with chgOn := false })
      holdIfSaved ((if s.coreOn then powerFail 2 dt kettle s else s).modPower (fun p => { p with vsupValid := false, vsupHeld := false, vsupDue := false }))
    else if s.power.state = .hold then s.modPower (fun p => { p with vsupHeld := false, supply := .vbak })
    else s)

/-- RESET_N_LOW (R179, R414): VSUP valid ends; PD_AO stays on VSUP. -/
def execResetNLow (dt : Nat) (kettle : BitVec 16) (s : State) : Host.Outcome State Fault Refusal :=
  .next (if s.firnOn then
      holdIfSaved ((if s.coreOn then powerFail 3 dt kettle s else s).modPower (fun p => { p with vsupValid := false, resetN := false }))
    else s.modPower (fun p => { p with resetN := false }))

/-- The page stores in progress stop where they stand, each `us` µs after its start (R164, R168, R182). -/
def cutStores (us : List Nat) (s : State) : State :=
  let busy := s.firn.reqs.flatMap (fun r => r.members.filter (fun m => decide (m.st = .busy)))
  s.forEach (busy.zipIdx) (fun e s =>
    let d := s.draw
    d.2.modFirn (fun f => writeSlot e.1.page e.1.slot
      (cutSlot d.1 (us.getD e.2 0) (memberImage f e.1) (slotBytes f e.1.page e.1.slot)) f))

/-- KETTLE_COLLAPSE (R168, R182, R201): KETTLE below 2.70 V during the sequence; PD_FIRN has no supply left. A save that still had pages to
start abandons them (R182). -/
def execKettleCollapse (us : List Nat) (s : State) : Host.Outcome State Fault Refusal :=
  .next (if s.firnOn && decide (s.power.supply = .kettle) then
      let open_ := s.firn.save.saving && !s.firn.reqs.any (fun r => decide (r.rank = 1) && r.members.any (fun m => decide (m.page = 112)))
      let s := (cutStores us s).modFirn (fun f => { f with
        reqs := [], save := { f.save with saving := false, lowKettleAo := f.save.lowKettleAo || open_ } })
      holdIfSaved (s.modPower (fun p => { p with supply := if p.vsupHeld then .vsup else .vbak }))
    else s)

/-- A set's windows and aggregates start anew (R96, R112). -/
def restartSet (q : PqSet) : PqSet :=
  { restartDetect q with firstWin := true, freqMark := 0, aggs := Vector.replicate 3 (Aggregate.fresh stPartial) }

/-- The wideband results start anew: the windows that are cut do not count (R121, R123). -/
def restartWide (p : PqUnit) : PqUnit :=
  { p with supraOpen := Vector.replicate 2 .empty, wbGap := true, supraLast := 0, wbWin := Vector.replicate 2 [], noiseBlk := Vector.replicate 2 [],
           noiseSums := Vector.replicate 16 .empty, noiseBad := true }

/-- Metrology goes on after a power-fail sequence (R68, R90, R184). -/
def resumeMetering (s : State) : State :=
  let s := s.forEach (fins 24) (fun c s => s.modCir c (fun r => if cirEn r.cfg && !r.stopped then restartCircuit r else r))
  let s := { s with pqSets := s.pqSets.map restartSet }
  s.modPq (fun p => restartWide { p with
    flicker := p.flicker.map (fun (k : Flicker) => { settleFlicker k with psts := [], classes := [], boundary := none }) })

/-- The stores that a start-up owes: RUN_LOG (R185) and, on the head, its epoch (R227). -/
def startStores (s : State) : State :=
  let s := if s.firn.runLogOwed then openStore .runLogStart none (s.modFirn (fun f => { f with runLogOwed := false })) else s
  if s.ring.isHead && !s.time.startStored && !s.time.startWorn && !s.firn.reqs.any (fun r => decide (r.change = .epochStart)) then
    openStore .epochStart none s
  else s

/-- The device resumes: VSUP has stayed valid, VMON is above 1.230 V and the save has ended (R184). The pump restarts, waiting requests go on,
and a run whose start-up stores have not been requested requests them. -/
def resumeRun (s : State) : State :=
  let s := (s.modHw (fun h => { h with frozen := false })).modPower (fun p => { p with supply := .vsup })
  let s := s.modFirn (fun f => { f with pump := true, save := { f.save with resumeDue := false } })
  let s := s.modDisp (fun d => if d.mode = 2 then { d with dpwrEn := true, st := dIdle } else d)
  let s := kick (considerAll (resumeMetering s))
  if s.hw.loaded then startStores s else s

/-- RESUME (R184): VMON rises above 1.230 V; a save that still runs completes first. -/
def execResume (s : State) : Host.Outcome State Fault Refusal :=
  .next (if s.coreOn && s.hw.frozen then
      if s.firn.save.saving then s.modFirn (fun f => { f with save := { f.save with resumeDue := true } }) else resumeRun s
    else s)

/-- SAVE_COMPLETE (R180 to R182, R184, R201): the RUN_LOG store ends, and the save with it. -/
def execSaveComplete (verified again : Bool) (s : State) : Host.Outcome State Fault Refusal :=
  .next (if s.firn.save.saving then
      let s := endRunLog verified again s
      if saveEnded s then
        let s := completeSave s
        let s := holdIfSaved (s.modPower (fun p => { p with supply := if p.vsupHeld then .vsup else .vbak }))
        if s.coreOn && s.hw.frozen && s.firn.save.resumeDue then resumeRun s else s
      else s
    else s)

/-! ### Start-up -/

/-- VSUP_VALID (R409, R410, R415): from HOLD or OFF; the loader restores the critical region. `kettleLow` says that KETTLE reads at
most 1.0 V (R175). -/
def execVsupValid (leanN ringHead kettleLow : Bool) (s : State) : Host.Outcome State Fault Refusal :=
  .next (if s.firnOn then s else startUp leanN ringHead kettleLow s)

/-- Both latches take the restored image, without a new sequence number (R80). -/
def loadLatches (s : State) : State :=
  { s with energy := { s.energy with hostLatch := { image := some s.totalsImage, seq := 0 }, mpLatch := { image := some s.totalsImage, seq := 0 } } }

/-- LOADED (R80, R415): metrology starts, and the stores of the start-up are requested: RUN_LOG (R185) and the head's epoch (R227). -/
def execLoaded (s : State) : Host.Outcome State Fault Refusal :=
  .next (if s.coreOn && !s.hw.loaded then
      let s := loadLatches (s.modHw (fun h => { h with loaded := true }))
      let s := s.modTime (fun t => { t with lockRun := 0 })
      let s := { s with ports := s.ports.map (fun (r : Port) => tracerStart r) }
      if s.hw.frozen then s else startStores s
    else s)

/-! ### Power states -/

/-- LEAN_N_CHANGE (R412): a change waits for the end of a firmware swap, and one to LEAN for the end of a display update. -/
def execLeanNChange (level : Bool) (s : State) : Host.Outcome State Fault Refusal :=
  .next (
    let s := s.modPower (fun p => { p with leanN := level })
    if s.coreOn then takeLean (s.modPower (fun p => { p with leanPend := some (!level) })) else s)

/-- WAKE_N (R413). -/
def execWakeN (s : State) : Host.Outcome State Fault Refusal :=
  .next (if s.power.state = .hold then s.modPower (fun p => { p with pwrWake := true }) else s)

/-- PWR_WAKE_TIMEOUT (R413). -/
def execPwrWakeTimeout (s : State) : Host.Outcome State Fault Refusal :=
  .next (if s.power.state = .hold then s.modPower (fun p => { p with pwrWake := false }) else s)

/-- PD_AO_POWER_UP (R202, R410): VBAK rises to 1.80 V with VSUP absent. -/
def execPdAoPowerUp (s : State) : Host.Outcome State Fault Refusal :=
  .next (if s.power.state = .off then (pdAoReset s).modPower (fun p => { p with state := .hold, supply := .vbak }) else s)

/-- PD_AO_SUPPLY_LOST (R410): VBAK can no longer hold PD_AO, and VSUP is absent. -/
def execPdAoSupplyLost (s : State) : Host.Outcome State Fault Refusal :=
  .next (if s.power.state = .hold ∧ s.power.vsupHeld = false then
      s.modPower (fun p => { p with state := .off, supply := .none, pwrWake := false })
    else s)

/-- VBAK_LOW (R202). -/
def execVbakLow (s : State) : Host.Outcome State Fault Refusal :=
  .next (if s.power.state = .off then s else s.modClk (fun k => { k with vbakLow := true }))

/-- CHARGER_THRESHOLD (R203): `mv` is VBAK in mV. -/
def execChargerThreshold (mv : Nat) (s : State) : Host.Outcome State Fault Refusal :=
  .next (if s.coreOn then s.modClk (fun k => { k with chgOn := s.power.vsupHeld && chargerAt k.chgOn k.cfg mv, vbakMv := mv }) else s)

end Sys2Proof.Machine
end

