-- ==== Sys2Proof/Machine/PqEvents.lean ====
section
/-! DEFINITION. Events of power quality (R96, R98, R101, R117, R121, R123): each completes what a sample tick has found. -/

namespace Sys2Proof.Machine

def setOf (b : Bool) : Fin 2 := Fin.ofNat 2 (bitN b)

/-- PQ_HALF_CYCLE (R98, R115, R116): the value that the reference's crossing produced. -/
def execPqHalfCycle (b : Bool) (s : State) : Host.Outcome State Fault Refusal :=
  .next (if s.metering then halfCycle (setOf b) s else s)

/-- TRANSIENT_END (R117). -/
def execTransientEnd (b : Bool) (ch : Fin 3) (s : State) : Host.Outcome State Fault Refusal :=
  .next (if s.metering then endTransient (setOf b) ch s else s)

/-- PQ_WINDOW_CLOSE (R96, R109 to R114). -/
def execPqWindowClose (b : Bool) (s : State) : Host.Outcome State Fault Refusal :=
  .next (if s.metering then windowClose (setOf b) s else s)

/-- FREQ_INTERVAL_END (R101): at an instant whose seconds are a whole multiple of 10. -/
def execFreqIntervalEnd (b : Bool) (s : State) : Host.Outcome State Fault Refusal :=
  .next (if s.metering && vsEn (s.pqSets[setOf b]).cfg && decide (s.gridNs % 10000000000 = 0) then freqEnd (setOf b) false s else s)

/-- SUPRA_WINDOW (R121, R122): at an instant that is a whole multiple of 200 ms. -/
def execSupraWindow (s : State) : Host.Outcome State Fault Refusal :=
  .next (if s.wideOn && decide (s.gridNs % 200000000 = 0) then supraWindow s else s)

/-- NOISE_PUBLISH (R123): at every ring-time second. -/
def execNoisePublish (s : State) : Host.Outcome State Fault Refusal :=
  .next (if s.wideOn && decide (s.gridNs % 1000000000 = 0) then noisePublish s else s)

end Sys2Proof.Machine
end

