-- ==== Sys2Proof/Machine/RingMbox.lean ====
section
/-! DEFINITION. Mailbox traffic, relay, configuration mirror and balance on the ring (R261, R271, R275 to R281, R300 to R303). -/

namespace Sys2Proof.Machine

/-! ### MBOX payloads (R271) -/

def mboxKind (f : RxFrame) : Nat := leAt f.payload 0 1
def mboxOrigin (f : RxFrame) : BitVec 6 := BitVec.ofNat 6 (leAt f.payload 1 1)
def mboxFinal (f : RxFrame) : BitVec 6 := BitVec.ofNat 6 (leAt f.payload 2 1)
def mboxBody (f : RxFrame) : List Byte := f.payload.drop 8

/-- An accepted MBOX frame of a kind whose final destination is this unit. -/
def withMbox (kind : Nat) (f : RxFrame) (s : State) (use : State → State) : State :=
  withFrame tyMbox f s (fun s =>
    if mboxKind f ≠ kind ∨ mboxFinal f ≠ s.ring.addr then s
    else use s)

/-! ### Commands of other units (R300, R302, R303) -/

/-- Ring commands that have not begun. -/
def ringQueued (m : Mailbox) : Nat :=
  ((fins 64).filter (fun t => match m.tags[t] with | some c => !isLocal c && !c.started | none => false)).length

/-- A refusal goes back in a response frame; bulk data that follow are discarded until the next command (R302). -/
def refuseRing (a : BitVec 6) (d : List Byte) (st : Status) (s : State) : State :=
  let s := s.modMb (fun m => { m with discard := if dBulkIn d then a :: m.discard else m.discard })
  sendFrame tyMbox a (mboxPayload 2 a a 0 0 (respBytes d st.code s.unitByte (dTag d) [] 0 0 0)) none s

/-- A command of a ring origin claims a tag, or is refused (R292, R300, R303). -/
def takeRingCommand (a : BitVec 6) (d : List Byte) (s : State) : State :=
  let s := s.modMb (fun m => { m with discard := m.discard.filter (· ≠ a) })
  let o : Origin := .ring a (BitVec.ofNat 8 (dTag d))
  if (dBulk d && !bulkClaimable o s.mb.bulk) || decide (8 ≤ ringQueued s.mb) then refuseRing a d .busy s
  else match claimTag d o false 0 s with
    | none => refuseRing a d .busy s
    | some (t, s') =>
      if s.hw.swapping then refuseRing a d .swapped s
      else if !s.hw.mpReady then refuseRing a d .retry s
      else if dBulk d then setBulk (.claimed t) s' else s'

/-- MBOX_COMMAND_RECEIVED (R271, R300, R302, R303). -/
def execMboxCommandReceived (f : RxFrame) (s : State) : Host.Outcome State Fault Refusal :=
  .next (withMbox 1 f s (takeRingCommand (mboxOrigin f) (padTo 64 (mboxBody f))))

/-- The origin's command that a response answers: the tag, held for another unit, with that unit, opcode and REF (R300, R301). -/
def answersTag (s : State) (r : List Byte) : Option (Fin 64 × Cmd) :=
  if h : leAt r 4 1 < 64 then
    match s.mb.tags[leAt r 4 1] with
    | some c =>
      if c.remote && decide (leAt r 3 1 = dUnit c.desc) && decide (leAt r 0 2 = dOpcode c.desc) && decide (leAt r 6 2 = dRef c.desc) then
        some (⟨leAt r 4 1, h⟩, c)
      else none
    | none => none
  else none

/-- The reply of a push answers the head's command that waits for it (R281). -/
def takePushReply (src : BitVec 6) (r : List Byte) (s : State) : State :=
  if leAt r 0 2 ≠ 0x0908 ∨ leAt r 4 1 ≠ 0xFF then s
  else match s.ring.push.find? (fun e => e.1 == src) with
    | none => s
    | some e =>
      let s := s.modRing (fun k => { k with push := k.push.erase e })
      match e.2.bind (fun t => (s.mb.tags[t]).map (fun c => (t, c))) with
      | some (t, c) =>
        let d := s.draw
        freeTag t (place (respBytes c.desc (leAt r 2 1) d.2.unitByte t.val [] 0 c.yielded.toNat (latencyUs c d.1 s.time.ticks)) d.2)
      | none => s

/-- A unit reports DUP_ADDR to the head in its RING_STATUS response: the unit is revoked where the roster does not hold its UID for its
address (R259, R266). -/
def takeDupReport (r : List Byte) (s : State) : State :=
  let stat := leAt r 16 4
  let uid := BitVec.ofNat 64 (leAt r 32 8)
  if !s.ring.isHead || leAt r 0 2 != 0x0901 || leAt r 2 1 != 0 || !bitB stat 12 then s
  else match rosterIdx (BitVec.ofNat 6 (bitsN stat 5 0)) with
    | some i => if rosterHeld s.ring (rosterAddr i) ∧ (s.ring.roster[i]).uid ≠ uid then sendRevoke i uid s else s
    | none => s

/-- A response is placed in the origin's ring: LATENCY is measured there, and YIELD joins its own bits (R294, R300, R305). -/
def takeResponse (r : List Byte) (s : State) : State :=
  match answersTag s r with
  | none => s
  | some (t, c) =>
    let d := s.draw
    let r := overlay (overlay r 10 (leBytes 1 ((BitVec.ofNat 8 (leAt r 10 1) ||| c.yielded).toNat))) 12 (leBytes 4 (latencyUs c d.1 s.time.ticks))
    freeTag t (place r (bulkAnswered t d.2))

/-- MBOX_RESPONSE_RECEIVED (R281, R300, R301, R305). -/
def execMboxResponseReceived (f : RxFrame) (s : State) : Host.Outcome State Fault Refusal :=
  .next (withMbox 2 f s (fun s =>
    let r := padTo 64 (mboxBody f)
    takeResponse r (takeDupReport r (takePushReply f.src r s))))

/-- Bulk data at their offset in the window (R302). -/
def putBulkAt (ofs : Nat) (bs : List Byte) (s : State) : State :=
  let bs := bs.take (4096 - ofs)
  if bs.isEmpty then s else s.modMb (fun m => { m with win := memPuts 0 m.win (bulkBase + ofs) bs })

/-- The owner of the bulk window. -/
def bulkOwner (m : Mailbox) : Option (Fin 64 × Cmd) :=
  match m.bulk with
  | .claimed t => (m.tags[t]).map (fun c => (t, c))
  | _ => none

/-- Bulk data of an exchange: bulk-out for this unit's own command, or bulk-in of the ring command that owns the window (R302). -/
def takeBulk (a : BitVec 6) (ofs : Nat) (bs : List Byte) (s : State) : State :=
  match bulkOwner s.mb with
  | none => s
  | some (t, c) =>
    if a = s.ring.addr then
      if c.remote && dBulkOut c.desc then putBulkAt ofs bs s else s
    else match c.origin with
      | .ring o _ =>
        if decide (o = a) && !c.started && dBulkIn c.desc && !s.mb.discard.contains a then
          putBulkAt ofs bs (setCmd t (fun c => { c with got := c.got + bs.length }) s)
        else s
      | _ => s

/-- MBOX_BULK_RECEIVED (R302). -/
def execMboxBulkReceived (f : RxFrame) (s : State) : Host.Outcome State Fault Refusal :=
  .next (withMbox 3 f s (takeBulk (mboxOrigin f) (leAt f.payload 4 4) (mboxBody f)))

/-! ### Relay (R261) -/

/-- The ring on which the head reaches an address. -/
def headRing (s : State) (q : BitVec 6) : RingSel :=
  match gapPos s with
  | none => .primary
  | some g => if posOf s q ≤ g then .primary else .secondary

/-- The head re-sends a frame in its own window, with RELAY and SRC = 1. -/
def resend (g : RingSel) (dst : BitVec 6) (f : RxFrame) (s : State) : State :=
  let n := nextSeq f.typ s
  n.2.modRing (fun r => { r with txq := r.txq ++ [{ mkFrame g f.typ dst 1 n.1 f.payload none with relay := true }] })

/-- RELAY (R256, R261): ALIGN is link-local; an MBOX frame for another unit goes to FINAL; a broadcast, under a gap, to the side its sender cannot reach. -/
def execRelay (f : RxFrame) (s : State) : Host.Outcome State Fault Refusal :=
  .next (if !s.coreOn || !s.ring.isHead || !frameGood f then s
    else if f.typ = tyAlign then s
    else if f.dst = broadcast then
      match gapPos s with
      | some g => if f.src = 1 then s else resend (if posOf s f.src ≤ g then .secondary else .primary) broadcast f s
      | none => s
    else if decide (f.typ = tyMbox) && frameForMe s f && !frameSeen s f && decide (mboxFinal f ≠ 1) then
      resend (headRing s (mboxFinal f)) (mboxFinal f) f (noteFrame f (hear f s))
    else s)

/-! ### The configuration mirror (R279 to R281) -/

/-- The head's entry from the two halves of a unit: ADDR, UP, DOWN and VALID are the head's (R279, R280). -/
def headEntry (r : Ring) (i : Fin 61) (c : List Byte) : List Byte :=
  padTo 256 (overlay c 8 (leBytes 1 (rosterAddr i).toNat ++ leBytes 1 (r.roster[i]).up.toNat ++ leBytes 1 (r.roster[i]).down.toNat ++
    leBytes 1 (1 + 2 * bitN (bitB (leAt c 11 1) 1))))

/-- Both halves of a unit's content have reached the head (R280). -/
def takeContent (i : Fin 61) (c : List Byte) (s : State) : State :=
  if mirrorHeld (mirrorEntry s i) then s else openStore (.mirror i (headEntry s.ring i c)) none s

/-- Fields of a pushed entry (R279, R281). -/
def pushNoScale (e : List Byte) (c : Fin 24) : Bool := bitB (leAt e 246 3) c.val
def pushCir (e : List Byte) (c : Fin 24) : Word :=
  let w := BitVec.ofNat 32 (leAt e (32 + 4 * c.val) 4)
  if pushNoScale e c then w &&& 0xFFFFFFFE else w
def pushPort (s : State) (e : List Byte) (p : Fin 24) : Word :=
  BitVec.ofNat 32 (leAt e (128 + 2 * p.val) 2 + 65536 * ((s.ports[p]).cfgW.toNat / 65536))
def pushPair (e : List Byte) (c : Fin 24) : Nat × Nat :=
  let k := bitsN (leAt e 240 6) (2 * c.val + 1) (2 * c.val)
  (leAt e (192 + 12 * k) 4, leAt e (196 + 12 * k) 6)
def pushVset (e : List Byte) : List Word := (List.range 4).map (fun k => BitVec.ofNat 32 (leAt e (176 + 4 * k) 4))

/-- Circuits whose QUANTUM or PFS the entry changes. -/
def pushScales (s : State) (e : List Byte) : List (Fin 24 × Nat × Nat) :=
  ((fins 24).filter (fun c => !pushNoScale e c &&
    decide (pushPair e c ≠ ((s.circuits[c]).quantumW.toNat, (s.circuits[c]).pfsW.toNat)))).map (fun c => (c, pushPair e c))

/-- The entry is valid as one configuration command (R50, R54, R55, R87, R91, R281). -/
def pushOk (s : State) (e : List Byte) : Bool :=
  let scaled : Fin 24 → Nat × Nat := fun c =>
    if pushNoScale e c then ((s.circuits[c]).quantumW.toNat, (s.circuits[c]).pfsW.toNat) else pushPair e c
  cirMapOk ((fins 24).map (pushCir e)) && (fins 24).all (fun p => portCfgOk (pushPort s e p).toNat) &&
    (fins 24).all (fun c =>
      let q := (scaled c).1
      let f := (scaled c).2
      decide (1 ≤ q) && decide (q ≤ 1000000) && decide (1 ≤ f) && rateOk (cirNv (pushCir e c)) f q &&
        cfsFit s c (pushCir e c) (BitVec.ofNat 64 (keOf f q))) &&
    (fins 2).all (fun b => vsetCfgOk ((pushVset e).getD b.val 0).toNat && udinOk ((pushVset e).getD (2 + b.val) 0).toNat)

/-- The MP applies a pushed entry, and its outcome goes to the head (R281). -/
def takePush (e : List Byte) (s : State) : State :=
  if s.sec.state = .sealed then pushReply .sealed s
  else if s.sec.state = .retired then pushReply .denied s
  else if s.hw.frozen then pushReply .retry s
  else if !pushOk s e then pushReply .range s
  else
    let s := s.forEach (pushScales s e) (fun x s => openStore (.cirScaleLog x.1 (BitVec.ofNat 32 x.2.1) (BitVec.ofNat 48 x.2.2)) none s)
    openStore (.mirrorApply ((fins 24).map (fun c => (c, pushCir e c))) ((fins 24).map (fun p => (p, pushPort s e p))) (pushVset e)) none s

/-- A half waits for its other half; with part 1 the content is whole (R272, R280). An entry pushed while the MP is down is answered with
RETRY (R3). -/
def takeHalf (src : BitVec 6) (part : Bool) (body : List Byte) (s : State) : State :=
  let first := s.ring.halves.find? (fun h => decide (h.src = src) && !h.part)
  let s := s.modRing (fun r => { r with halves := r.halves.filter (fun h => decide (h.src ≠ src)) })
  if !part then s.modRing (fun r => { r with halves := r.halves ++ [{ src := src, part := false, body := padTo 128 body }] })
  else match first with
    | none => s
    | some h =>
      let c := h.body ++ padTo 128 body
      if s.ring.isHead then (match rosterIdx src with | some i => takeContent i c s | none => s)
      else if src = 1 then (if s.mpRuns then takePush c s else pushReply .retry s)
      else s

/-- MIRROR_HALF_RECEIVED (R280, R281). -/
def execMirrorHalfReceived (f : RxFrame) (s : State) : Host.Outcome State Fault Refusal :=
  .next (withMbox 4 f s (takeHalf (mboxOrigin f) (decide (leAt f.payload 3 1 = 1)) (mboxBody f)))

/-- MIRROR_SEND (R280). -/
def execMirrorSend (s : State) : Host.Outcome State Fault Refusal :=
  .next (if s.mpRuns && s.time.syncOk && s.ring.mirrorDue && (rosterIdx s.ring.addr).isSome && !s.ring.isHead then
      let s := s.modRing (fun r => { r with mirrorGen := r.mirrorGen + 1, mirrorDue := false })
      let c := mirrorContent (confDigest s) s
      let half : Nat → List Byte → State → State := fun k b s => sendFrame tyMbox 1 (mboxPayload 4 s.ring.addr 1 k 0 b) none s
      half 1 (c.drop 128) (half 0 (c.take 128) s)
    else s)

/-! ### Balance (R275 to R278) -/

/-- BALANCE_INTERVAL_END (R3, R276): each unit reports the interval that has ended; the head forms its own report. The report of a unit
without an address waits for one (counted in DEFERRED); the report of an earlier interval that has not left by then is abandoned. -/
def execBalanceIntervalEnd (s : State) : Host.Outcome State Fault Refusal :=
  .next (match s.ring.balEnded with
    | some i =>
      if !s.coreOn then s
      else if s.ring.isHead then
        s.modRing (fun r => { r with reports := r.reports.filter (fun x => decide (x.unit ≠ 1)) ++
          [{ unit := 1, start := i.start, entries := balEntries s i }] })
      else
        let late := s.ring.txq.filter (fun f => decide (f.typ = tyBalance))
        let s := s.modRing (fun r => { r with txq := r.txq.filter (fun f => decide (f.typ ≠ tyBalance)), balEnded := none,
                                              abandoned := satAdd r.abandoned late.length })
        let s := sendFrame tyBalance 1 (balPayload i.start (balEntries s i)) none s
        if s.ring.addr = 0 then s.modRing (fun r => { r with deferred := satAdd r.deferred 1 }) else s
    | none => s)

/-- A report of the interval that the head has still to compute (R277). -/
def reportFits (s : State) (start : Stamp) : Bool :=
  match s.ring.balEnded with
  | some i => decide (i.start.total = start.total) && decide (i.start.epoch = start.epoch)
  | none => false

/-- BALANCE_RECEIVED (R276, R277). -/
def execBalanceReceived (f : RxFrame) (s : State) : Host.Outcome State Fault Refusal :=
  .next (withFrame tyBalance f s (fun s =>
    if !s.ring.isHead then s
    else
      let start := stampOf (f.payload.take 12)
      if reportFits s start then
        s.modRing (fun r => { r with reports := r.reports.filter (fun x => decide (x.unit ≠ f.src)) ++
          [{ unit := f.src, start := start, entries := balEntriesOf f.payload }] })
      else s))

/-- Every member of every enabled group has reported, or 20 ms have passed since the interval's end (R277). -/
def balanceDue (s : State) (i : BalInterval) : Bool :=
  decide (i.fin + 20000000 ≤ s.gridNs) || (fins 16).all (fun g =>
    let d := (s.ring.groups[g]).desc
    !balEn d || (balMembers d).all (fun m => s.ring.reports.any (fun r => r.unit.toNat == m.1)))

/-- BALANCE_COMPUTE (R277, R278). -/
def execBalanceCompute (s : State) : Host.Outcome State Fault Refusal :=
  .next (match s.ring.balEnded with
    | some i =>
      if s.coreOn && s.ring.isHead && balanceDue s i then
        let res := (fins 16).map (fun g => computeGroup i.start i.gap s.ring.reports g.val s.ring.groups[g])
        let alarms := (res.filter (fun e => e.2)).length
        let s := s.modRing (fun r => { r with groups := Vector.ofFn (fun (g : Fin 16) => (res.getD g.val (r.groups[g], false)).1),
                                              reports := [], balEnded := none, alarmEvents := r.alarmEvents + alarms })
        s.forEach (List.range alarms) (fun _ s => s.postEvent)
      else s
    | none => s)

end Sys2Proof.Machine
end

