-- ==== Sys2Proof/Machine/TimeEvents.lean ====
section
/-! DEFINITION. Events of ring time, steps and the timed outputs (R224 to R248). -/

namespace Sys2Proof.Machine

/-! ### The head's SYNC -/

/-- The SYNC payload (R228). -/
def syncPayload (s : State) : List Byte :=
  (s.stampAt (s.nowMs * 1000000)).bytes ++ leBytes 4 s.time.rate.toNat ++ leBytes 1 (bitN s.time.valid + 2 * bitN s.time.ppsLock) ++ leBytes 3 0

/-- The STEP payload (R239): AT in the old timescale and epoch. -/
def stepPayload (s : State) (p : StepPend) : List Byte :=
  (s.stampAt p.at_).bytes ++ leInt 8 p.delta ++ leBytes 1 p.epoch.toNat ++ leBytes 3 0

/-- STEP goes out at three consecutive SYNC instants (R239). -/
def sendStep (s : State) : State :=
  match s.time.step with
  | some p =>
    if 0 < p.sends then
      (sendFrame tyStep broadcast (stepPayload s p) none s).modTime (fun t => { t with step := some { p with sends := p.sends - 1 } })
    else s
  | none => s

/-- SYNC_SEND (R227, R228, R232, R237): none before the store of the head's start is complete. -/
def execSyncSend (s : State) : Host.Outcome State Fault Refusal :=
  .next (if s.coreOn && s.ring.isHead && s.time.startStored then
      let s := (takeAsym s).modTime (fun t => { t with valid := headValid t, syncOk := true })
      sendStep (sendFrame tySync broadcast (syncPayload s) none s)
    else s)

/-- EPOCH_STORE_RETRY (R227): every 1 s after a failed start store. -/
def execEpochStoreRetry (s : State) : Host.Outcome State Fault Refusal :=
  .next (if s.coreOn && s.ring.isHead && s.time.startWorn && !s.hw.frozen then
      openStore .epochStart none (s.modTime (fun t => { t with startWorn := false }))
    else s)

/-! ### SYNC at the other units -/

/-- A SYNC as received: ORIGIN, and the offset of the unit's ring time from the reference in 2^-16 ns (R230). `dt` is the time in 2^-16 ns
from the present sample to the frame's timestamp point. -/
structure SyncIn where
  origin : Stamp
  off : Int
  rate : Word
  valid : Bool
  dt : Nat

def syncIn (s : State) (r : RingSel) (f : RxFrame) (dt : Nat) : SyncIn :=
  let o := stampOf (f.payload.take 12)
  let ref : Int := (o.total * nsUnits + f.corr.toNat : Nat) + linkDelay (portOf (entryPort r) s.ring)
  { origin := o, off := ((s.time.rt + dt : Nat) : Int) - ref, rate := BitVec.ofNat 32 (leAt f.payload 12 4), valid := bitB (leAt f.payload 16 1) 0, dt := dt }

/-- What every good SYNC brings: the mark VALID, and the offset read by RT_OFFSET, of the last SYNC (R224, R238). -/
def noteSync (x : SyncIn) (t : Time) : Time :=
  { t with valid := x.valid, offset := BitVec.ofInt 32 (clampInt (-2147483648) 2147483647 x.off) }

/-- What every used SYNC brings: RATE and SYNC_OK too; a unit in HOLDOVER pulls again (R43, R230, R238). -/
def useSync (x : SyncIn) (t : Time) : Time :=
  { noteSync x t with
    rate := x.rate, syncOk := true, inUse := true, seen := true, lastAt := none,
    mode := if t.mode = .holdover then .pull else t.mode, lockRun := if t.mode = .holdover then 0 else t.lockRun }

/-- The first SYNC after start-up sets ring time and epoch (R233, R462). -/
def firstSync (x : SyncIn) (t : Time) : Time :=
  { useSync x t with rt := shiftRt t.rt (-x.off), epoch := x.origin.epoch, mode := .pull, lockRun := 0, pulling := true,
                     outs := t.outs.map (fun (o : Tout) => (o.shift (-x.off)).rearm (nsCeil (shiftRt (t.rt + x.dt) (-x.off)))) }

/-- An ordinary SYNC corrects ring time by at most 0.25 ns (R230). -/
def correctSync (x : SyncIn) (t : Time) : Time :=
  { useSync x t with rt := shiftRt t.rt (-(clampInt (-16384) 16384 x.off)), farRun := 0 }

def countSyncErr (t : Time) : Time := { t with syncErr := satAdd t.syncErr 1 }

/-- The unit adopts the reference (R111, R234). -/
def adoptSync (x : SyncIn) (s : State) : State :=
  { s with time := (useSync x s.time).adopt x.off x.dt x.origin.epoch, pqSets := s.pqSets.map markStepped }

/-- The old timescale's last SYNC after a step (R241). -/
def staleSync (x : SyncIn) (t : Time) : Bool :=
  match t.lastAt with
  | some a => decide (x.origin.epoch + 1 = t.epoch) && decide (x.origin.total < a)
  | none => false

/-- A good SYNC at a unit that is not the head (R230, R233, R234, R241). -/
def takeSync (x : SyncIn) (s : State) : State :=
  if !s.time.seen then s.modTime (firstSync x)
  else if staleSync x s.time then s.modTime (fun t => { countSyncErr t with lastAt := none })
  else if x.origin.epoch ≠ s.time.epoch then adoptSync x s
  else if x.off.natAbs ≤ 1000 * nsUnits then s.modTime (correctSync x)
  else if 2 ≤ s.time.farRun then adoptSync x s
  else s.modTime (fun t => { countSyncErr (noteSync x t) with farRun := t.farRun + 1, lastAt := none })

/-- SYNC_RECEIVED (R230 to R234, R238, R255). -/
def execSyncReceived (r : RingSel) (f : RxFrame) (dt : Nat) (s : State) : Host.Outcome State Fault Refusal :=
  .next (if !s.coreOn || s.ring.isHead || rxStalled s (entryPort r) then s
    else if !frameGood f then (countFrameErr s).modTime countSyncErr
    else withFrame tySync f s (fun u => takeSync (syncIn (takeAsym s) r f dt) (takeAsym u)))

/-- SYNC_TIMEOUT (R233): no usable SYNC for 10 ms. -/
def execSyncTimeout (s : State) : Host.Outcome State Fault Refusal :=
  .next (if s.coreOn && !s.ring.isHead && s.time.seen && decide (s.time.mode ≠ .holdover) then
      (s.modTime (fun t => { t with mode := .holdover, lost := t.lost || decide (t.mode = .lock), stepPull := false, lockRun := 0,
                                    pulling := false, syncOk := false })).modRing (fun r => { r with headUid := none })
    else s)

/-! ### PPS -/

/-- PPS_EDGE (R235, R237): only the edge that PPS_EDGE of RT_CFG selects marks the second. -/
def execPpsEdge (e : PpsEdge) (s : State) : Host.Outcome State Fault Refusal :=
  .next (if s.coreOn && s.ring.isHead && decide (rtSrc s.time.cfg = 1) && rtPpsFalling s.time.cfg == e.falling then
      let d := s.draw
      d.2.modTime (ppsEdgeTime d.1 e.dt)
    else s)

/-- PPS_LOST (R237): no edge for 2 s; the servo holds its last rate. -/
def execPpsLost (s : State) : Host.Outcome State Fault Refusal :=
  .next (if s.coreOn && s.ring.isHead && decide (rtSrc s.time.cfg = 1) then
      s.modTime (fun t =>
        { t with ppsLost := true, ppsLock := false, ppsRun := 0, ppsClear := if t.ppsLock then some t.ticks else t.ppsClear })
    else s)

/-! ### Steps -/

/-- The pending step that a STEP payload carries. -/
def stepOf (bs : List Byte) : StepPend :=
  { at_ := (stampOf (bs.take 12)).total, delta := sgnBits 64 (leAt bs 12 8), epoch := BitVec.ofNat 4 (leAt bs 20 1), sends := 0 }

/-- STEP_RECEIVED (R239): AT stands in the unit's own epoch and lies ahead. -/
def execStepReceived (f : RxFrame) (s : State) : Host.Outcome State Fault Refusal :=
  .next (withFrame tyStep f s (fun s =>
    let p := stepOf f.payload
    if !s.ring.isHead && s.time.seen && decide ((stampOf (f.payload.take 12)).epoch = s.time.epoch) && decide (s.nowNs ≤ p.at_) then
      s.modTime (fun t => { t with step := some p })
    else s))

/-- The pending step takes effect on every block (R46, R111, R118, R219, R240, R241, R275). -/
def takeStep (s : State) : State :=
  match s.time.step with
  | none => s
  | some p =>
    let s := s.modTime Time.stepNow
    let s := { s with pqSets := s.pqSets.map markStepped }
    let s := s.modRing (rollBalance true (s.stampAt ((p.at_ : Int) + p.delta).toNat))
    s.modClk (fun k => { k with skipSample := true })

/-- STEP_TAKES_EFFECT (R240). -/
def execStepTakesEffect (s : State) : Host.Outcome State Fault Refusal := .next (if s.coreOn && s.stepReached then takeStep s else s)

/-! ### Timed outputs -/

/-- TOUT_FIRE (R244 to R248). -/
def execToutFire (n : Fin 4) (s : State) : Host.Outcome State Fault Refusal :=
  .next (match (s.time.outs[n]).nextEdge with
    | some ns => if s.coreOn && s.reached ns then s.modTout n (fun o => o.fire ns) else s
    | none => s)

/-- TOUT_PULSE_END (R244, R248). -/
def execToutPulseEnd (n : Fin 4) (s : State) : Host.Outcome State Fault Refusal :=
  .next (match (s.time.outs[n]).pulse with
    | some e => if s.coreOn && decide (e ≤ s.time.rt + tickUnits) then s.modTout n (fun o => o.finish e) else s
    | none => s)

end Sys2Proof.Machine
end

