-- ==== Sys2Proof/Machine/Tick.lean ====
section
/-! DEFINITION. The sample tick (R19 to R22, R32, R41, R44, R52, R62, R63, R68, R107, R117, R350, R367, R400, R465): what is overdue is
done, ring time and alignment advance by one sample, every channel delivers a sample, and the engines take it. -/

namespace Sys2Proof.Machine

/-! ### What the last sample left due -/

/-- The end of settling that no event has completed yet (R19). -/
def endSettle (n : Nat) : Nat := if n = 1 then 0 else n

def overdueSettle (s : State) : State :=
  { s with ports := s.ports.map (fun (r : Port) => { r with settle := endSettle r.settle }),
           pqSets := s.pqSets.map (fun (q : PqSet) => { q with settle := endSettle q.settle }) }

/-- Match blocks that no event has ended yet, and a TRACK that is 60 s without an accepted block (R24, R26). -/
def overdueMatch (s : State) : State :=
  let s := { s with ports := s.ports.map holdTimeout }
  s.forEach (fins 24) (fun p s => if blockLen ≤ (s.ports[p]).blockCnt then endBlock p (s.ports[p]).gCalc (s.ports[p]).dCalc s else s)

/-- What the Tracers of the ports owe and no event has brought (R148, R150, R154). -/
def overdueTracers (s : State) : State := { s with ports := s.ports.map overdueTracer }

def overdueStep (s : State) : State := if s.stepReached then takeStep s else s

/-- Stores that a KETTLE reading lets start and no event has started (R174). -/
def overdueStores (s : State) : State := if kettleDue s then startWaiting s else s

def overdue (s : State) : State :=
  overdueStep <| overdueStores (if s.metering then
    overdueWide (overdueSets (overdueCircuits (overdueMatch (overdueTracers (overdueSettle s))))) else overdueSettle s)

/-! ### Ring time -/

/-- The head's rate moves at each whole millisecond (R235, R236). -/
def headTick (old : Nat) (isHead : Bool) (t : Time) : Time :=
  if isHead && decide (old / 1000000 < t.rt / nsUnits / 1000000) then slewRate t else t

/-- The next sample instant (R41, R44), the alignment judged at it, and the head's clock. -/
def timeTick (isHead : Bool) (t : Time) : Time :=
  headTick (t.rt / nsUnits) isHead (judgePhase { t with rt := nextInstant t, ticks := t.ticks + 1 })

/-- Ring time moves to the next sample; a balance interval may end (R275), and a granted address comes into use (R265). -/
def advance (s : State) : State :=
  let t := balanceTick s.gridNs (s.modTime (timeTick s.ring.isHead))
  takeGrant t.nowMs t

/-! ### Channels -/

def sampleOf (x : Samples) (p : Fin 24) : PathSample :=
  { coarse := (x.coarse[p]).toInt, fine := (x.fine[p]).toInt, ovl := x.ovl.getLsbD p.val }

/-- With MODQ stalled every sample is missing, and R19 applies once it is back (R400). -/
def missedPort (r : Port) : Port := if portEn r.cfg then { ageTick r with settle := 65, out := 0, clip := false } else ageTick r

def tickPorts (x : Samples) (s : State) : State :=
  { s with ports := Vector.ofFn (fun p =>
      if s.stalled 0 then missedPort s.ports[p] else portTick (s.portClock p) (sampleOf x p) s.ports[p]) }

def tickVolts (x : Samples) (s : State) : State :=
  { s with volts := Vector.ofFn (fun v => if s.stalled 0 then s.volts[v] else voltTick (x.volt[v]).toInt s.volts[v]),
           pqSets := s.pqSets.map (fun (q : PqSet) =>
             { q with settle := if s.stalled 0 then 65 else if q.settle ≤ 1 then q.settle else q.settle - 1 }) }

/-! ### Energy -/

/-- The circuit's samples are valid (R68): its voltages have settled, and so have its ports that convert. -/
def circuitValid (s : State) (cfg : Word) : Bool :=
  setUsable s (cirSet cfg) && (cirPorts cfg).all (fun p => !portEn s.ports[p].cfg || s.ports[p].settle == 0)

def countBits (w : BitVec 24) : Nat := ((List.range 24).filter (fun k => w.getLsbD k)).length

/-- One circuit at a sample tick: samples on the way to it are counted (R52); it starts with its first valid sample (R68). -/
def tickCircuit (s : State) (r : Circuit) : Circuit :=
  let r := { r with unassigned := satAdd r.unassigned (countBits r.arriving) }
  if !cirEn r.cfg || r.stopped || (r.waitValid && !circuitValid s r.cfg) then r
  else circuitTick (circuitIn s r.cfg) { r with waitValid := false, startT := if r.len = 0 then s.gridStamp else r.startT }

def tickCircuits (s : State) : State := { s with circuits := s.circuits.map (tickCircuit s) }

/-! ### Power quality -/

def setVolts (s : State) (b : Nat) : Vector Rat 4 := Vector.ofFn (fun j => (setVolt s b j.val).out)

def setClip (s : State) (b : Nat) : Bool := (List.range 4).any (fun j => (setVolt s b j).clip)

/-- The samples of the ports that use the windows of a set (R97); one that is not valid counts as 0. -/
def setCurrents (s : State) (b : Fin 2) : Vector Rat 24 :=
  Vector.ofFn (fun p => if s.setOfPort p = b ∧ (s.ports[p]).usable then (s.ports[p]).out else 0)

def tickSet (b : Fin 2) (s : State) : State :=
  s.modSet b (setTick s.time.ticks s.gridNs s.gridStamp (setVolts s b.val) (setCurrents s b) (setClip s b.val) (!s.alignedNow))

/-- Set of a voltage input. -/
def setOfVolt (i : Fin 8) : Fin 2 := Fin.ofNat 2 (i.val / 4)

/-- The flicker meters at a sample; Pinst on every 32nd (R107). -/
def tickFlicker (s : State) : State :=
  let eval := decide (s.time.ticks % 32 = 0)
  let boundary := decide (s.gridNs % 600000000000 = 0)
  s.modPq (fun u => { u with flicker := Vector.ofFn (fun i =>
    let q := s.pqSets[setOfVolt i]
    if vsEn q.cfg && q.settle == 0 then flickerTick (vsLamp q.cfg) (vsNomf q.cfg) eval boundary (s.volts[i]).out u.flicker[i]
    else u.flicker[i]) })

/-- The engines take the sample; while frozen the circuits count it only (R68). -/
def tickEngines (x : Samples) (s : State) : State :=
  if s.metering then
    tickWide (x.wb1.toList.map BitVec.toInt) (x.wb2.toList.map BitVec.toInt) (tickFlicker (s.forEach (fins 2) tickSet |> tickCircuits))
  else if s.coreOn && s.hw.frozen then
    { s with circuits := s.circuits.map (fun (r : Circuit) => if cirEn r.cfg && !r.stopped then { r with frozenCnt := r.frozenCnt + 1 } else r) }
  else s

/-! ### The rest of the tick -/

/-- Powered time in 2^-3 s, 4,000 samples (R465). -/
def powerTime (f : Firn) : Firn :=
  if 4000 ≤ f.ptSub + 1 then
    { f with ptSub := 0, ptCkpt := satAdd f.ptCkpt 1, ptMatch := satAdd f.ptMatch 1, ptTrace := satAdd f.ptTrace 1, ptScrub := satAdd f.ptScrub 1 }
  else { f with ptSub := f.ptSub + 1 }

/-- The pulse counters are sampled (R367). -/
def tickS0 (s : State) : State := { s with s0 := s.s0.map (S0In.sample s.gridStamp) }

/-- A paused schedule counts whole milliseconds (R350). -/
def tickPaused (s : State) : State :=
  if s.plc.en && decide (s.power.state = .run) && decide (s.plc.mode = 2) && decide (s.gridNs % 1000000 = 0) then
    s.modPlc (fun p => { p with pausedMs := p.pausedMs + 1 })
  else s

/-- The tick of a powered core; PD_AUX follows what has changed (R365). -/
def sampleTick (x : Samples) (s : State) : State :=
  noteHeads <| auxSync (takeLean <| tickPaused (tickS0 ((tickEngines x (tickVolts x (tickPorts x (advance (overdue s))))).modFirn powerTime)))

/-- SAMPLE_TICK (R32). Without VSUP no sample is taken. -/
def execSampleTick (x : Samples) (s : State) : Host.Outcome State Fault Refusal := .next (if s.coreOn then sampleTick x s else s)

end Sys2Proof.Machine
end

