-- ==== Sys2Proof/Machine/Dispatch.lean ====
section
/-! DEFINITION. What each command does: one arm per constructor, each a direct call of the command's meaning. -/

namespace Sys2Proof.Machine

def exec (i : Instr) (s : State) : Host.Outcome State Fault Refusal :=
  match i with
  | .regRead addr form => Sys2Proof.Machine.execRegRead addr form s
  | .regWrite addr data form => Sys2Proof.Machine.execRegWrite addr data form s
  | .winRead addr form => Sys2Proof.Machine.execWinRead addr form s
  | .winWrite addr data form => Sys2Proof.Machine.execWinWrite addr data form s
  | .coldRead addr form => Sys2Proof.Machine.execColdRead addr form s
  | .undefinedInstruction code => Sys2Proof.Machine.execUndefinedInstruction code s
  | .cmdPiWrite v => Sys2Proof.Machine.execCmdPiWrite v s
  | .rspCiWrite v => Sys2Proof.Machine.execRspCiWrite v s
  | .trigger => Sys2Proof.Machine.execTrigger s
  | .force v => Sys2Proof.Machine.execForce v s
  | .descriptorConsume => Sys2Proof.Machine.execDescriptorConsume s
  | .badOpcode tag => Sys2Proof.Machine.execBadOpcode tag s
  | .winExpired => Sys2Proof.Machine.execWinExpired s
  | .relayTimeout tag => Sys2Proof.Machine.execRelayTimeout tag s
  | .mpReset => Sys2Proof.Machine.execMpReset s
  | .watchdogExpiry => Sys2Proof.Machine.execWatchdogExpiry s
  | .mpReady => Sys2Proof.Machine.execMpReady s
  | .swapComplete => Sys2Proof.Machine.execSwapComplete s
  | .fwRevert => Sys2Proof.Machine.execFwRevert s
  | .ping tag => Sys2Proof.Machine.execPing tag s
  | .idRead tag => Sys2Proof.Machine.execIdRead tag s
  | .lcRead tag => Sys2Proof.Machine.execLcRead tag s
  | .lcOpen tag => Sys2Proof.Machine.execLcOpen tag s
  | .seal tag => Sys2Proof.Machine.execSeal tag s
  | .unsealNonce tag => Sys2Proof.Machine.execUnsealNonce tag s
  | .unseal tag => Sys2Proof.Machine.execUnseal tag s
  | .retire tag => Sys2Proof.Machine.execRetire tag s
  | .cirMapWrite tag => Sys2Proof.Machine.execCirMapWrite tag s
  | .cirRead tag => Sys2Proof.Machine.execCirRead tag s
  | .cirScale tag => Sys2Proof.Machine.execCirScale tag s
  | .cirLimits tag => Sys2Proof.Machine.execCirLimits tag s
  | .portStatus tag => Sys2Proof.Machine.execPortStatus tag s
  | .calOpen tag => Sys2Proof.Machine.execCalOpen tag s
  | .calLoad tag => Sys2Proof.Machine.execCalLoad tag s
  | .calCommit tag => Sys2Proof.Machine.execCalCommit tag s
  | .calAbort tag => Sys2Proof.Machine.execCalAbort tag s
  | .calStatus tag => Sys2Proof.Machine.execCalStatus tag s
  | .calInfo tag => Sys2Proof.Machine.execCalInfo tag s
  | .calRead tag => Sys2Proof.Machine.execCalRead tag s
  | .logRead tag => Sys2Proof.Machine.execLogRead tag s
  | .matchAcquire tag => Sys2Proof.Machine.execMatchAcquire tag s
  | .trcWrite tag => Sys2Proof.Machine.execTrcWrite tag s
  | .trcRead tag => Sys2Proof.Machine.execTrcRead tag s
  | .traceRef tag => Sys2Proof.Machine.execTraceRef tag s
  | .trimLimWrite tag => Sys2Proof.Machine.execTrimLimWrite tag s
  | .cycleRead tag => Sys2Proof.Machine.execCycleRead tag s
  | .cycleBlocks tag => Sys2Proof.Machine.execCycleBlocks tag s
  | .snapRead tag => Sys2Proof.Machine.execSnapRead tag s
  | .viewRead tag => Sys2Proof.Machine.execViewRead tag s
  | .statRead tag => Sys2Proof.Machine.execStatRead tag s
  | .dirEvents tag => Sys2Proof.Machine.execDirEvents tag s
  | .clearTotals tag => Sys2Proof.Machine.execClearTotals tag s
  | .vsetWrite tag => Sys2Proof.Machine.execVsetWrite tag s
  | .chWrite tag => Sys2Proof.Machine.execChWrite tag s
  | .pqRead tag => Sys2Proof.Machine.execPqRead tag s
  | .harmRead tag => Sys2Proof.Machine.execHarmRead tag s
  | .hpowRead tag => Sys2Proof.Machine.execHpowRead tag s
  | .flickerRead tag => Sys2Proof.Machine.execFlickerRead tag s
  | .eventRead tag => Sys2Proof.Machine.execEventRead tag s
  | .supraRead tag => Sys2Proof.Machine.execSupraRead tag s
  | .noiseRead tag => Sys2Proof.Machine.execNoiseRead tag s
  | .clkRead tag => Sys2Proof.Machine.execClkRead tag s
  | .clkDate tag => Sys2Proof.Machine.execClkDate tag s
  | .serviceSet tag => Sys2Proof.Machine.execServiceSet tag s
  | .legalSet tag => Sys2Proof.Machine.execLegalSet tag s
  | .clkCfgWrite tag => Sys2Proof.Machine.execClkCfgWrite tag s
  | .ltrimWrite tag => Sys2Proof.Machine.execLtrimWrite tag s
  | .legalParams tag => Sys2Proof.Machine.execLegalParams tag s
  | .wdayWrite tag => Sys2Proof.Machine.execWdayWrite tag s
  | .alarmWrite tag => Sys2Proof.Machine.execAlarmWrite tag s
  | .clkClear tag => Sys2Proof.Machine.execClkClear tag s
  | .billRead tag => Sys2Proof.Machine.execBillRead tag s
  | .timeStatus tag => Sys2Proof.Machine.execTimeStatus tag s
  | .rtWrite tag => Sys2Proof.Machine.execRtWrite tag s
  | .step tag => Sys2Proof.Machine.execStep tag s
  | .toutWrite tag => Sys2Proof.Machine.execToutWrite tag s
  | .asymWrite tag => Sys2Proof.Machine.execAsymWrite tag s
  | .tcompWrite tag => Sys2Proof.Machine.execTcompWrite tag s
  | .tcTableWrite tag => Sys2Proof.Machine.execTcTableWrite tag s
  | .firnStatus tag => Sys2Proof.Machine.execFirnStatus tag s
  | .firnClear tag => Sys2Proof.Machine.execFirnClear tag s
  | .firnRead tag => Sys2Proof.Machine.execFirnRead tag s
  | .firnStore tag => Sys2Proof.Machine.execFirnStore tag s
  | .ringStatus tag => Sys2Proof.Machine.execRingStatus tag s
  | .ringHcfgWrite tag => Sys2Proof.Machine.execRingHcfgWrite tag s
  | .rosterRead tag => Sys2Proof.Machine.execRosterRead tag s
  | .addrRelease tag => Sys2Proof.Machine.execAddrRelease tag s
  | .balWrite tag => Sys2Proof.Machine.execBalWrite tag s
  | .balRead tag => Sys2Proof.Machine.execBalRead tag s
  | .mirrorRead tag => Sys2Proof.Machine.execMirrorRead tag s
  | .mirrorPush tag => Sys2Proof.Machine.execMirrorPush tag s
  | .mirrorRelease tag => Sys2Proof.Machine.execMirrorRelease tag s
  | .plcCfg tag => Sys2Proof.Machine.execPlcCfg tag s
  | .plcStatus tag => Sys2Proof.Machine.execPlcStatus tag s
  | .nodeEnrol tag => Sys2Proof.Machine.execNodeEnrol tag s
  | .nodeRetire tag => Sys2Proof.Machine.execNodeRetire tag s
  | .nodeRead tag => Sys2Proof.Machine.execNodeRead tag s
  | .nodeData tag => Sys2Proof.Machine.execNodeData tag s
  | .nodeSend tag => Sys2Proof.Machine.execNodeSend tag s
  | .phaseIdent tag => Sys2Proof.Machine.execPhaseIdent tag s
  | .tonemapRead tag => Sys2Proof.Machine.execTonemapRead tag s
  | .dispCfg tag => Sys2Proof.Machine.execDispCfg tag s
  | .dispStatus tag => Sys2Proof.Machine.execDispStatus tag s
  | .dispWrite tag => Sys2Proof.Machine.execDispWrite tag s
  | .dispUpdate tag => Sys2Proof.Machine.execDispUpdate tag s
  | .lutLoad tag => Sys2Proof.Machine.execLutLoad tag s
  | .unifLoad tag => Sys2Proof.Machine.execUnifLoad tag s
  | .legalItems tag => Sys2Proof.Machine.execLegalItems tag s
  | .auxSeq tag => Sys2Proof.Machine.execAuxSeq tag s
  | .auxWin tag => Sys2Proof.Machine.execAuxWin tag s
  | .auxRead tag => Sys2Proof.Machine.execAuxRead tag s
  | .auxInject tag => Sys2Proof.Machine.execAuxInject tag s
  | .s0Cfg tag => Sys2Proof.Machine.execS0Cfg tag s
  | .s0Read tag => Sys2Proof.Machine.execS0Read tag s
  | .cfWrite tag => Sys2Proof.Machine.execCfWrite tag s
  | .cfRead tag => Sys2Proof.Machine.execCfRead tag s
  | .fwInfo tag => Sys2Proof.Machine.execFwInfo tag s
  | .fwLoad tag => Sys2Proof.Machine.execFwLoad tag s
  | .fwVerify tag => Sys2Proof.Machine.execFwVerify tag s
  | .fwSwap tag => Sys2Proof.Machine.execFwSwap tag s
  | .dbgNonce tag => Sys2Proof.Machine.execDbgNonce tag s
  | .dbgAuth tag => Sys2Proof.Machine.execDbgAuth tag s
  | .dbgDrop tag => Sys2Proof.Machine.execDbgDrop tag s
  | .debugExpiry => Sys2Proof.Machine.execDebugExpiry s
  | .makerKeyWrite key => Sys2Proof.Machine.execMakerKeyWrite key s
  | .mpHalt => Sys2Proof.Machine.execMpHalt s
  | .cycleClose c => Sys2Proof.Machine.execCycleClose c s
  | .nozcTimeout c => Sys2Proof.Machine.execNozcTimeout c s
  | .fixedBoundary c => Sys2Proof.Machine.execFixedBoundary c s
  | .cfPulse o => Sys2Proof.Machine.execCfPulse o s
  | .cfPulseEnd o => Sys2Proof.Machine.execCfPulseEnd o s
  | .settlingEnd u => Sys2Proof.Machine.execSettlingEnd u s
  | .matchBlockEnd p g d => Sys2Proof.Machine.execMatchBlockEnd p g d s
  | .matchHoldTimeout p => Sys2Proof.Machine.execMatchHoldTimeout p s
  | .matchStore => Sys2Proof.Machine.execMatchStore s
  | .alignLock => Sys2Proof.Machine.execAlignLock s
  | .tracerBlock p zr zx lost => Sys2Proof.Machine.execTracerBlock p zr zx lost s
  | .tracerPeriodEnd p noisy => Sys2Proof.Machine.execTracerPeriodEnd p noisy s
  | .tracerRampEnd p => Sys2Proof.Machine.execTracerRampEnd p s
  | .tracerRetry p => Sys2Proof.Machine.execTracerRetry p s
  | .trimEvaluation => Sys2Proof.Machine.execTrimEvaluation s
  | .calIdleTimeout t => Sys2Proof.Machine.execCalIdleTimeout t s
  | .storeStart => Sys2Proof.Machine.execStoreStart s
  | .pageStoreDone bank verified k290 => Sys2Proof.Machine.execPageStoreDone bank verified k290 s
  | .groupStoreDone base => Sys2Proof.Machine.execGroupStoreDone base s
  | .accumulatorCheckpoint => Sys2Proof.Machine.execAccumulatorCheckpoint s
  | .scrubberStep pass0 pass1 => Sys2Proof.Machine.execScrubberStep pass0 pass1 s
  | .earlyWarning dt kettle => Sys2Proof.Machine.execEarlyWarning dt kettle s
  | .brownOut dt kettle => Sys2Proof.Machine.execBrownOut dt kettle s
  | .resetNLow dt kettle => Sys2Proof.Machine.execResetNLow dt kettle s
  | .saveComplete duration kettle => Sys2Proof.Machine.execSaveComplete duration kettle s
  | .kettleCollapse us => Sys2Proof.Machine.execKettleCollapse us s
  | .resume => Sys2Proof.Machine.execResume s
  | .vsupValid leanN ringHead kettleLow => Sys2Proof.Machine.execVsupValid leanN ringHead kettleLow s
  | .loaded => Sys2Proof.Machine.execLoaded s
  | .leanNChange level => Sys2Proof.Machine.execLeanNChange level s
  | .wakeN => Sys2Proof.Machine.execWakeN s
  | .pwrWakeTimeout => Sys2Proof.Machine.execPwrWakeTimeout s
  | .pdAoPowerUp => Sys2Proof.Machine.execPdAoPowerUp s
  | .vbakLow => Sys2Proof.Machine.execVbakLow s
  | .chargerThreshold mv => Sys2Proof.Machine.execChargerThreshold mv s
  | .alarmFire n => Sys2Proof.Machine.execAlarmFire n s
  | .weekdayAdvance c => Sys2Proof.Machine.execWeekdayAdvance c s
  | .billingBoundary => Sys2Proof.Machine.execBillingBoundary s
  | .billRecord => Sys2Proof.Machine.execBillRecord s
  | .legalOffsetSample => Sys2Proof.Machine.execLegalOffsetSample s
  | .tcUpdate theta => Sys2Proof.Machine.execTcUpdate theta s
  | .tcTempWrite => Sys2Proof.Machine.execTcTempWrite s
  | .tcFallback => Sys2Proof.Machine.execTcFallback s
  | .oscStopped => Sys2Proof.Machine.execOscStopped s
  | .oscResume => Sys2Proof.Machine.execOscResume s
  | .syncSend => Sys2Proof.Machine.execSyncSend s
  | .syncReceived r f dt => Sys2Proof.Machine.execSyncReceived r f dt s
  | .syncTimeout => Sys2Proof.Machine.execSyncTimeout s
  | .epochStoreRetry => Sys2Proof.Machine.execEpochStoreRetry s
  | .ppsEdge e => Sys2Proof.Machine.execPpsEdge e s
  | .ppsLost => Sys2Proof.Machine.execPpsLost s
  | .stepReceived f => Sys2Proof.Machine.execStepReceived f s
  | .stepTakesEffect => Sys2Proof.Machine.execStepTakesEffect s
  | .toutFire n => Sys2Proof.Machine.execToutFire n s
  | .toutPulseEnd n => Sys2Proof.Machine.execToutPulseEnd n s
  | .alignSend p => Sys2Proof.Machine.execAlignSend p s
  | .alignReceived p f dt => Sys2Proof.Machine.execAlignReceived p f dt s
  | .linkUp p => Sys2Proof.Machine.execLinkUp p s
  | .linkDown p errors => Sys2Proof.Machine.execLinkDown p errors s
  | .frameForward r f resid inWindow => Sys2Proof.Machine.execFrameForward r f resid inWindow s
  | .unitWindow r dt => Sys2Proof.Machine.execUnitWindow r dt s
  | .enumSend => Sys2Proof.Machine.execEnumSend s
  | .enumReceived f => Sys2Proof.Machine.execEnumReceived f s
  | .enumReplyReceived f => Sys2Proof.Machine.execEnumReplyReceived f s
  | .idleReceived f => Sys2Proof.Machine.execIdleReceived f s
  | .rosterAbsent a => Sys2Proof.Machine.execRosterAbsent a s
  | .claim sofSeen => Sys2Proof.Machine.execClaim sofSeen s
  | .claimReceived fs => Sys2Proof.Machine.execClaimReceived fs s
  | .grant f => Sys2Proof.Machine.execGrant f s
  | .revoke f => Sys2Proof.Machine.execRevoke f s
  | .full f => Sys2Proof.Machine.execFull f s
  | .wrapReportReceived f => Sys2Proof.Machine.execWrapReportReceived f s
  | .wrapAnnounceReceived f => Sys2Proof.Machine.execWrapAnnounceReceived f s
  | .wrapAt => Sys2Proof.Machine.execWrapAt s
  | .mboxCommandReceived f => Sys2Proof.Machine.execMboxCommandReceived f s
  | .mboxResponseReceived f => Sys2Proof.Machine.execMboxResponseReceived f s
  | .mboxBulkReceived f => Sys2Proof.Machine.execMboxBulkReceived f s
  | .mirrorHalfReceived f => Sys2Proof.Machine.execMirrorHalfReceived f s
  | .mirrorSend => Sys2Proof.Machine.execMirrorSend s
  | .relay f => Sys2Proof.Machine.execRelay f s
  | .balanceIntervalEnd => Sys2Proof.Machine.execBalanceIntervalEnd s
  | .balanceReceived f => Sys2Proof.Machine.execBalanceReceived f s
  | .balanceCompute => Sys2Proof.Machine.execBalanceCompute s
  | .pqHalfCycle b => Sys2Proof.Machine.execPqHalfCycle b s
  | .transientEnd b ch => Sys2Proof.Machine.execTransientEnd b ch s
  | .pqWindowClose b => Sys2Proof.Machine.execPqWindowClose b s
  | .freqIntervalEnd b => Sys2Proof.Machine.execFreqIntervalEnd b s
  | .supraWindow => Sys2Proof.Machine.execSupraWindow s
  | .noisePublish => Sys2Proof.Machine.execNoisePublish s
  | .mpEventPost => Sys2Proof.Machine.execMpEventPost s
  | .turnStart => Sys2Proof.Machine.execTurnStart s
  | .pollPrepare => Sys2Proof.Machine.execPollPrepare s
  | .exchangeStart => Sys2Proof.Machine.execExchangeStart s
  | .replyDetect d => Sys2Proof.Machine.execReplyDetect d s
  | .replyWindowClose => Sys2Proof.Machine.execReplyWindowClose s
  | .replyReceived r => Sys2Proof.Machine.execReplyReceived r s
  | .tonemapRebuild => Sys2Proof.Machine.execTonemapRebuild s
  | .dispLedgerStored => Sys2Proof.Machine.execDispLedgerStored s
  | .dispRailsSettled => Sys2Proof.Machine.execDispRailsSettled s
  | .dispFrame => Sys2Proof.Machine.execDispFrame s
  | .dispUpdateEnd => Sys2Proof.Machine.execDispUpdateEnd s
  | .dispRecordCheck => Sys2Proof.Machine.execDispRecordCheck s
  | .dispRepair => Sys2Proof.Machine.execDispRepair s
  | .crevasseClose => Sys2Proof.Machine.execCrevasseClose s
  | .legalStripRedraw => Sys2Proof.Machine.execLegalStripRedraw s
  | .auxPass => Sys2Proof.Machine.execAuxPass s
  | .auxInjectedSeq => Sys2Proof.Machine.execAuxInjectedSeq s
  | .housekeeping crevasse => Sys2Proof.Machine.execHousekeeping crevasse s
  | .auxConversionDone code dt => Sys2Proof.Machine.execAuxConversionDone code dt s
  | .auxCalibration => Sys2Proof.Machine.execAuxCalibration s
  | .s0Pulse n => Sys2Proof.Machine.execS0Pulse n s
  | .cdcStall k => Sys2Proof.Machine.execCdcStall k s
  | .cdcResume k => Sys2Proof.Machine.execCdcResume k s
  | .cdcRealign k side dropped => Sys2Proof.Machine.execCdcRealign k side dropped s
  | .sampleTick x => Sys2Proof.Machine.execSampleTick x s
  | .crystalTick => Sys2Proof.Machine.execCrystalTick s
  | .pdAoSupplyLost => Sys2Proof.Machine.execPdAoSupplyLost s
  | .mpResume step => Sys2Proof.Machine.execMpResume step s
  | .breakpointHit => Sys2Proof.Machine.execBreakpointHit s
  | .replyWindowOpen => Sys2Proof.Machine.execReplyWindowOpen s

end Sys2Proof.Machine
end

