-- ==== Sys2Proof/WellFormed.lean ====
section
/-! DEFINITION. Which commands an environment can give: the widths that Syntax.lean leaves open (lengths of byte lists, an instant
between two samples, the SPI codes that are no instruction). The meanings are total and do not need it. -/

namespace Sys2Proof

/-- A read clocks at least one data byte. -/
def ReadForm.wf : ReadForm → Bool
  | .plain n => decide (1 ≤ n)
  | .crc _ => true

/-- A CRC-form write whose check value was clocked has COUNT + 1 data bytes (R284). -/
def writeWf (data : List Byte) : Option CrcForm → Bool
  | some f => decide (data.length ≤ f.count.toNat + 1) && (f.check.isNone || decide (data.length = f.count.toNat + 1))
  | none => true

/-- The five instruction codes of R283, without the CRC bit of R284. -/
def spiCodes : List Nat := [0x02, 0x03, 0x0A, 0x0B, 0x0C]

/-- An instant in ns from the present sample to before the next; a pull stretches a period by 20 ppm (R44). -/
def withinSample (dt : Nat) : Bool := decide (dt < 31251)

/-- The same in units of 2^-16 ns. -/
def withinSampleUnits (dt : Nat) : Bool := decide (dt < 31251 * 65536)

/-- LEN has nine bits (R255). -/
def RxFrame.wf (f : RxFrame) : Bool := decide (f.payload.length < 512)

/-- A detection comes at or after the end of the second SYNC symbol, and within the preamble (R336). -/
def ReplyDetection.wf (d : ReplyDetection) : Bool :=
  withinSample d.dt && decide (1152 ≤ d.lead1) && decide (d.lead1 ≤ 2304) && decide (1152 ≤ d.lead2) && decide (d.lead2 ≤ 2304)

/-- The command is well formed. -/
def Instr.wf : Instr → Bool
  | .regRead _ f => f.wf
  | .regWrite _ d f => writeWf d f
  | .winRead _ f => f.wf
  | .winWrite _ d f => writeWf d f
  | .coldRead _ f => f.wf
  | .undefinedInstruction c => !spiCodes.contains (c.toNat % 128)
  | .groupStoreDone base => decide (base < 3072)
  | .earlyWarning dt _ => withinSample dt
  | .brownOut dt _ => withinSample dt
  | .resetNLow dt _ => withinSample dt
  | .kettleCollapse us => decide (us.length = 16)
  | .chargerThreshold mv => decide (mv ≤ 5500)
  | .tcUpdate th => decide (-32768 ≤ th) && decide (th ≤ 32767)
  | .syncReceived _ f dt => f.wf && withinSampleUnits dt
  | .ppsEdge e => withinSample e.dt
  | .stepReceived f => f.wf
  | .alignReceived _ f dt => f.wf && withinSampleUnits dt
  | .linkDown _ e => decide (e < 65536)
  | .frameForward _ f _ _ => f.wf
  | .unitWindow _ dt => withinSampleUnits dt
  | .enumReceived f => f.wf
  | .enumReplyReceived f => f.wf
  | .idleReceived f => f.wf
  | .claimReceived fs => fs.all RxFrame.wf
  | .grant f => f.wf
  | .revoke f => f.wf
  | .full f => f.wf
  | .wrapReportReceived f => f.wf
  | .wrapAnnounceReceived f => f.wf
  | .mboxCommandReceived f => f.wf
  | .mboxResponseReceived f => f.wf
  | .mboxBulkReceived f => f.wf
  | .mirrorHalfReceived f => f.wf
  | .relay f => f.wf
  | .balanceReceived f => f.wf
  | .replyDetect d => d.wf
  | .auxConversionDone _ dt => withinSample dt
  | .cdcRealign _ _ n => decide (n ≤ 64)
  | .cmdPiWrite _ | .rspCiWrite _ | .trigger | .force _ | .descriptorConsume | .badOpcode _ | .winExpired
  | .relayTimeout _ | .mpReset | .watchdogExpiry | .mpReady | .swapComplete | .fwRevert | .ping _ | .idRead _
  | .lcRead _ | .lcOpen _ | .seal _ | .unsealNonce _ | .unseal _ | .retire _ | .cirMapWrite _ | .cirRead _
  | .cirScale _ | .cirLimits _ | .portStatus _ | .calOpen _ | .calLoad _ | .calCommit _ | .calAbort _ | .calStatus _
  | .calInfo _ | .calRead _ | .logRead _ | .matchAcquire _ | .trcWrite _ | .trcRead _ | .traceRef _ | .trimLimWrite _
  | .cycleRead _ | .cycleBlocks _ | .snapRead _ | .viewRead _ | .statRead _ | .dirEvents _ | .clearTotals _
  | .vsetWrite _ | .chWrite _ | .pqRead _ | .harmRead _ | .hpowRead _ | .flickerRead _ | .eventRead _ | .supraRead _
  | .noiseRead _ | .clkRead _ | .clkDate _ | .serviceSet _ | .legalSet _ | .clkCfgWrite _ | .ltrimWrite _
  | .legalParams _ | .wdayWrite _ | .alarmWrite _ | .clkClear _ | .billRead _ | .timeStatus _ | .rtWrite _ | .step _
  | .toutWrite _ | .asymWrite _ | .tcompWrite _ | .tcTableWrite _ | .firnStatus _ | .firnClear _ | .firnRead _
  | .firnStore _ | .ringStatus _ | .ringHcfgWrite _ | .rosterRead _ | .addrRelease _ | .balWrite _ | .balRead _
  | .mirrorRead _ | .mirrorPush _ | .mirrorRelease _ | .plcCfg _ | .plcStatus _ | .nodeEnrol _ | .nodeRetire _
  | .nodeRead _ | .nodeData _ | .nodeSend _ | .phaseIdent _ | .tonemapRead _ | .dispCfg _ | .dispStatus _
  | .dispWrite _ | .dispUpdate _ | .lutLoad _ | .unifLoad _ | .legalItems _ | .auxSeq _ | .auxWin _ | .auxRead _
  | .auxInject _ | .s0Cfg _ | .s0Read _ | .cfWrite _ | .cfRead _ | .fwInfo _ | .fwLoad _ | .fwVerify _ | .fwSwap _
  | .dbgNonce _ | .dbgAuth _ | .dbgDrop _ | .debugExpiry | .makerKeyWrite _ | .mpHalt | .cycleClose _ | .nozcTimeout _
  | .fixedBoundary _ | .cfPulse _ | .cfPulseEnd _ | .settlingEnd _ | .matchBlockEnd _ _ _ | .matchHoldTimeout _
  | .matchStore | .alignLock | .tracerBlock _ _ _ _ | .tracerPeriodEnd _ _ | .tracerRampEnd _ | .tracerRetry _
  | .trimEvaluation | .calIdleTimeout _ | .storeStart | .pageStoreDone _ _ _ | .accumulatorCheckpoint
  | .scrubberStep _ _ | .saveComplete _ _ | .resume | .vsupValid _ _ _ | .loaded | .leanNChange _ | .wakeN
  | .pwrWakeTimeout | .pdAoPowerUp | .vbakLow | .alarmFire _ | .weekdayAdvance _ | .billingBoundary | .billRecord
  | .legalOffsetSample | .tcTempWrite | .tcFallback | .oscStopped | .oscResume | .syncSend | .syncTimeout
  | .epochStoreRetry | .ppsLost | .stepTakesEffect | .toutFire _ | .toutPulseEnd _ | .alignSend _ | .linkUp _
  | .enumSend | .rosterAbsent _ | .claim _ | .wrapAt | .mirrorSend | .balanceIntervalEnd | .balanceCompute
  | .pqHalfCycle _ | .transientEnd _ _ | .pqWindowClose _ | .freqIntervalEnd _ | .supraWindow | .noisePublish
  | .mpEventPost | .turnStart | .pollPrepare | .exchangeStart | .replyWindowClose | .tonemapRebuild
  | .dispLedgerStored | .dispRailsSettled | .dispFrame | .dispUpdateEnd | .dispRecordCheck | .dispRepair
  | .crevasseClose | .legalStripRedraw | .auxPass | .auxInjectedSeq | .housekeeping _ | .auxCalibration | .s0Pulse _
  | .cdcStall _ | .cdcResume _ | .sampleTick _ | .crystalTick | .pdAoSupplyLost | .mpResume _ | .breakpointHit
  | .replyWindowOpen | .replyReceived _ => true

end Sys2Proof
end

