-- ==== Sys2Proof/Safety.lean ====
section
/-! DEFINITION. The terms in which the statements speak: when the MP takes a command, what a response in the ring shows, and
what stays true of the machine whatever is commanded. -/

namespace Sys2Proof

open Machine

/-! ### Commands of the MP -/

/-- Tag t holds command c of a row of the group tables, the MP may start it, and the common checks of R311 pass. -/
abbrev Takes (row : CmdRow) (t : Fin 64) (c : Cmd) (s : State) : Prop :=
  s.mb.tags[t] = some c ∧ dOpcode c.desc = row.op ∧ startable t c s = true ∧ rowCheck row c (bulkOf c s) s = none

/-- The n-byte field at an offset of a command's payload. -/
def payField (c : Cmd) (off n : Nat) : Nat := leAt (dPayload c.desc) off n

/-- KIND and TARGET of a calibration command name a target (R320). -/
abbrev NamesTarget (c : Cmd) : CalTarget → Prop
  | .cir k => payField c 0 1 = 0 ∧ payField c 1 1 = k.val + 1
  | .vset b => payField c 0 1 = 1 ∧ payField c 1 1 = 1 + bitN b

/-- The 64 bytes of the slot of the response ring at an index. -/
def rspSlot (s : State) (i : Byte) : List Byte := memSlice 0 s.mb.win (0x0400 + 64 * (i.toNat % 64)) 64

/-- A good frame of a type, for this unit and not a second copy, at a unit that hears (R255, R261). -/
abbrev Hears (ty : BitVec 4) (f : RxFrame) (s : State) : Prop :=
  s.coreOn = true ∧ (s.stalled 2 && s.stalled 3) = false ∧ frameGood f = true ∧ f.typ = ty ∧ frameForMe s f = true ∧ frameSeen s f = false

/-- A mailbox frame of a kind whose final destination is this unit (R271). -/
abbrev HearsMbox (kind : Nat) (f : RxFrame) (s : State) : Prop :=
  Hears tyMbox f s ∧ mboxKind f = kind ∧ mboxFinal f = s.ring.addr

/-- The frames that a unit adds at the end of its transmission queue. -/
abbrev Queues (s t : State) (fs : List TxFrame) : Prop := t.ring.txq = s.ring.txq ++ fs

/-! ### What stays true -/

/-- Every byte memory of the machine is in its canonical form. -/
def memoriesWf (s : State) : Bool :=
  Memory.wf 0 s.mb.win && Memory.wf 0xFF s.firn.arr && Memory.wf 0 s.firn.ram && Memory.wf 0 s.ring.mirror && Memory.wf 0 s.disp.unif &&
    Memory.wf 0 s.disp.draw && Memory.wf 0 s.disp.shown && Memory.wf 0xFF (s.mp.banks[0]).image && Memory.wf 0xFF (s.mp.banks[1]).image

/-- Every request of the Firn store has an identifier below the next one to be issued. -/
def requestIdsWf (s : State) : Bool := s.firn.reqs.all (fun r => decide (r.id < s.firn.issued))

/-- One-time programmable memory only ever gains: the fuses of OPEN and RETIRED (R420) and the MAKER key (R426). -/
def OtpKept (s s' : State) : Prop :=
  (s.sec.fuseOpened = true → s'.sec.fuseOpened = true) ∧ (s.sec.fuseRetired = true → s'.sec.fuseRetired = true) ∧
    (∀ k, s.sec.makerKey = some k → s'.sec.makerKey = some k)

end Sys2Proof
end

