-- ==== Sys2Proof/Certificates/Slice0/Obligations.lean ====
section
/-! DEFINITION. The statements about the block, family by family: what it answers, what each command writes and what stays. -/

open Sys2Proof Sys2Proof.Machine

/-- A step is exec of the command at the front of the queue, on the state with the queue's rest; on an empty queue the block idles (the
model's choice, assumption log row 4). -/
def Obligations.StepRunsFrontCommand : Prop :=
  (∀ (c : Instr) (s : State), step { s with pending := c :: s.pending } = exec c s) ∧
    (∀ s : State, s.pending = [] → step s = .next s)

/-- R287, R33, R76, R86: The values that the spec states for reset; assumption log row 1 names the others. At reset every byte memory is in
its canonical form, and no request of the Firn store is out. -/
def Obligations.ResetHoldsStatedValues : Prop :=
  (hwStatus State.reset = 0x40 * 4096 ∧ hwIrq State.reset.hw = 0 ∧ hwDoorbell State.reset.hw = 0 ∧ hwWdog State.reset.hw = 0 ∧
     State.reset.pending = [] ∧
     (∀ p : Fin 24, (State.reset.ports[p]).cal = { gain := 0x400000, phase := 0, offset := 0 } ∧ (State.reset.ports[p]).uncal = true) ∧
     (∀ v : Fin 8, (State.reset.volts[v]).cal = { gain := 0x400000, phase := 0, offset := 0 }) ∧
     (∀ c : Fin 24, (State.reset.circuits[c]).nlW = { p := 0x1000, q := 0x1000, s := 0x1000 } ∧ (State.reset.circuits[c]).zcToW = 70 ∧
       (State.reset.circuits[c]).totals.acc = Vector.replicate 10 0) ∧
     (∀ o : Fin 8, cfEn (State.reset.cfs[o]).cfgW = false)) ∧
  (memoriesWf State.reset = true ∧ requestIdsWf State.reset = true ∧ State.reset.firn.reqs = [])

/-- R285 to R287, R283, R284, R286, R288, R289: The seven HW_ registers as words, and 0 for a register that is not available or not in the
map. A read puts its bytes on HMISO, a register read clears the RC fields whose byte was sent, and nothing else changes. -/
def Obligations.HostReadsReturnTheirData : Prop :=
  (∀ s : State,
     regWord s 0x00 = 0x01B04824 ∧
     regWord s 0x04 = bitN s.hw.loaded + 2 * bitN s.hw.mpReady + 4 * bitN s.hw.mpRun + 8 * bitN s.hw.bank + 16 * bitN s.hw.swapping +
       32 * bitN s.hw.frozen + 64 * bitN s.hw.crcErr + 128 * bitN s.hw.winViol + 256 * bitN s.hw.dbErr + 512 * bitN s.hw.notAvail +
       1024 * bitN s.hw.rspFull + 2048 * bitN s.hw.winExpired + 4096 * tagsFree s.mb + 2 ^ 20 * s.hw.crcCnt.toNat +
       2 ^ 24 * s.hw.rspStalls.toNat ∧
     regWord s 0x08 = ((s.hw.irq &&& 0x1FE) ||| (if s.hw.rspPi ≠ s.hw.rspCi then 1 else 0)).toNat + 2 ^ 16 * s.hw.irqEn.toNat ∧
     regWord s 0x0C = (if s.coreOn then s.hw.cmdPi.toNat + 2 ^ 8 * s.hw.cmdCi.toNat + 2 ^ 16 * s.hw.rspPi.toNat +
       2 ^ 24 * s.hw.rspCi.toNat else 0) ∧
     regWord s 0x10 = (if s.coreOn && s.hw.loaded then s.energy.hostLatch.seq.toNat else 0) ∧
     regWord s 0x14 = (if s.coreOn then s.hw.mpResets.toNat + 256 * bitN s.hw.wdogFired else 0) ∧
     regWord s 0x18 = (if s.power.aoReset then 0 else (match s.sec.state with | .factory => 0 | .opened => 1 | .sealed => 2 | .retired => 3) +
       4 * (s.sec.debug).toNat + 256 * (s.sec.sealBreaks.toNat % 2 ^ 24)) ∧
     (∀ a, 0x1C ≤ a → regWord s a = 0)) ∧
  ((∀ (s : State) (addr : Byte) (n : Nat), s.power.state ≠ .off →
     exec (.regRead addr (.plain n)) s = .next { s with hw := { s.hw with
       hmiso := (List.range n).map (fun k => BitVec.ofNat 8 (regWord s (addr.toNat + k / 4 * 4) / 256 ^ (k % 4))),
       crcCnt := if byteSent addr.toNat n 0x04 2 then 0 else s.hw.crcCnt,
       rspStalls := if byteSent addr.toNat n 0x04 3 then 0 else s.hw.rspStalls,
       mpResets := if byteSent addr.toNat n 0x14 0 && s.coreOn then 0 else s.hw.mpResets,
       notAvail := s.hw.notAvail || (List.range n).any (fun k => !regAvail s (addr.toNat + k / 4 * 4)) } }) ∧
   (∀ (s : State) (addr c : Byte), s.power.state ≠ .off → (c.toNat + 1) % 4 = 0 →
     ∃ t, exec (.regRead addr (.crc c)) s = .next t ∧ t.hw.hmiso = regBytes s addr.toNat (c.toNat + 1) ++
       leBytes 2 (crc16 ([0x83, addr, c] ++ regBytes s addr.toNat (c.toNat + 1))).toNat) ∧
   (∀ (s : State) (addr c : Byte), s.power.state ≠ .off → (c.toNat + 1) % 4 ≠ 0 →
     exec (.regRead addr (.crc c)) s = .next { s with hw := { s.hw with hmiso := [] } }) ∧
   (∀ (s : State) (addr : BitVec 16) (n : Nat), s.coreOn = true →
     exec (.winRead addr (.plain n)) s = .next { s with hw := { s.hw with hmiso := memSlice 0 s.mb.win addr.toNat n } }) ∧
   (∀ (s : State) (addr : BitVec 16) (c : Byte), s.coreOn = true →
     exec (.winRead addr (.crc c)) s = .next { s with hw := { s.hw with
       hmiso := memSlice 0 s.mb.win addr.toNat (c.toNat + 1) ++ leBytes 2 (crc16 ([0x8B] ++ leBytes 2 addr.toNat ++ [c] ++ memSlice 0 s.mb.win addr.toNat (c.toNat + 1))).toNat } }) ∧
   (∀ (s : State) (addr : BitVec 16) (n : Nat), s.power.state ≠ .off → s.coreOn = false →
     exec (.winRead addr (.plain n)) s = .next { s with hw := { s.hw with hmiso := List.replicate n 0, notAvail := true } }) ∧
   (∀ (s : State) (addr : BitVec 16) (n : Nat) (v : Vector Totals 24), s.coreOn = true → s.hw.loaded = true →
     s.energy.hostLatch.image = some v →
     exec (.coldRead addr (.plain n)) s = .next { s with hw := { s.hw with hmiso := sliceAt (imageBytes v) addr.toNat n } }) ∧
   (∀ (s : State) (addr : BitVec 16) (c : Byte) (v : Vector Totals 24), s.coreOn = true → s.hw.loaded = true →
     s.energy.hostLatch.image = some v →
     exec (.coldRead addr (.crc c)) s = .next { s with hw := { s.hw with
       hmiso := sliceAt (imageBytes v) addr.toNat (c.toNat + 1) ++ leBytes 2 (crc16 ([0x8C] ++ leBytes 2 addr.toNat ++ [c] ++ sliceAt (imageBytes v) addr.toNat (c.toNat + 1))).toNat } }) ∧
   (∀ (s : State) (addr : BitVec 16) (n : Nat), s.power.state ≠ .off → (s.coreOn && s.hw.loaded) = false →
     exec (.coldRead addr (.plain n)) s = .next { s with hw := { s.hw with hmiso := List.replicate n 0, notAvail := true } }) ∧
   (∀ (s : State) (code : Byte), s.power.state ≠ .off →
     exec (.undefinedInstruction code) s = .next { s with hw := { s.hw with hmiso := [] } }))

/-- R80, R284, R286, R287, R289, R291, R299: What a write of the direct registers does; HMISO stays low. An index is taken where it stays
within its ring and does not move back, is ignored where it is unchanged, and otherwise sets DB_ERR; a reader that passes the response
of a bulk command releases the window. -/
def Obligations.RegisterWritesTakeEffect : Prop :=
  ((∀ (s : State) (data : List Byte), s.power.state ≠ .off → data.length = 4 →
     exec (.regWrite 0x04 data none) s = .next { s with hw := { s.hw with
       hmiso := [], crcErr := s.hw.crcErr && !(leNat data).testBit 6, winViol := s.hw.winViol && !(leNat data).testBit 7,
       dbErr := s.hw.dbErr && !(leNat data).testBit 8, notAvail := s.hw.notAvail && !(leNat data).testBit 9,
       winExpired := s.hw.winExpired && !(leNat data).testBit 11 } }) ∧
   (∀ (s : State) (data : List Byte), s.power.state ≠ .off → data.length = 4 →
     exec (.regWrite 0x08 data none) s = .next { s with hw := { s.hw with
       hmiso := [], irq := s.hw.irq &&& ~~~(BitVec.ofNat 9 (leNat data) &&& 0x1FE), irqEn := BitVec.ofNat 9 (leNat data / 2 ^ 16) } }) ∧
   (∀ (s : State) (data : List Byte), s.coreOn = true → data.length = 4 →
     exec (.regWrite 0x0C data none) s = .next (writeRspCi (BitVec.ofNat 8 (leNat data / 2 ^ 24))
       (writeCmdPi (BitVec.ofNat 8 (leNat data)) { s with hw := { s.hw with hmiso := [] } }))) ∧
   (∀ (s : State) (addr : Byte) (data : List Byte), s.power.state ≠ .off → data.length < 4 →
     exec (.regWrite addr data none) s = .next { s with hw := { s.hw with hmiso := [] } }) ∧
   (∀ (s : State) (addr : Byte) (data : List Byte) (v : Option (BitVec 16)), s.power.state ≠ .off →
     v ≠ some (crc16 ([0x82, addr, 3] ++ data)) →
     exec (.regWrite addr data (some { count := 3, check := v })) s = .next { s with hw := { s.hw with
       hmiso := [], crcErr := true, crcCnt := satAdd s.hw.crcCnt 1, irq := s.hw.irq ||| 0x100 } }) ∧
   (∀ s : State, s.coreOn = true → s.hw.loaded = true →
     exec .trigger s = .next { s with energy := { s.energy with
       hostLatch := { image := some (s.circuits.map (fun c => c.totals)), seq := s.energy.hostLatch.seq + 1 } } }) ∧
   (∀ s : State, s.power.state ≠ .off → (s.coreOn && s.hw.loaded) = false →
     exec .trigger s = .next { s with hw := { s.hw with notAvail := true } }) ∧
   (∀ (s : State) (v : Byte), v ≠ 0x5A → exec (.force v) s = .next s)) ∧
  ((∀ (s : State) (v : Byte), s.coreOn = true → v ≠ s.hw.cmdPi → (v - s.hw.cmdCi).toNat ≤ 16 →
     (s.hw.cmdPi - s.hw.cmdCi).toNat ≤ (v - s.hw.cmdCi).toNat →
     exec (.cmdPiWrite v) s = .next { s with hw := { s.hw with cmdPi := v } }) ∧
   (∀ (s : State) (v : Byte), s.coreOn = true → v ≠ s.hw.cmdPi →
     16 < (v - s.hw.cmdCi).toNat ∨ (v - s.hw.cmdCi).toNat < (s.hw.cmdPi - s.hw.cmdCi).toNat →
     exec (.cmdPiWrite v) s = .next { s with hw := { s.hw with dbErr := true, irq := s.hw.irq ||| 0x100 } }) ∧
   (∀ s : State, s.coreOn = true → exec (.cmdPiWrite s.hw.cmdPi) s = .next s) ∧
   (∀ (s : State) (v : Byte), s.coreOn = true → v ≠ s.hw.rspCi → (s.hw.rspPi - v).toNat ≤ 64 →
     (s.hw.rspPi - v).toNat ≤ (s.hw.rspPi - s.hw.rspCi).toNat →
     ∃ t, exec (.rspCiWrite v) s = .next t ∧ t.hw = { s.hw with rspCi := v } ∧ t.mb.win = s.mb.win ∧ t.mb.tags = s.mb.tags ∧
       (∀ i, s.mb.bulk = .answered i → t.mb.bulk = if (i - s.hw.rspCi).toNat < (v - s.hw.rspCi).toNat then .free else s.mb.bulk) ∧
       ((∀ i, s.mb.bulk ≠ .answered i) → t.mb.bulk = s.mb.bulk)) ∧
   (∀ (s : State) (v : Byte), s.coreOn = true → v ≠ s.hw.rspCi →
     64 < (s.hw.rspPi - v).toNat ∨ (s.hw.rspPi - s.hw.rspCi).toNat < (s.hw.rspPi - v).toNat →
     exec (.rspCiWrite v) s = .next { s with hw := { s.hw with dbErr := true, irq := s.hw.irq ||| 0x100 } }) ∧
   (∀ s : State, s.coreOn = true → exec (.rspCiWrite s.hw.rspCi) s = .next s))

/-- R283, R284, R286, R290, R299: A window write, for every address and every data. Each byte lands where its area is open to the host; a byte
for a locked command slot, or for a bulk window that a command holds, is discarded and sets WIN_VIOL and the ERR flag; a byte for the
response ring, the reserved area or an address outside the map is ignored. A byte of the bulk window makes the host its owner. Nothing
else of the window and of the registers changes. The CRC form does the same where its check value and length match, and else only counts
the error; with the core unpowered nothing is written. -/
def Obligations.WindowWriteStoresUnlockedBytes : Prop :=
  (∀ (s : State) (addr : BitVec 16) (data : List Byte), s.coreOn = true →
    let slotHeld (a : Nat) : Prop := a < 0x0400 ∧ slotLocked s.hw (a / 64) = true
    let bulkArea (a : Nat) : Prop := 0x2000 ≤ a ∧ a < 0x3000
    let hostOwns : Prop := s.mb.bulk = .free ∨ s.mb.bulk = .filling
    ∃ t, exec (.winWrite addr data none) s = .next t ∧
      (∀ a, a < addr.toNat ∨ addr.toNat + data.length ≤ a → memGet 0 t.mb.win a = memGet 0 s.mb.win a) ∧
      (∀ k (h : k < data.length), addr.toNat + k < 0x0400 → slotLocked s.hw ((addr.toNat + k) / 64) = false →
        memGet 0 t.mb.win (addr.toNat + k) = data[k]) ∧
      (∀ k, k < data.length → slotHeld (addr.toNat + k) → memGet 0 t.mb.win (addr.toNat + k) = memGet 0 s.mb.win (addr.toNat + k)) ∧
      (∀ k (h : k < data.length), bulkArea (addr.toNat + k) → hostOwns → memGet 0 t.mb.win (addr.toNat + k) = data[k]) ∧
      (∀ k, k < data.length → bulkArea (addr.toNat + k) → ¬ hostOwns →
        memGet 0 t.mb.win (addr.toNat + k) = memGet 0 s.mb.win (addr.toNat + k)) ∧
      (∀ k, k < data.length → 0x0400 ≤ addr.toNat + k → ¬ bulkArea (addr.toNat + k) →
        memGet 0 t.mb.win (addr.toNat + k) = memGet 0 s.mb.win (addr.toNat + k)) ∧
      ((∃ k < data.length, slotHeld (addr.toNat + k) ∨ (bulkArea (addr.toNat + k) ∧ ¬ hostOwns)) →
        t.hw = { s.hw with hmiso := [], winViol := true, irq := s.hw.irq ||| 0x100 }) ∧
      ((∀ k < data.length, ¬ slotHeld (addr.toNat + k) ∧ (bulkArea (addr.toNat + k) → hostOwns)) →
        t.hw = { s.hw with hmiso := [] }) ∧
      (hostOwns → (∃ k < data.length, bulkArea (addr.toNat + k)) → t.mb.bulk = .filling ∧ t.mb.fillAt = s.time.ticks) ∧
      (¬ hostOwns ∨ (∀ k < data.length, ¬ bulkArea (addr.toNat + k)) → t.mb.bulk = s.mb.bulk ∧ t.mb.fillAt = s.mb.fillAt) ∧
      t = { s with hw := t.hw, mb := { s.mb with win := t.mb.win, bulk := t.mb.bulk, fillAt := t.mb.fillAt } }) ∧
  (∀ (s : State) (addr : BitVec 16) (data : List Byte) (f : CrcForm), s.coreOn = true →
    (f.check = some (crc16 ([0x8A] ++ leBytes 2 addr.toNat ++ [f.count] ++ data)) → data.length = f.count.toNat + 1 →
      ∃ t, exec (.winWrite addr data (some f)) s = .next t ∧ exec (.winWrite addr data none) s = .next t) ∧
    (f.check ≠ some (crc16 ([0x8A] ++ leBytes 2 addr.toNat ++ [f.count] ++ data)) ∨ data.length ≠ f.count.toNat + 1 →
      exec (.winWrite addr data (some f)) s = .next { s with hw := { s.hw with
        hmiso := [], crcErr := true, crcCnt := satAdd s.hw.crcCnt 1, irq := s.hw.irq ||| 0x100 } })) ∧
  (∀ (s : State) (addr : BitVec 16) (data : List Byte), s.power.state ≠ .off → s.coreOn = false →
    exec (.winWrite addr data none) s = .next { s with hw := { s.hw with hmiso := [] } })

/-- R291, R292, R295, R299: the consumer's checks in their order. A refusal is placed with TAG 0xFF and claims no tag; a descriptor that
passes claims the lowest free tag; CMD_CI advances and CMD_SPACE is set in every case; with no response room the descriptor waits. -/
def Obligations.ConsumerDecidesDescriptors : Prop :=
  ∀ (s : State) (d : List Byte), s.coreOn = true → s.hw.cmdCi ≠ s.hw.cmdPi → d = memSlice 0 s.mb.win (64 * (s.hw.cmdCi.toNat % 16)) 64 →
    (64 ≤ (s.hw.rspPi - s.hw.rspCi).toNat + localTags s.mb →
      ∃ t, exec .descriptorConsume s = .next t ∧ t.hw.rspFull = true ∧ t.hw.cmdCi = s.hw.cmdCi ∧ t.mb = s.mb ∧
        t.hw.rspStalls = if s.hw.rspFull then s.hw.rspStalls else satAdd s.hw.rspStalls 1) ∧
    ((s.hw.rspPi - s.hw.rspCi).toNat + localTags s.mb < 64 →
      ∃ t, exec .descriptorConsume s = .next t ∧ t.hw.cmdCi = s.hw.cmdCi + 1 ∧ t.hw.irq.getLsbD 1 = true ∧ t.hw.rspFull = false ∧
        (∀ st : Status,
          (leAt d 10 2 + dOpcode d ≠ 0xFFFF → st = .complement) →
          (leAt d 10 2 + dOpcode d = 0xFFFF → 48 < dLen d ∨ 4096 < dBulkLen d → st = .badLength) →
          (leAt d 10 2 + dOpcode d = 0xFFFF → dLen d ≤ 48 → dBulkLen d ≤ 4096 →
            dFlags d / 16 ≠ 0 ∨ leAt d 12 4 ≠ 0 ∨ 62 < dUnit d ∨ (dBulk d = true ∧ dLane d ≠ 3) → st = .range) →
          descCheck d ≠ none →
          t.mb.tags = s.mb.tags ∧ t.hw.rspPi = s.hw.rspPi + 1 ∧
            rspSlot t s.hw.rspPi = respBytes d st.code s.unitByte 0xFF [] 0 0 0) ∧
        (descCheck d = none → dBulk d = true → bulkClaimable .host s.mb.bulk = false →
          t.mb.tags = s.mb.tags ∧ rspSlot t s.hw.rspPi = respBytes d Status.busy.code s.unitByte 0xFF [] 0 0 0) ∧
        (∀ k, descCheck d = none → (dBulk d = true → bulkClaimable .host s.mb.bulk = true) → (freeTags s.mb).head? = some k →
          s.hw.mpReady = false → s.hw.swapping = false →
          t.mb.tags = s.mb.tags ∧ rspSlot t s.hw.rspPi = respBytes d Status.retry.code s.unitByte 0xFF [] 0 0 0) ∧
        (∀ k, descCheck d = none → (dBulk d = true → bulkClaimable .host s.mb.bulk = true) → (freeTags s.mb).head? = some k →
          s.hw.mpReady = true → s.hw.swapping = false →
          (∃ c, t.mb.tags = s.mb.tags.set k.val (some c) ∧ c.desc = d ∧ c.origin = .host ∧ c.started = false ∧
            c.remote = isRemote s d) ∧
            t.hw.rspPi = s.hw.rspPi ∧ t.mb.win = s.mb.win ∧ (dBulk d = true → t.mb.bulk = .claimed k)))

/-- R294, R295: a response of a local command is placed at RSP_PI with its fields, its bulk-out data from window offset 0x2000, and frees
the tag; a relayed command's response leaves in frames and keeps its tag. Nothing else of the window and no other tag changes. -/
def Obligations.AnswerPlacesResponse : Prop :=
  ∀ (t : Fin 64) (st : Status) (pay bulk : List Byte) (s : State) (c : Cmd), s.mb.tags[t] = some c → pay.length ≤ 48 →
    bulk.length ≤ 4096 →
    (isLocal c = true →
      rspSlot (answer t st pay bulk s) s.hw.rspPi =
          leBytes 2 (leAt c.desc 0 2) ++ leBytes 1 st.code ++ leBytes 1 s.ring.addr.toNat ++ leBytes 1 t.val ++ leBytes 1 pay.length ++
            leBytes 2 (leAt c.desc 6 2) ++ leBytes 2 bulk.length ++ leBytes 1 (yieldByte c s.draw.1 s.time.ticks) ++ leBytes 1 0 ++
            leBytes 4 (latencyUs c s.draw.1 s.time.ticks) ++ padTo 48 pay ∧
        (answer t st pay bulk s).hw = { s.hw with rspPi := s.hw.rspPi + 1 } ∧ (answer t st pay bulk s).mb.tags[t] = none ∧
        (∀ k (h : k < bulk.length), memGet 0 (answer t st pay bulk s).mb.win (0x2000 + k) = bulk[k]) ∧
        (∀ a, a < 0x0400 + 64 * (s.hw.rspPi.toNat % 64) ∨ 0x0400 + 64 * (s.hw.rspPi.toNat % 64) + 64 ≤ a →
          a < 0x2000 ∨ 0x2000 + bulk.length ≤ a → memGet 0 (answer t st pay bulk s).mb.win a = memGet 0 s.mb.win a) ∧
        (s.mb.bulk = .claimed t → (answer t st pay bulk s).mb.bulk = .answered s.hw.rspPi) ∧
        (s.mb.bulk ≠ .claimed t → (answer t st pay bulk s).mb.bulk = s.mb.bulk)) ∧
    (isLocal c = false → (answer t st pay bulk s).mb.tags[t] = some { c with started := true, waiting := false } ∧
      (answer t st pay bulk s).hw = s.hw ∧ s.ring.txq.length ≤ (answer t st pay bulk s).ring.txq.length) ∧
    (∀ u : Fin 64, u ≠ t → (answer t st pay bulk s).mb.tags[u] = s.mb.tags[u])

/-- R296, R311: the common checks of a command of any row of the group tables, in their order; the first that fails decides the status and
nothing else changes. The hypotheses leave the command's own conditions to the statements of its row. -/
def Obligations.CommonChecksRefuse : Prop :=
  (∀ (row : CmdRow) (body : CmdIn → State → Reply) (t : Fin 64) (c : Cmd) (s : State), s.mb.tags[t] = some c →
    leAt c.desc 0 2 = row.op → startable t c s = true →
    (leAt c.desc 2 1 % 4 ≠ row.lane → runCmd row body t s = answer t .range [] [] s) ∧
    (leAt c.desc 2 1 % 4 = row.lane →
      (leAt c.desc 5 1 ≠ row.len ∨ (leAt c.desc 2 1).testBit 2 ≠ row.bulkIn.isSome ∨ (leAt c.desc 2 1).testBit 3 ≠ row.bulkOut ∨
        (row.bulkIn = none ∧ leAt c.desc 8 2 ≠ 0) → runCmd row body t s = answer t .badLength [] [] s) ∧
      (lengthsOk row c.desc (dPayload c.desc) (bulkOf c s) = true →
        (row.head = true → s.ring.isHead = false → runCmd row body t s = answer t .notHead [] [] s) ∧
        ((row.head = true → s.ring.isHead = true) →
          (row.spiOnly = true → c.origin ≠ .host → runCmd row body t s = answer t .denied [] [] s) ∧
          ((row.spiOnly = true → c.origin = .host) →
            (row.states.contains s.sec.state = false → s.sec.state ≠ .sealed → runCmd row body t s = answer t .denied [] [] s) ∧
            (row.states.contains s.sec.state = false → s.sec.state = .sealed → row.ordered = false →
              runCmd row body t s = answer t .sealed [] [] s) ∧
            (row.states.contains s.sec.state = true → row.d2 = true → s.sec.debug = 2 →
              runCmd row body t s = answer t .denied [] [] s) ∧
            (row.states.contains s.sec.state = true → row.d2 = false → row.lean = false →
              ((∃ p ∈ row.pairs, pairOk p.2 (dPayload c.desc) p.1 = false) → runCmd row body t s = answer t .complement [] [] s) ∧
              ((∀ p ∈ row.pairs, pairOk p.2 (dPayload c.desc) p.1 = true) → (∃ r ∈ row.rsv, leAt (dPayload c.desc) r.1 r.2 ≠ 0) →
                runCmd row body t s = answer t .range [] [] s))))))) ∧
  (∀ (t : Fin 64) (c : Cmd) (s : State), s.mb.tags[t] = some c → startable t c s = true → leAt c.desc 0 2 ≠ 0x0100 →
    (∀ p ∈ ([(1, 1), (2, 6), (3, 5), (4, 13), (5, 7), (6, 9), (7, 18), (8, 4), (9, 9), (10, 9), (11, 7), (12, 8), (13, 4), (14, 3)] :
      List (Nat × Nat)), leAt c.desc 0 2 ≤ 256 * p.1 ∨ 256 * p.1 + p.2 < leAt c.desc 0 2) →
    exec (.badOpcode t) s = .next (answer t .badOpcode [] [] s))

/-- R141, R306, R425, R429, R435: an MP reset, the watchdog's, one by FORCE, or one of another cause. Every local command of this unit that has
no response gets one, INTERRUPTED where it was in execution and RETRY where it was queued, and frees its tag; a command that came from
another unit is answered in frames; a command relayed to another unit keeps its tag. Open calibration transactions and nonces are void, the
debug level is D0, no request of the store keeps an owner, and of the window only the response ring changes. -/
def Obligations.MpResetDropsWork : Prop :=
  (∀ s : State, s.coreOn = true →
    (∀ i : Instr, i = .mpReset ∨ i = .force 0x5A ∨ (i = .watchdogExpiry ∧ s.hw.mpRun = true ∧ s.mp.halted = false) →
      ∃ t, exec i s = .next t ∧ t.hw.mpReady = false ∧ t.hw.mpRun = true ∧ t.mp.halted = false ∧ t.hw.swapping = false ∧
        t.mp.swapTag = none ∧ t.hw.mpResets = satAdd s.hw.mpResets 1 ∧
        t.hw.irq.getLsbD 4 = true ∧ t.sec.unsealNonce = none ∧ t.sec.debugNonce = none ∧ t.sec.debug = 0 ∧
        t.hw.wdogFired = (s.hw.wdogFired || decide (i = .watchdogExpiry)) ∧ t.hw.cmdPi = s.hw.cmdPi ∧ t.hw.cmdCi = s.hw.cmdCi ∧
        t.sec.state = s.sec.state ∧ t.circuits = s.circuits ∧ t.clk = s.clk ∧
        (∀ x ∈ t.cal.txns, x ∈ s.cal.txns ∧ x.st ≠ .opened) ∧ (∀ r ∈ t.firn.reqs, r.tag = none) ∧
        (∀ a, a < 0x0400 ∨ 0x1400 ≤ a → memGet 0 t.mb.win a = memGet 0 s.mb.win a) ∧
        (∀ u : Fin 64, s.mb.tags[u] = none → t.mb.tags[u] = none) ∧
        (∀ u : Fin 64, ∀ c, s.mb.tags[u] = some c →
          (c.remote = true → t.mb.tags[u] = some c) ∧
          (c.remote = false → isLocal c = true → c.started = false ∨ c.waiting = true → t.mb.tags[u] = none ∧
            ∃ j < 64, let r := rspSlot t (s.hw.rspPi + BitVec.ofNat 8 j)
              leAt r 0 2 = leAt c.desc 0 2 ∧ leAt r 2 1 = (if c.started then 0x13 else 0x02) ∧ leAt r 4 1 = u.val) ∧
          (c.remote = false → isLocal c = false → c.started = false ∨ c.waiting = true →
            t.mb.tags[u] = some { c with started := true, waiting := false })))) ∧
  (∀ s : State, s.coreOn = true → s.hw.mpRun = false ∨ s.mp.halted = true → exec .watchdogExpiry s = .next s) ∧
  (∀ (s : State) (i : Instr), s.coreOn = false → i = .mpReset ∨ i = .force 0x5A ∨ i = .watchdogExpiry → exec i s = .next s)

/-- R299, R301, R307, R415, R416, R434, R75, R119, R287, R426, R427, R429: The events of the window, of a relay, and of the start, swap and
reversion of firmware. What the debug port and the MP's own events change. -/
def Obligations.FirmwareAndDebugEvents : Prop :=
  ((∀ s : State, s.coreOn = true → s.mb.bulk = .filling → s.mb.fillAt + 3200 ≤ s.time.ticks →
     exec .winExpired s = .next { s with mb := { s.mb with bulk := .free }, hw := { s.hw with winExpired := true } }) ∧
   (∀ (s : State) (t : Fin 64) (c : Cmd), s.coreOn = true → s.mb.tags[t] = some c → c.remote = true →
     c.claimed + (match leAt c.desc 2 1 % 4 with | 0 => 640 | 1 => 3200 | 2 => 32000 | _ => 320000) ≤ s.time.ticks →
     exec (.relayTimeout t) s = .next (answer t .timeout [] [] { s with ring := { s.ring with
       push := s.ring.push.filter (fun e => e.2 ≠ some t),
       txq := s.ring.txq.map (fun f => if f.tag = some t then { f with tag := none } else f) } })) ∧
   (∀ s : State, s.coreOn = true → s.hw.loaded = true → s.hw.mpReady = false → s.hw.swapping = false →
     let own := (s.mp.banks[if s.hw.bank then (1 : Fin 2) else 0]).st
     let other := (s.mp.banks[if s.hw.bank then (0 : Fin 2) else 1]).st
     (own = .running ∨ own = .verified → ∃ t, exec .mpReady s = .next t ∧ t.hw.mpReady = true ∧ t.hw.mpRun = true ∧ t.hw.bank = s.hw.bank) ∧
     (own ≠ .running → own ≠ .verified → other = .running ∨ other = .verified →
       ∃ t, exec .mpReady s = .next t ∧ t.hw.mpReady = true ∧ t.hw.bank = !s.hw.bank ∧
         (t.mp.banks[if s.hw.bank then (1 : Fin 2) else 0]).st = .failed) ∧
     (own ≠ .running → own ≠ .verified → other ≠ .running → other ≠ .verified →
       exec .mpReady s = .next { s with hw := { s.hw with mpRun := false } })) ∧
   (∀ (s : State) (t : Fin 64), s.coreOn = true → s.mp.swapTag = some t → s.hw.swapping = true →
     ∃ u, exec .swapComplete s = .next u ∧ u.hw.mpReady = true ∧ u.hw.bank = !s.hw.bank ∧ u.hw.swapping = false ∧
       u.hw.irq.getLsbD 5 = true ∧ u.mp.swapTag = none) ∧
   (∀ s : State, s.coreOn = true → s.hw.swapping = true →
     ∃ u, exec .fwRevert s = .next u ∧ u.hw.mpReady = false ∧ u.hw.bank = s.hw.bank ∧ u.hw.swapping = false ∧ u.mp.swapTag = none ∧
       (u.mp.banks[if s.hw.bank then (0 : Fin 2) else 1]).st = .failed) ∧
   (∀ s : State, s.coreOn = true → s.hw.swapping = false → 2 ≤ s.mp.swapFires → s.mp.swapFrom ≠ s.hw.bank →
     ∃ u, exec .fwRevert s = .next u ∧ u.hw.mpReady = false ∧ u.hw.bank = !s.hw.bank ∧
       (u.mp.banks[if s.hw.bank then (1 : Fin 2) else 0]).st = .failed)) ∧
  ((∀ (s : State) (d : Nat), s.sec.debugLeft = some d → s.sec.debugFrom + 32000 * d ≤ s.time.ticks → s.sec.debug ≠ 0 →
     exec .debugExpiry s = .next { s with sec := { s.sec with debug := 0, debugLeft := none }, hw := { s.hw with irq := s.hw.irq ||| 0x80 } }) ∧
   (∀ (s : State) (key : BitVec 512), s.coreOn = true → s.sec.debug = 2 → s.sec.state = .factory → s.sec.makerKey = none →
     exec (.makerKeyWrite key) s = .next { s with sec := { s.sec with makerKey := some key } }) ∧
   (∀ (s : State) (key : BitVec 512), s.sec.debug ≠ 2 ∨ s.sec.state ≠ .factory ∨ s.sec.makerKey ≠ none →
     exec (.makerKeyWrite key) s = .next s) ∧
   (∀ s : State, s.coreOn = true → s.sec.debug = 2 →
     exec .mpHalt s = .next { s with mp := { s.mp with halted := true } } ∧
     (s.mp.halted = true → exec (.mpResume false) s = .next { s with mp := { s.mp with halted := false } } ∧
       exec (.mpResume true) s = .next { s with mp := { s.mp with halted := true } }) ∧
     (s.hw.mpRun = true → exec .breakpointHit s = .next { s with mp := { s.mp with halted := true } })) ∧
   (∀ s : State, s.sec.debug ≠ 2 → exec .mpHalt s = .next s ∧ (∀ b, exec (.mpResume b) s = .next s) ∧ exec .breakpointHit s = .next s) ∧
   (∀ s : State, s.mpRuns = true → s.stalled 6 = false → 0 < s.mp.events ∨ s.energy.dirHw ≠ [] →
     exec .mpEventPost s = .next { s with
       energy := { s.energy with dirQueue := s.energy.dirQueue ++ s.energy.dirHw, dirHw := [] }, mp := { s.mp with events := 0 },
       hw := { s.hw with irq := s.hw.irq ||| 4 } }))

/-- R316, R329: the readings of the identity, firmware and debug groups, and what the nonce commands keep. -/
def Obligations.IdentityCommandsAnswer : Prop :=
  ∀ (t : Fin 64) (c : Cmd) (s : State),
    let bank := s.mp.banks[if s.hw.bank then (1 : Fin 2) else 0]
    (Takes { op := 0x0100, lane := 0, len := 0 } t c s → exec (.ping t) s = .next (answer t .ok [] [] s)) ∧
    (Takes { op := 0x0101, lane := 1, len := 0 } t c s → exec (.idRead t) s = .next (answer t .ok
      (([0x24, 0x48, 0xB0, if Config.gradeX then 0x58 else 0x49] : List Byte) ++ leBytes 8 Config.uid.toNat ++ leBytes 4 bank.version.toNat ++
        leBytes 1 (bitN s.hw.bank) ++ leBytes 1 s.ring.addr.toNat ++ ([0x02, 0x03, 0, 0, 0, 0] : List Byte)) [] s)) ∧
    (Takes { op := 0x0201, lane := 1, len := 0 } t c s → exec (.lcRead t) s = .next (answer t .ok
      (leBytes 1 (lifecycleCode s.sec.state) ++ leBytes 1 (s.sec.debug).toNat ++ leBytes 2 0 ++ leBytes 4 s.sec.sealBreaks.toNat ++
        leBytes 32 bank.legalHash.toNat) [] s)) ∧
    (Takes { op := 0x0204, lane := 2, len := 0, states := [.sealed] } t c s → exec (.unsealNonce t) s = .next (answer t .ok
      (leBytes 16 (Config.nonce s.fresh).toNat) []
      { s with fresh := s.fresh + 1, sec := { s.sec with unsealNonce := some (Config.nonce s.fresh) } })) ∧
    (Takes { op := 0x0D01, lane := 1, len := 0 } t c s → exec (.fwInfo t) s = .next (answer t .ok
      (leBytes 1 (bankStateCode (s.mp.banks[0]).st) ++ leBytes 1 0 ++ leBytes 4 (s.mp.banks[0]).version.toNat ++
        leBytes 8 (s.mp.banks[0]).legalHash.toNat ++ leBytes 1 (bankStateCode (s.mp.banks[1]).st) ++ leBytes 1 0 ++
        leBytes 4 (s.mp.banks[1]).version.toNat ++ leBytes 8 (s.mp.banks[1]).legalHash.toNat) [] s)) ∧
    (Takes { op := 0x0E01, lane := 2, len := 0, spiOnly := true } t c s → exec (.dbgNonce t) s = .next (answer t .ok
      (leBytes 16 (Config.nonce s.fresh).toNat) []
      { s with fresh := s.fresh + 1, sec := { s.sec with debugNonce := some (Config.nonce s.fresh) } })) ∧
    (Takes { op := 0x0E03, lane := 0, len := 0, spiOnly := true } t c s → s.sec.debug ≠ 0 → exec (.dbgDrop t) s = .next (answer t .ok [0] []
      { s with sec := { s.sec with debug := 0, debugLeft := none }, hw := { s.hw with irq := s.hw.irq ||| 0x80 } }))

/-- R130: SEAL is refused with UNCALIBRATED while any channel used by an enabled circuit, a port or a voltage input of one of its elements,
is uncalibrated. -/
def Obligations.UncalibratedRefusesSeal : Prop :=
  ∀ (t : Fin 64) (c : Cmd) (s : State) (k : Fin 24),
    Takes { op := 0x0203, lane := 2, len := 8, states := [.opened], d2 := true, pairs := [(0, 4)] } t c s → payField c 0 4 = 0x4C414553 →
    cirEn (s.circuits[k]).cfg = true →
    ((∃ p ∈ cirPorts (s.circuits[k]).cfg, (s.ports[p]).uncal = true) → exec (.seal t) s = .next (answer t .uncalibrated [] [] s)) ∧
    ((∃ e < 4, ∃ v, elemVoltIdx (s.circuits[k]).cfg e = some v ∧ (s.volts[v]).uncal = true) →
      exec (.seal t) s = .next (answer t .uncalibrated [] [] s))

/-- R130, R316, R420, R424, R425: each transition's command asks for the store of its SEAL group, or refuses; UNSEAL consumes its nonce in
either case. -/
def Obligations.LifecycleCommandsAskForStores : Prop :=
  ∀ (t : Fin 64) (c : Cmd) (s : State), s.hw.frozen = false →
    (Takes { op := 0x0202, lane := 2, len := 8, states := [.factory], pairs := [(0, 4)] } t c s →
      (payField c 0 4 = 0x4E45504F →
        exec (.lcOpen t) s = .next (openStore (.lifecycle .opened false s.stamp s.clk.legal.count) (some t) s)) ∧
      (payField c 0 4 ≠ 0x4E45504F → exec (.lcOpen t) s = .next (answer t .range [] [] s))) ∧
    (Takes { op := 0x0203, lane := 2, len := 8, states := [.opened], d2 := true, pairs := [(0, 4)] } t c s → payField c 0 4 = 0x4C414553 →
      (∀ k : Fin 24, cirEn (s.circuits[k]).cfg = true → (∀ p ∈ cirPorts (s.circuits[k]).cfg, (s.ports[p]).uncal = false) ∧
        (∀ e < 4, ∀ v, elemVoltIdx (s.circuits[k]).cfg e = some v → (s.volts[v]).uncal = false)) →
      (s.sec.makerKey ≠ none →
        exec (.seal t) s = .next (openStore (.lifecycle .sealed false s.stamp s.clk.legal.count) (some t) s)) ∧
      (s.sec.makerKey = none → exec (.seal t) s = .next (answer t .denied [] [] s))) ∧
    (Takes { op := 0x0203, lane := 2, len := 8, states := [.opened], d2 := true, pairs := [(0, 4)] } t c s → payField c 0 4 = 0x4C414553 →
      (∃ k : Fin 24, cirEn (s.circuits[k]).cfg = true ∧ ∃ p ∈ cirPorts (s.circuits[k]).cfg, (s.ports[p]).uncal = true) →
      exec (.seal t) s = .next (answer t .uncalibrated [] [] s)) ∧
    (Takes { op := 0x0205, lane := 3, len := 0, bulkIn := some (fun _ b => decide (b.length = 128)), states := [.sealed], d2 := true } t c s →
      let rec' := bulkOf c s
      let spent := { s with sec := { s.sec with unsealNonce := none } }
      (leAt rec' 0 4 = 0x4C534E55 → leAt rec' 32 32 = 0 →
        (∀ n k, s.sec.unsealNonce = some n → n.toNat = leAt rec' 16 16 → leAt rec' 4 4 = s.sec.sealBreaks.toNat →
          s.sec.makerKey = some k →
          exec (.unseal t) s = .next (if leAt rec' 8 8 = Config.uid.toNat ∧ Config.verifies k (rec'.take 64) (rec'.drop 64) = true then
            openStore (.lifecycle .opened true s.stamp s.clk.legal.count) (some t) spent else answer t .badSignature [] [] spent)) ∧
        (s.sec.unsealNonce.map (·.toNat) ≠ some (leAt rec' 16 16) ∨ leAt rec' 4 4 ≠ s.sec.sealBreaks.toNat →
          exec (.unseal t) s = .next (answer t (if leAt rec' 8 8 = Config.uid.toNat then .stale else .badSignature) [] [] spent))) ∧
      (leAt rec' 0 4 ≠ 0x4C534E55 → exec (.unseal t) s = .next (answer t .range [] [] s))) ∧
    (Takes { op := 0x0206, lane := 2, len := 8, states := [.factory, .opened, .sealed], d2 := true, pairs := [(0, 4)] } t c s →
      payField c 0 4 = 0x49544552 →
      exec (.retire t) s = .next (openStore (.lifecycle .retired false s.stamp s.clk.legal.count) (some t) s))

/-- R307, R329, R330, R433, R428, R429, R431: Loading, checking and swapping the bank that is not running. A debug grant that passes its
checks sets the level it names and consumes its nonce. -/
def Obligations.FirmwareAndGrantCommands : Prop :=
  (∀ (t : Fin 64) (c : Cmd) (s : State),
     let o : Fin 2 := if s.hw.bank then 0 else 1
     let b := s.mp.banks[o]
     let put := fun (x : FwBank) => { s with mp := { s.mp with banks := s.mp.banks.set o x } }
     (Takes { op := 0x0D02, lane := 3, len := 5, bulkIn := some (fun _ d => decide (1 ≤ d.length) && decide (d.length ≤ 4096)),
              states := [.factory, .opened, .sealed] } t c s → s.hw.swapping = false →
       payField c 0 4 % 4096 = 0 → payField c 0 4 < 1048576 →
       (payField c 4 1 = 0 → exec (.fwLoad t) s = .next (answer t .ok [] [] (put
         { b with st := .loading, image := memPuts 0xFF b.image (payField c 0 4) (bulkOf c s) }))) ∧
       (payField c 4 1 = 1 → exec (.fwLoad t) s = .next (answer t .ok [] [] (put
         { b with st := .loading, image := memPuts 0xFF [] (payField c 0 4) (bulkOf c s) })))) ∧
     (Takes { op := 0x0D03, lane := 3, len := 0, states := [.factory, .opened, .sealed] } t c s →
       (b.st = .empty → exec (.fwVerify t) s = .next (answer t .noImage [] [] s)) ∧
       (b.st ≠ .empty →
         let hdr := memSlice 0xFF b.image 0 128
         exec (.fwVerify t) s = .next (if imageGood b.image = true then
           answer t .ok (leBytes 4 (leAt hdr 4 4) ++ leBytes 32 (leAt hdr 32 32)) []
             (put { b with st := .verified, version := BitVec.ofNat 32 (leAt hdr 4 4), legalHash := BitVec.ofNat 256 (leAt hdr 32 32) })
           else answer t .badSignature [] [] (put { b with st := .failed })))) ∧
     (Takes { op := 0x0D04, lane := 2, len := 2, states := [.factory, .opened, .sealed], d2 := true, pairs := [(0, 1)] } t c s →
       (payField c 0 1 = bitN s.hw.bank → exec (.fwSwap t) s = .next (answer t .range [] [] s)) ∧
       (payField c 0 1 = 1 - bitN s.hw.bank → b.st ≠ .verified → exec (.fwSwap t) s = .next (answer t .noImage [] [] s)) ∧
       (payField c 0 1 = 1 - bitN s.hw.bank → b.st = .verified → s.hw.frozen = false →
         (s.sec.state = .sealed → b.legalHash = (s.mp.banks[if s.hw.bank then (1 : Fin 2) else 0]).legalHash) →
         ∃ u, exec (.fwSwap t) s = .next u ∧ u.hw.swapping = true ∧ u.hw.mpReady = false ∧ u.hw.bank = s.hw.bank ∧
           u.mp.swapTag = some t ∧ u.mb.tags[t] = some { c with started := true, waiting := true, startedAt := some s.time.ticks } ∧
           (∀ v : Fin 64, ∀ d, v ≠ t → s.mb.tags[v] = some d → d.remote = false → isLocal d = true → d.started = false →
             u.mb.tags[v] = none)))) ∧
  (∀ (t : Fin 64) (c : Cmd) (s : State),
     Takes { op := 0x0E02, lane := 3, len := 1, bulkIn := some (fun _ b => decide (b.length = 128)), spiOnly := true } t c s →
     let g := bulkOf c s
     let level := payField c 0 1
     (leAt g 0 4 = 0x47554244 ∧ leAt g 4 4 = 0 ∧ leAt g 32 1 = level ∧ leAt g 33 3 = 0 ∧ leAt g 40 24 = 0) →
     (level = 1 ∨ level = 2 ∧ s.sec.state ≠ .sealed) →
     let spent := { s.sec with debugNonce := none }
     (∀ n, s.sec.debugNonce = some n → n.toNat = leAt g 16 16 →
       exec (.dbgAuth t) s = .next (if leAt g 8 8 = Config.uid.toNat ∧ (s.sec.state = .factory ∨
           s.sec.makerKey.map (fun k => Config.verifies k (g.take 64) (g.drop 64)) = some true) then
         answer t .ok (leBytes 1 level) [] { s with
           sec := { spent with debug := BitVec.ofNat 2 level, debugLeft := if leAt g 36 4 = 0 then none else some (leAt g 36 4),
                               debugFrom := s.time.ticks },
           hw := if (s.sec.debug).toNat = level then s.hw else { s.hw with irq := s.hw.irq ||| 0x80 } }
         else answer t .badSignature [] [] { s with sec := spent })) ∧
     (s.sec.debugNonce = none → exec (.dbgAuth t) s = .next (answer t
       (if leAt g 8 8 = Config.uid.toNat then .stale else .badSignature) [] [] { s with sec := spent })))

/-- R30, R31, R52, R317, R50, R54, R55, R64, R77, R317, R318, R319: CIR_READ gives the values last written, PORT_STATUS the matching
registers and clears the two counts that a read clears. A change of a circuit's map, scale or limits asks for the store that comes
before its registers; a scale with CLEAR = 0 is accepted only where it changes nothing. -/
def Obligations.CircuitCommandsTakeEffect : Prop :=
  (∀ (t : Fin 64) (c : Cmd) (s : State),
     (∀ k : Fin 24, Takes { op := 0x0302, lane := 1, len := 1 } t c s → payField c 0 1 = k.val + 1 →
       let r := s.circuits[k]
       exec (.cirRead t) s = .next (answer t .ok
         (leBytes 4 r.cfgW.toNat ++ leBytes 4 r.quantumW.toNat ++ leBytes 6 r.pfsW.toNat ++ leBytes 1 r.zcToW.toNat ++
           leBytes 1 (bitN (r.cfg != r.cfgW) + 2 * bitN (r.quantum != r.quantumW || r.pfs != r.pfsW) +
             4 * bitN (r.zcTo != r.zcToW || decide (r.nl ≠ r.nlW))) ++
           leBytes 8 r.keW.toNat ++ leBytes 4 r.nlW.p.toNat ++ leBytes 4 r.nlW.q.toNat ++ leBytes 4 r.nlW.s.toNat) [] s)) ∧
     (∀ p : Fin 24, Takes { op := 0x0305, lane := 1, len := 1 } t c s → payField c 0 1 = p.val + 1 →
       let r := s.ports[p]
       exec (.portStatus t) s = .next (answer t .ok
         (leBytes 4 (matchStat r) ++ leBytes 4 r.gUse.toNat ++ leBytes 4 r.dUse.toNat ++ leBytes 4 r.cfgW.toNat) []
         { s with ports := s.ports.set p { r with rejects := 0, switches := 0 } })) ∧
     (Takes { op := 0x0302, lane := 1, len := 1 } t c s → payField c 0 1 = 0 ∨ 24 < payField c 0 1 →
       exec (.cirRead t) s = .next (answer t .range [] [] s)) ∧
     (Takes { op := 0x0305, lane := 1, len := 1 } t c s → payField c 0 1 = 0 ∨ 24 < payField c 0 1 →
       exec (.portStatus t) s = .next (answer t .range [] [] s))) ∧
  (∀ (t : Fin 64) (c : Cmd) (s : State), s.hw.frozen = false →
     (Takes { op := 0x0301, lane := 3, len := 0, bulkIn := some (fun _ b => mapLenOk b), states := [.factory, .opened, .sealed] } t c s →
       (mapOk s (bulkOf c s) = true → (s.sec.state = .sealed → sealedMapOk s (bulkOf c s) = true) →
         exec (.cirMapWrite t) s = .next (openStore (.cirMap (mapCirs (bulkOf c s)) (mapPorts (bulkOf c s))) (some t) s)) ∧
       (s.sec.state = .sealed → sealedMapOk s (bulkOf c s) = false → exec (.cirMapWrite t) s = .next (answer t .sealed [] [] s)) ∧
       (s.sec.state ≠ .sealed → mapOk s (bulkOf c s) = false → exec (.cirMapWrite t) s = .next (answer t .range [] [] s))) ∧
     (∀ k : Fin 24, Takes { op := 0x0303, lane := 2, len := 24, states := [.factory, .opened], d2 := true, pairs := [(4, 4), (12, 6)],
                            rsv := [(2, 2)] } t c s → payField c 0 1 = k.val + 1 →
       let q := payField c 4 4
       let p := payField c 12 6
       (payField c 1 1 = 1 → 1 ≤ q → q ≤ 1000000 → 1 ≤ p → rateOk (cirNv (s.circuits[k]).cfgW) p q = true →
         (∀ o : Fin 8, cfEn (s.cfs[o]).cfgW = false ∨ cfCir (s.cfs[o]).cfgW ≠ some k) →
         exec (.cirScale t) s = .next (openStore (.cirScaleLog k (BitVec.ofNat 32 q) (BitVec.ofNat 48 p)) (some t) s)) ∧
       (payField c 1 1 = 1 → scaleOk s k q p = true →
         exec (.cirScale t) s = .next (openStore (.cirScaleLog k (BitVec.ofNat 32 q) (BitVec.ofNat 48 p)) (some t) s)) ∧
       (1 < payField c 1 1 ∨ (payField c 1 1 = 1 ∧ scaleOk s k q p = false) → exec (.cirScale t) s = .next (answer t .range [] [] s)) ∧
       (payField c 1 1 = 0 → q = (s.circuits[k]).quantumW.toNat → p = (s.circuits[k]).pfsW.toNat →
         exec (.cirScale t) s = .next (answer t .ok (leBytes 4 s.cal.cnt.toNat) [] s)) ∧
       (payField c 1 1 = 0 → q ≠ (s.circuits[k]).quantumW.toNat ∨ p ≠ (s.circuits[k]).pfsW.toNat →
         exec (.cirScale t) s = .next (answer t .range [] [] s))) ∧
     (∀ k : Fin 24, Takes { op := 0x0304, lane := 2, len := 16, states := [.factory, .opened], rsv := [(2, 2)] } t c s →
       payField c 0 1 = k.val + 1 →
       (10 ≤ payField c 1 1 → payField c 1 1 ≤ 200 → exec (.cirLimits t) s = .next (openStore (.cirLimits k (BitVec.ofNat 8 (payField c 1 1))
         { p := BitVec.ofNat 32 (payField c 4 4), q := BitVec.ofNat 32 (payField c 8 4), s := BitVec.ofNat 32 (payField c 12 4) }) (some t) s)) ∧
       (payField c 1 1 < 10 ∨ 200 < payField c 1 1 → exec (.cirLimits t) s = .next (answer t .range [] [] s))))

/-- R131, R132, R138, R140, R320, R33, R124, R133, R320: Opening, reading and aborting a transaction. A target that has one, and a fifth
one, hear BUSY; a target that has none hears NO_TXN; the active records stay in use. A load of a covered channel puts each selected
coefficient of RECORD into the shadow record and marks the channel loaded; a pair that fails, a value out of range and a channel that
the transaction does not cover change nothing. -/
def Obligations.CalTransactionsWork : Prop :=
  (∀ (t : Fin 64) (c : Cmd) (s : State) (g : CalTarget), NamesTarget c g →
     (Takes { op := 0x0401, lane := 2, len := 2, states := [.factory, .opened] } t c s →
       ((∀ u ∈ s.cal.txns, u.target = g → u.st = .done ∨ u.st = .stale) → (s.cal.txns.filter liveTxn).length < 4 →
         ∃ s', exec (.calOpen t) s = .next (answer t .ok (leBytes 4 (targetChans s g).toNat) [] s') ∧
           findTxn s' g = some { target := g, chans := targetChans s g, loaded := 0, st := .opened, cnt := 0, left := 0, pqLeft := false } ∧
           (∀ p : Fin 24, (s'.ports[p]).cal = (s.ports[p]).cal ∧ (s'.ports[p]).shadow =
             if (targetChans s g).getLsbD p.val then withComplement (s.ports[p]).cal else (s.ports[p]).shadow) ∧
           (∀ v : Fin 8, (s'.volts[v]).cal = (s.volts[v]).cal ∧ (s'.volts[v]).shadow =
             if (targetChans s g).getLsbD (24 + v.val) then withComplement (s.volts[v]).cal else (s.volts[v]).shadow)) ∧
       ((∃ u ∈ s.cal.txns, u.target = g ∧ u.st ≠ .done ∧ u.st ≠ .stale) ∨ 4 ≤ (s.cal.txns.filter liveTxn).length →
         exec (.calOpen t) s = .next (answer t .busy [] [] s))) ∧
     (Takes { op := 0x0405, lane := 2, len := 2 } t c s →
       (∀ u, findTxn s g = some u → u.st ≠ .stale → exec (.calStatus t) s = .next (answer t .ok
         (leBytes 1 (match u.st with | .opened => 0 | .deferred => 1 | .storing => 2 | .armed => 3 | _ => 4) ++ leBytes 3 0 ++
           leBytes 4 u.loaded.toNat ++ leBytes 4 u.cnt.toNat) [] s)) ∧
       (findTxn s g = none → exec (.calStatus t) s = .next (answer t .noTxn [] [] s))) ∧
     (Takes { op := 0x0404, lane := 2, len := 2, states := [.factory, .opened, .sealed] } t c s →
       (∀ u, findTxn s g = some u → u.st = .opened → (∀ r ∈ s.firn.reqs, r.change ≠ .calCommit g) →
         exec (.calAbort t) s = .next (answer t .ok [] []
           { s with cal := { s.cal with txns := s.cal.txns.filter (fun u => decide (u.target ≠ g)) } })) ∧
       (∀ u, findTxn s g = some u → u.st = .deferred ∨ u.st = .storing ∨ u.st = .armed →
         exec (.calAbort t) s = .next (answer t .busy [] [] s)) ∧
       (findTxn s g = none → exec (.calAbort t) s = .next (answer t .noTxn [] [] s)))) ∧
  (∀ (t : Fin 64) (c : Cmd) (s : State) (g : CalTarget) (u : Txn) (p : Fin 24),
     Takes { op := 0x0402, lane := 2, len := 20, states := [.factory, .opened] } t c s → NamesTarget c g → findTxn s g = some u →
     u.st = .opened → payField c 2 1 = p.val + 1 → payField c 3 1 < 8 →
     let m := payField c 3 1
     let pairs := (m.testBit 0 = true → payField c 4 3 + payField c 7 3 = 0xFFFFFF) ∧
       (m.testBit 1 = true → payField c 10 2 + payField c 12 2 = 0xFFFF) ∧ (m.testBit 2 = true → payField c 14 3 + payField c 17 3 = 0xFFFFFF)
     let ranges := (m.testBit 0 = true → 0x300000 ≤ payField c 4 3 ∧ payField c 4 3 ≤ 0x500000) ∧
       (m.testBit 1 = true → (BitVec.ofNat 16 (payField c 10 2)).toInt.natAbs ≤ 4096)
     (pairs → ranges → u.chans.getLsbD p.val = true → m ≠ 0 →
       ∃ s' u', exec (.calLoad t) s = .next (answer t .ok [] [] s') ∧ findTxn s' g = some u' ∧
         u' = { u with loaded := u.loaded ||| BitVec.ofNat 32 (2 ^ p.val) } ∧
         (s'.ports[p]).shadow.val = {
           gain := if m.testBit 0 then BitVec.ofNat 24 (payField c 4 3) else (s.ports[p]).shadow.val.gain,
           phase := if m.testBit 1 then BitVec.ofNat 16 (payField c 10 2) else (s.ports[p]).shadow.val.phase,
           offset := if m.testBit 2 then BitVec.ofNat 24 (payField c 14 3) else (s.ports[p]).shadow.val.offset } ∧
         (s'.ports[p]).cal = (s.ports[p]).cal ∧ (∀ q : Fin 24, q ≠ p → s'.ports[q] = s.ports[q]) ∧ s'.volts = s.volts) ∧
     (¬ pairs → exec (.calLoad t) s = .next (answer t .complement [] [] s)) ∧
     (pairs → ¬ ranges → exec (.calLoad t) s = .next (answer t .range [] [] s)) ∧
     (pairs → ranges → u.chans.getLsbD p.val = false → exec (.calLoad t) s = .next (answer t .range [] [] s)))

/-- R34: a load of a gain or a phase outside its range, for any channel and target, is refused with RANGE, and every record, in use and
shadow, stays as it is (OFFSET may hold any value, R33). -/
def Obligations.CoefficientsOutOfRangeAreRefused : Prop :=
  ∀ (t : Fin 64) (c : Cmd) (s : State),
    Takes { op := 0x0402, lane := 2, len := 20, states := [.factory, .opened] } t c s →
    let m := payField c 3 1
    (m.testBit 0 = true → payField c 4 3 + payField c 7 3 = 0xFFFFFF) →
    (m.testBit 1 = true → payField c 10 2 + payField c 12 2 = 0xFFFF) → (m.testBit 2 = true → payField c 14 3 + payField c 17 3 = 0xFFFFFF) →
    (m.testBit 0 = true → payField c 4 3 < 0x300000 ∨ 0x500000 < payField c 4 3 → exec (.calLoad t) s = .next (answer t .range [] [] s)) ∧
    (m.testBit 1 = true → 4096 < (BitVec.ofNat 16 (payField c 10 2)).toInt.natAbs →
      exec (.calLoad t) s = .next (answer t .range [] [] s)) ∧
    (answer t .range [] [] s).ports = s.ports ∧ (answer t .range [] [] s).volts = s.volts ∧ (answer t .range [] [] s).cal = s.cal

/-- R134, R140: the checks of a commit in their order; one that passes them all asks for the store of its group. -/
def Obligations.CalCommitChecksInOrder : Prop :=
  ∀ (t : Fin 64) (c : Cmd) (s : State) (g : CalTarget),
    Takes { op := 0x0403, lane := 2, len := 2, states := [.factory, .opened], d2 := true, ordered := true } t c s → NamesTarget c g →
    (findTxn s g = none → exec (.calCommit t) s = .next (answer t .noTxn [] [] s)) ∧
    (∀ u, findTxn s g = some u →
      (u.st = .stale → exec (.calCommit t) s = .next (answer t .stale [] []
        { s with cal := { s.cal with txns := s.cal.txns.filter (fun u => decide (u.target ≠ g)) } })) ∧
      (u.st = .opened → s.sec.state = .sealed → exec (.calCommit t) s = .next (answer t .sealed [] [] s)) ∧
      (u.st ≠ .opened → u.st ≠ .stale → s.sec.state ≠ .sealed → exec (.calCommit t) s = .next (answer t .busy [] [] s)) ∧
      (u.st = .opened → s.sec.state ≠ .sealed →
        (u.loaded = 0 → exec (.calCommit t) s = .next (answer t .range [] [] s)) ∧
        (u.loaded ≠ 0 →
          let chans := onesOf 32 u.chans.toNat
          ((∃ k ∈ chans, pairGood (shadowOf s k) = false) → exec (.calCommit t) s = .next (answer t .complement [] [] s)) ∧
          ((∀ k ∈ chans, pairGood (shadowOf s k) = true) → (∃ k ∈ chans, valuesGood (shadowOf s k) = false) →
            exec (.calCommit t) s = .next (answer t .range [] [] s)) ∧
          ((∀ k ∈ chans, pairGood (shadowOf s k) = true) → (∀ k ∈ chans, valuesGood (shadowOf s k) = true) → s.hw.frozen = false →
            exec (.calCommit t) s = .next (openStore (.calCommit g) (some t) s)) ∧
          ((∀ k ∈ chans, pairGood (shadowOf s k) = true) → (∀ k ∈ chans, valuesGood (shadowOf s k) = true) → s.hw.frozen = true →
            exec (.calCommit t) s = .next (answer t .retry [] [] s)))))

/-- R26, R129, R146, R153, R320, R127, R153, R155, R157, R158, R320: The reports of the calibration and Tracer group; TRC_READ clears
PERIODS, and MATCH_ACQUIRE sets the ports of its mask to acquire anew from the factory values. The writes of the Tracer ask for their
stores, or refuse. -/
def Obligations.TracerAndReportsWork : Prop :=
  (∀ (t : Fin 64) (c : Cmd) (s : State),
     (Takes { op := 0x0406, lane := 1, len := 0 } t c s → exec (.calInfo t) s = .next (answer t .ok
       (leBytes 4 (calUncal s) ++ leBytes 4 s.cal.cnt.toNat ++ leBytes 4 (calTxn s) ++ leBytes 4 s.cal.trimLim.toNat) [] s)) ∧
     (Takes { op := 0x0407, lane := 1, len := 1 } t c s →
       (∀ p : Fin 24, payField c 0 1 = p.val + 1 → ∃ r, r = (s.ports[p]).cal ∧ exec (.calRead t) s = .next (answer t .ok
         (leBytes 3 r.gain.toNat ++ leBytes 3 (~~~r.gain).toNat ++ leBytes 2 r.phase.toNat ++ leBytes 2 (~~~r.phase).toNat ++
           leBytes 3 r.offset.toNat ++ leBytes 3 (~~~r.offset).toNat) [] s)) ∧
       (∀ v : Fin 8, payField c 0 1 = v.val + 25 → ∃ r, r = (s.volts[v]).cal ∧ exec (.calRead t) s = .next (answer t .ok
         (leBytes 3 r.gain.toNat ++ leBytes 3 (~~~r.gain).toNat ++ leBytes 2 r.phase.toNat ++ leBytes 2 (~~~r.phase).toNat ++
           leBytes 3 r.offset.toNat ++ leBytes 3 (~~~r.offset).toNat) [] s))) ∧
     (Takes { op := 0x0408, lane := 3, len := 5, bulkOut := true } t c s → 1 ≤ payField c 4 1 → payField c 4 1 ≤ 128 →
       let first := if payField c 0 4 = 0 then (heldCnts s).headD 0 else payField c 0 4
       let out := ((heldCnts s).filter (fun n => decide (first ≤ n))).take (payField c 4 1)
       let last := if out.length < payField c 4 1 then s.cal.cnt.toNat else out.getLastD 0
       ((∀ n ∈ histCnts s, first ≤ n → n ≤ last → pageLost s.firn (histPage n) = true → pageBlank s.firn (histPage n) = true) →
         exec (.logRead t) s = .next (answer t .ok (leBytes 2 (heldCnts s).length ++ leBytes 2 0 ++ leBytes 4 (out.headD 0))
           (out.flatMap (fun n => (histEntry s.firn n).getD [])) s)) ∧
       (∀ n ∈ histCnts s, first ≤ n → n ≤ last → pageLost s.firn (histPage n) = true → pageBlank s.firn (histPage n) = false →
         exec (.logRead t) s = .next (answer t .pageLost [] [] s))) ∧
     (Takes { op := 0x0409, lane := 2, len := 4, states := [.factory, .opened, .sealed] } t c s → payField c 0 4 < 2 ^ 24 →
       ∃ s', exec (.matchAcquire t) s = .next (answer t .ok [] [] s') ∧
         (∀ p : Fin 24, ((payField c 0 4).testBit p.val = true → (s'.ports[p]).mstate = .acquire ∧ (s'.ports[p]).gCalc = 0x40000000 ∧
           (s'.ports[p]).dCalc = 0) ∧ ((payField c 0 4).testBit p.val = false → s'.ports[p] = s.ports[p]))) ∧
     (∀ p : Fin 24, Takes { op := 0x040B, lane := 1, len := 1 } t c s → payField c 0 1 = p.val + 1 →
       let r := (s.ports[p]).tracer
       exec (.trcRead t) s = .next (answer t .ok
         (leBytes 4 r.cfg.toNat ++ leBytes 4 r.rsNom.toNat ++ leBytes 4 (trcStat s p) ++ leBytes 4 r.zr.toNat ++ leBytes 4 r.zx.toNat ++
           leBytes 4 r.rLoop.toNat ++ leBytes 4 r.drift.toNat ++ leBytes 4 r.trim.toNat) []
         { s with ports := s.ports.set p { s.ports[p] with tracer := { r with periods := 0 } } }))) ∧
  (∀ (t : Fin 64) (c : Cmd) (s : State), s.hw.frozen = false →
     (Takes { op := 0x040A, lane := 2, len := 20, states := [.factory, .opened, .sealed], pairs := [(12, 4)], rsv := [(9, 3)] } t c s →
       let sel := payField c 4 1
       let rs (p : Fin 24) : Nat := if sel.testBit 4 then payField c 12 4 else (s.ports[p]).tracer.rsNom.toNat
       (s.sec.state ≠ .sealed ∨ (sel.testBit 2 = false ∧ sel.testBit 4 = false) → payField c 0 4 < 2 ^ 24 → sel < 32 →
         payField c 5 1 ≤ 1 → payField c 6 1 ≤ 7 → payField c 7 1 ≤ 1 → payField c 8 1 ≤ 15 →
         (sel.testBit 3 = true → 4 ≤ payField c 8 1 ∧ payField c 8 1 ≤ 10) → (sel.testBit 4 = true → payField c 12 4 ≤ 94000000) →
         ((sel.testBit 2 = true → payField c 7 1 = 1 → ∀ p ∈ maskPorts (payField c 0 4), autoOk (rs p) (s.ports[p]) = true) →
           exec (.trcWrite t) s = .next (openStore (.trcWrite (BitVec.ofNat 24 (payField c 0 4)) (BitVec.ofNat 5 sel)
             (BitVec.ofNat 32 ((if sel.testBit 0 then payField c 5 1 else 0) + 2 * (if sel.testBit 1 then payField c 6 1 else 0) +
               16 * (if sel.testBit 2 then payField c 7 1 else 0) + 256 * (if sel.testBit 3 then payField c 8 1 else 0)))
             (BitVec.ofNat 32 (payField c 12 4))) (some t) s)) ∧
         (sel.testBit 2 = true → payField c 7 1 = 1 → (∃ p ∈ maskPorts (payField c 0 4), autoOk (rs p) (s.ports[p]) = false) →
           exec (.trcWrite t) s = .next (answer t .range [] [] s))) ∧
       (s.sec.state = .sealed → sel.testBit 2 = true ∨ sel.testBit 4 = true →
         exec (.trcWrite t) s = .next (answer t .sealed [] [] s))) ∧
     (Takes { op := 0x040C, lane := 2, len := 8, states := [.factory, .opened], d2 := true, pairs := [(0, 4)] } t c s →
       payField c 0 4 < 2 ^ 24 →
       ((∀ p ∈ maskPorts (payField c 0 4), (s.ports[p]).tracer.everAccepted = true) →
         exec (.traceRef t) s = .next (openStore (.traceRef ((maskPorts (payField c 0 4)).map
           (fun p => (p, BitVec.ofNat 32 ((s.ports[p]).tracer.rLoop.toNat - (s.ports[p]).tracer.rsNom.toNat))))) (some t) s)) ∧
       ((∃ p ∈ maskPorts (payField c 0 4), (s.ports[p]).tracer.everAccepted = false) →
         exec (.traceRef t) s = .next (answer t .retry [] [] s))) ∧
     (Takes { op := 0x040D, lane := 2, len := 8, states := [.factory, .opened], d2 := true, pairs := [(0, 4)] } t c s →
       (payField c 0 4 ≤ 10000 → exec (.trimLimWrite t) s = .next (openStore (.trimLim (BitVec.ofNat 32 (payField c 0 4))) (some t) s)) ∧
       (10000 < payField c 0 4 → exec (.trimLimWrite t) s = .next (answer t .range [] [] s))))

/-- R60, R74, R75, R77, R80, R81, R84, R321, R56, R83, R89, R321: The readings of the group. SNAP_READ and VIEW_READ take a new snapshot of
all totals; the counts that a read clears are cleared. CLEAR_TOTALS waits for the circuit's next close, and acts at once on a circuit
that is disabled. -/
def Obligations.EnergyCommandsTakeEffect : Prop :=
  (∀ (t : Fin 64) (c : Cmd) (s : State),
     let now := copyBoundary s
     let image := now.circuits.map (fun r => r.totals)
     let snapped := { now with energy := { now.energy with mpLatch := { image := some image, seq := now.energy.mpLatch.seq + 1 } } }
     (s.clk.boundary = none → now = s) ∧
     (∀ k : Fin 24, Takes { op := 0x0501, lane := 1, len := 1 } t c s → payField c 0 1 = k.val + 1 →
       exec (.cycleRead t) s = .next (answer t .ok ((padTo 96 (s.circuits[k]).block).take 48) [] s)) ∧
     (Takes { op := 0x0502, lane := 3, len := 4, bulkOut := true } t c s → payField c 0 4 < 2 ^ 24 →
       let sel := (fins 24).filter (fun k => (payField c 0 4).testBit k.val)
       exec (.cycleBlocks t) s = .next (answer t .ok (leBytes 1 sel.length) (sel.flatMap (fun k => padTo 96 (s.circuits[k]).block)) s)) ∧
     (Takes { op := 0x0503, lane := 3, len := 0, bulkOut := true } t c s →
       exec (.snapRead t) s = .next (answer t .ok (leBytes 2 (now.energy.mpLatch.seq + 1).toNat) (imageBytes image) snapped)) ∧
     (∀ k : Fin 24, Takes { op := 0x0504, lane := 1, len := 1 } t c s → payField c 0 1 = k.val + 1 →
       exec (.viewRead t) s = .next (answer t .ok
         (leBytes 2 (now.energy.mpLatch.seq + 1).toNat ++
           leBytes 5 (((fins 10).map (fun a => ((now.circuits[k]).wrap[a]).toNat * 16 ^ a.val)).sum) ++ leBytes 1 0 ++
           (now.circuits[k]).totals.acc.toList.flatMap (fun a => leBytes 4 (a.toNat / 2 ^ 32))) []
         { snapped with circuits := now.circuits.set k { now.circuits[k] with wrap := Vector.replicate 10 0 } })) ∧
     (∀ k : Fin 24, Takes { op := 0x0505, lane := 1, len := 1 } t c s → payField c 0 1 = k.val + 1 →
       let r := s.circuits[k]
       exec (.statRead t) s = .next (answer t .ok
         (leBytes 4 (bitN r.totals.pDir + 2 * bitN r.totals.qDir + 4 * r.pRun.toNat + 16 * r.qRun.toNat + 64 * bitN r.pChg +
             128 * bitN r.qChg + 256 * bitN r.nozcSeen + 512 * bitN r.fixedMode + 65536 * r.unassigned.toNat) ++
           leBytes 2 r.creepP.toNat ++ leBytes 2 r.creepQ.toNat ++ leBytes 4 r.creepS.toNat) []
         { s with circuits := s.circuits.set k { r with unassigned := 0, creepP := 0, creepQ := 0, creepS := 0 } })) ∧
     (Takes { op := 0x0506, lane := 1, len := 0 } t c s →
       let out := s.energy.dirQueue.take 2
       let left := s.energy.dirQueue.drop 2
       exec (.dirEvents t) s = .next (answer t .ok
         (leBytes 1 (min left.length 255) ++ leBytes 1 out.length ++ leBytes 2 0 ++
           padTo 32 (out.flatMap (fun a => [a.circuit, a.kind] ++ leBytes 2 0 ++ a.time.bytes))) []
         { s with energy := { s.energy with dirQueue := left } }))) ∧
  (∀ (t : Fin 64) (c : Cmd) (s : State) (k : Fin 24),
     Takes { op := 0x0507, lane := 2, len := 2, states := [.factory, .opened], d2 := true, pairs := [(0, 1)] } t c s →
     payField c 0 1 = k.val + 1 →
     (cirEn (s.circuits[k]).cfg = true → (s.circuits[k]).stopped = false →
       exec (.clearTotals t) s = .next (answer t .ok [] [] { s with circuits := s.circuits.set k { s.circuits[k] with clear := true } })) ∧
     (cirEn (s.circuits[k]).cfg = false →
       ∃ s', exec (.clearTotals t) s = .next (answer t .ok [] [] s') ∧ (s'.circuits[k]).totals.acc = Vector.replicate 10 0 ∧
         (s'.circuits[k]).clear = false ∧ (∀ j : Fin 24, j ≠ k → s'.circuits[j] = s.circuits[j])))

/-- R92: a write of VSETn_CFG with a field outside its range, with INT_TH + HYST not below DIP_TH or with SWELL_TH − HYST not above 100 is
refused with RANGE and changes no register. Good parameters of a set and of a channel ask for their store; in SEALED a change of NOMF is
refused first (R311). -/
def Obligations.PqParametersAskForStores : Prop :=
  ∀ (t : Fin 64) (c : Cmd) (s : State), s.hw.frozen = false →
    (∀ b : Fin 2, Takes { op := 0x0601, lane := 2, len := 16, states := [.factory, .opened, .sealed], rsv := [(2, 2)] } t c s →
      payField c 0 1 = b.val + 1 →
      let sel := payField c 1 1
      let nomf := vsNomf (BitVec.ofNat 32 (payField c 4 4)) ≠ vsNomf (s.pqSets[b]).cfgW
      (¬ (s.sec.state = .sealed ∧ sel.testBit 0 = true ∧ nomf) → sel < 8 → payField c 4 4 / 2 ^ 6 % 4 = 0 → payField c 12 4 / 2 ^ 29 = 0 →
        (sel.testBit 0 = true → vsetCfgOk (payField c 4 4) = true) →
        (sel.testBit 1 = true → udinOk (payField c 8 4) = true) → (sel.testBit 2 = true → evtOk (payField c 12 4) = true) →
        exec (.vsetWrite t) s = .next (openStore (.vset b (BitVec.ofNat 3 sel) (BitVec.ofNat 32 (payField c 4 4))
          (BitVec.ofNat 32 (payField c 8 4)) (BitVec.ofNat 32 (payField c 12 4))) (some t) s)) ∧
      (s.sec.state = .sealed → sel.testBit 0 = true → nomf → exec (.vsetWrite t) s = .next (answer t .sealed [] [] s)) ∧
      (¬ (s.sec.state = .sealed ∧ nomf) → sel.testBit 0 = true →
        let w := payField c 4 4
        let dip := w / 2 ^ 8 % 256
        let swell := w / 2 ^ 16 % 256
        let hyst := w / 2 ^ 24 % 16
        let int := w / 2 ^ 28 % 16
        (w / 2 ^ 6 % 4 ≠ 0 ∨ dip < 1 ∨ 99 < dip ∨ swell < 101 ∨ 200 < swell ∨ hyst < 1 ∨ int < 1 ∨ dip ≤ int + hyst ∨
          swell ≤ 100 + hyst) →
        exec (.vsetWrite t) s = .next (answer t .range [] [] s) ∧ (answer t .range [] [] s).pqSets = s.pqSets)) ∧
    (∀ k : Fin 32, Takes { op := 0x0602, lane := 2, len := 12, states := [.factory, .opened, .sealed], rsv := [(2, 2)] } t c s →
      payField c 0 1 = k.val + 1 →
      let sel := payField c 1 1
      (sel < 4 → payField c 4 4 < 65536 → (sel.testBit 0 = true → chFeOk (payField c 4 4) = true) → (sel.testBit 1 = true → k.val < 24) →
        exec (.chWrite t) s = .next (openStore (.channel k (BitVec.ofNat 2 sel) (BitVec.ofNat 32 (payField c 4 4))
          (BitVec.ofNat 32 (payField c 8 4))) (some t) s)) ∧
      (24 ≤ k.val → sel.testBit 1 = true → exec (.chWrite t) s = .next (answer t .range [] [] s)))

/-- R104, R106, R113, R114, R118 to R123, R322, R411: The readings of power quality give what the results of the windows and aggregates
hold. A class without a result yet reads 0. PHASE of an aggregate is free (assumption log row 74). EVENT_READ gives and removes one record,
restored ones first, with EV_STAT as it was before; EV_OVF is cleared. In LEAN both wideband commands hear RETRY, and a channel, class
or set that does not exist RANGE. -/
def Obligations.PqReadingsAnswer : Prop :=
  (∀ (t : Fin 64) (c : Cmd) (s : State),
     (Takes { op := 0x0603, lane := 3, len := 2, bulkOut := true } t c s →
       let blocks := ((fins 2).filter (fun b => (payField c 0 1).testBit b.val)).flatMap (fun b =>
         ((fins 4).filter (fun k => (payField c 1 1).testBit k.val)).map (fun k => padTo 64 ((s.pqSets[b]).results[k]).block))
       (payField c 0 1 < 4 → payField c 1 1 < 16 → exec (.pqRead t) s = .next (answer t .ok (leBytes 1 blocks.length) blocks.flatten s)) ∧
       (4 ≤ payField c 0 1 ∨ 16 ≤ payField c 1 1 → exec (.pqRead t) s = .next (answer t .range [] [] s))) ∧
     (Takes { op := 0x0604, lane := 3, len := 2, bulkOut := true } t c s →
       (∀ (k : Fin 32) (n : Fin 4), payField c 0 1 = k.val + 1 → payField c 1 1 = n.val →
         let r := (s.pqSets[setOfChan s k]).results[n]
         let values := ((r.vals.harm.find? (fun e => e.1 == k.val)).map (fun e => e.2)).getD []
         let phases := ((r.vals.phase.find? (fun e => e.1 == k.val)).map (fun e => e.2)).getD []
         let bulk := if values = [] then List.replicate 2560 0 else (List.range 128).flatMap (fun h =>
           (List.range 4).flatMap (fun f => leBytes 4 (values.getD (4 * h + f) 0).toNat) ++
             leBytes 2 (if h = 0 then 0 else if n = 0 then (phases.getD h 0).toNat else Config.freePhase r.draw k.val h % 65536) ++ leBytes 2 0)
         exec (.harmRead t) s = .next (answer t .ok (leBytes 4 r.seq.toNat ++ leBytes 2 r.status.toNat) bulk s) ∧ bulk.length = 2560) ∧
       (payField c 0 1 = 0 ∨ 32 < payField c 0 1 ∨ 3 < payField c 1 1 → exec (.harmRead t) s = .next (answer t .range [] [] s))) ∧
     (Takes { op := 0x0605, lane := 3, len := 2, bulkOut := true } t c s →
       (∀ (k : Fin 24) (n : Fin 3), payField c 0 1 = k.val + 1 → payField c 1 1 = n.val →
         let r := (s.pqSets[Fin.ofNat 2 (cirSet (s.circuits[k]).cfg)]).results[Fin.ofNat 4 n.val]
         let values := ((r.vals.hpow.find? (fun e => e.1 == k.val)).map (fun e => e.2)).getD []
         let bulk := (List.range 512).flatMap (fun j => leInt 4 (values.getD j 0))
         exec (.hpowRead t) s = .next (answer t .ok (leBytes 4 r.seq.toNat ++ leBytes 2 r.status.toNat) bulk s) ∧ bulk.length = 2048 ∧
           (values = [] → bulk = List.replicate 2048 0)) ∧
       (payField c 0 1 = 0 ∨ 24 < payField c 0 1 ∨ 2 < payField c 1 1 → exec (.hpowRead t) s = .next (answer t .range [] [] s))) ∧
     (Takes { op := 0x0606, lane := 1, len := 1 } t c s →
       (∀ v : Fin 8, payField c 0 1 = v.val + 25 →
         let f := s.pq.flicker[v]
         exec (.flickerRead t) s = .next (answer t .ok
           (leBytes 4 f.pinst.toNat ++ leBytes 4 f.pst.toNat ++ leBytes 2 f.pstStatus.toNat ++ leBytes 2 f.pltStatus.toNat ++
             leBytes 4 f.plt.toNat ++ f.pstTime.bytes ++ f.pltTime.bytes) [] s)) ∧
       (payField c 0 1 < 25 ∨ 32 < payField c 0 1 → exec (.flickerRead t) s = .next (answer t .range [] [] s)))) ∧
  (∀ (t : Fin 64) (c : Cmd) (s : State), Takes { op := 0x0607, lane := 1, len := 0 } t c s →
     (∀ r l, s.pq.restored = r :: l → exec (.eventRead t) s = .next (answer t .ok
       (leBytes 4 (evStat s) ++ leBytes 1 1 ++ leBytes 3 0 ++ padTo 32 (eventBytes r)) [] { s with pq := { s.pq with restored := l, evOvf := 0 } })) ∧
     (∀ r l, s.pq.restored = [] → s.pq.fifo = r :: l → exec (.eventRead t) s = .next (answer t .ok
       (leBytes 4 (evStat s) ++ leBytes 1 1 ++ leBytes 3 0 ++ padTo 32 (eventBytes r)) [] { s with pq := { s.pq with fifo := l, evOvf := 0 } })) ∧
     (s.pq.restored = [] → s.pq.fifo = [] → exec (.eventRead t) s = .next (answer t .ok
       (leBytes 4 (evStat s) ++ List.replicate 36 0) [] { s with pq := { s.pq with evOvf := 0 } })) ∧
     (s.pq.fifo.length ≤ 64 → evStat s % 128 = s.pq.fifo.length ∧ evStat s / 65536 = s.pq.evOvf.toNat)) ∧
  (∀ (t : Fin 64) (c : Cmd) (s : State),
     (Takes { op := 0x0608, lane := 3, len := 2, bulkOut := true, lean := true } t c s →
       (∀ (w : Fin 2) (n : Fin 3), payField c 0 1 = w.val + 1 → payField c 1 1 = n.val →
         let r := s.pq.supra[n]
         let bulk := (List.range 740).flatMap (fun b => leBytes 4 ((r.bands[w]).getD b 0))
         exec (.supraRead t) s = .next (answer t .ok
           (leBytes 4 r.seq.toNat ++ leBytes 2 r.status.toNat ++ leBytes 2 (min r.excl 0xFFFF) ++ r.time.bytes) bulk s) ∧ bulk.length = 2960) ∧
       (payField c 0 1 = 0 ∨ 2 < payField c 0 1 ∨ 2 < payField c 1 1 → exec (.supraRead t) s = .next (answer t .range [] [] s))) ∧
     (Takes { op := 0x0609, lane := 3, len := 0, bulkOut := true, lean := true } t c s →
       exec (.noiseRead t) s = .next (answer t .ok (leBytes 2 s.pq.noiseStale.toNat ++ leBytes 2 0 ++ s.pq.noiseTime.bytes)
         ((List.range 768).map (fun k => (s.pq.noise[Fin.ofNat 16 (k / 48)]).getD (k % 48) 0)) s)) ∧
     (s.power.state = .lean →
       (Takes { op := 0x0608, lane := 3, len := 2, bulkOut := true } t c s → exec (.supraRead t) s = .next (answer t .retry [] [] s)) ∧
       (Takes { op := 0x0609, lane := 3, len := 0, bulkOut := true } t c s → exec (.noiseRead t) s = .next (answer t .retry [] [] s))))

/-- R193, R210, R223, R238, R315, R323: the readings of the time group. The clocks are read as the latest crystal tick left them, or, while
their crossing is stalled, as it latched them last; a boundary that waits is copied before a billing record is read. A count beyond the calendar reads 0 in its record and answers RANGE
with the payload; TIME_STATUS clears SYNC_ERR. -/
def Obligations.TimeReadingsAnswer : Prop :=
  ∀ (t : Fin 64) (c : Cmd) (s : State),
    let now := copyBoundary s
    let img := s.clk.latched.getD (clkImage s)
    (s.clk.latched = none → img.legal = s.clk.legal.count ∧ img.lwday = s.clk.legal.wday ∧ img.service = s.clk.service.count ∧
      img.swday = s.clk.service.wday ∧ img.stat = clkStatLow s ∧
      img.time = if s.time.mode = .free then none else some (s.stampAt s.clk.lfNs)) ∧
    (Takes { op := 0x0701, lane := 1, len := 0 } t c s →
      exec (.clkRead t) s = .next (answer t .ok
        (leBytes 6 img.legal.toNat ++ leBytes 6 img.service.toNat ++ leBytes 1 (img.lwday.toNat + 16 * img.swday.toNat) ++
          leBytes 1 0 ++ leBytes 2 img.stat ++ (match img.time with | some x => x.bytes | none => leBytes 12 0) ++
          leBytes 4 s.clk.ofs.toNat) [] s)) ∧
    (Takes { op := 0x0702, lane := 1, len := 0 } t c s →
      let ls := img.legal.toNat / 2 ^ 15
      let ss := img.service.toNat / 2 ^ 15
      exec (.clkDate t) s = .next (answer t (if 6311433599 < ls ∨ 6311433599 < ss then .range else .ok)
        ((if 6311433599 < ls then leBytes 8 0 else dateBytes ls) ++ (if 6311433599 < ss then leBytes 8 0 else dateBytes ss) ++
          leBytes 6 img.legal.toNat ++ leBytes 6 img.service.toNat ++ leBytes 1 (img.lwday.toNat + 16 * img.swday.toNat)) [] s)) ∧
    (s.clk.boundary = none → now = s) ∧
    (∀ r : BillRec, Takes { op := 0x070B, lane := 3, len := 1, bulkOut := true } t c s → payField c 0 1 < 4 →
      now.clk.records[payField c 0 1]? = some r →
      exec (.billRead t) s = .next (answer t .ok (leBytes 4 r.seq.toNat)
        (leBytes 4 r.seq.toNat ++ leBytes 2 r.flags.toNat ++ leBytes 2 0 ++ leBytes 6 r.start.toNat ++ leBytes 6 r.stop.toNat ++ r.time.bytes ++
          leBytes 4 r.snap.toNat ++ leBytes 4 0 ++ imageBytes r.image) now)) ∧
    (Takes { op := 0x070B, lane := 3, len := 1, bulkOut := true } t c s → payField c 0 1 < 4 → now.clk.records[payField c 0 1]? = none →
      exec (.billRead t) s = .next (answer t .range [] [] now)) ∧
    (Takes { op := 0x070B, lane := 3, len := 1, bulkOut := true } t c s → 4 ≤ payField c 0 1 →
      exec (.billRead t) s = .next (answer t .range [] [] s)) ∧
    (Takes { op := 0x070C, lane := 1, len := 0 } t c s →
      exec (.timeStatus t) s = .next (answer t .ok
        (s.stamp.bytes ++ leBytes 4 (alignStat s.time) ++ leBytes 4 (rtStat s) ++ leBytes 4 s.time.offset.toNat ++
          leBytes 4 s.ring.portA.delay.toNat ++ leBytes 4 s.ring.portB.delay.toNat ++ leBytes 4 s.ring.portA.asym.toNat ++
          leBytes 4 s.ring.portB.asym.toNat) [] { s with time := { s.time with syncErr := 0 } }))

/-- R194, R195, R209, R211, R220, R323, R401, R210, R211: A set of a clock is accepted with a legal value and weekday and reaches the clock
within three ticks, a free number of them (assumption log row 3); a date that cannot exist, a sealed legal clock and a stalled crossing
refuse it, and then the clocks stay as they are. The calendar of the MP, at the instants that the spec works out and at the ends of its
range. -/
def Obligations.ClockSetsReachTheClock : Prop :=
  (∀ (t : Fin 64) (c : Cmd) (s : State),
     let ticks := Config.clockWriteTicks s.fresh % 3
     let wday := if (payField c 1 1).testBit 0 then some (BitVec.ofNat 3 (payField c 2 1)) else none
     (Takes { clocks := true, op := 0x0703, lane := 2, len := 20, rsv := [(3, 1)] } t c s → payField c 1 1 ≤ 1 → payField c 2 1 ≤ 7 →
       (payField c 1 1 = 1 → payField c 2 1 ≤ 6) →
       let set := fun (n : Nat) => { s with fresh := s.fresh + 1, clk := { s.clk with
         service := { s.clk.service with write := some (BitVec.ofNat 33 n, wday, ticks) } } }
       let date := ((dPayload c.desc).drop 12).take 8
       (payField c 0 1 = 0 → payField c 4 8 < 2 ^ 33 → s.stalled 8 = false →
         exec (.serviceSet t) s = .next (answer t .ok [] [] (set (payField c 4 8)))) ∧
       (payField c 0 1 = 0 → 2 ^ 33 ≤ payField c 4 8 → exec (.serviceSet t) s = .next (answer t .range [] [] s)) ∧
       (payField c 0 1 = 1 → dateFault date = none → leAt date 7 1 = 0 → s.stalled 8 = false →
         exec (.serviceSet t) s = .next (answer t .ok [] [] (set (dateSeconds date)))) ∧
       (payField c 0 1 = 1 → 2000 ≤ leAt date 0 2 → leAt date 0 2 ≤ 2199 → leAt date 7 1 = 0 →
         leAt date 2 1 = 0 ∨ 12 < leAt date 2 1 ∨ leAt date 3 1 = 0 ∨ 23 < leAt date 4 1 ∨ 59 < leAt date 5 1 ∨ 59 < leAt date 6 1 →
         exec (.serviceSet t) s = .next (answer t .badDate [] [] s)) ∧
       (payField c 0 1 = 0 → payField c 4 8 < 2 ^ 33 → s.stalled 8 = true → exec (.serviceSet t) s = .next (answer t .busy [] [] s))) ∧
     (Takes { clocks := true, op := 0x0704, lane := 2, len := 36, states := [.factory, .opened, .retired], ordered := true,
              pairs := [(2, 1), (4, 8), (20, 8)] } t c s → payField c 1 1 ≤ 1 → payField c 2 1 ≤ 7 → (payField c 1 1 = 1 → payField c 2 1 ≤ 6) →
       let now := copyBoundary s
       let date := ((dPayload c.desc).drop 20).take 8
       let set := fun (n : Nat) => { now with
         fresh := now.fresh + 1,
         clk := { now.clk with legal := { now.clk.legal with write := some (BitVec.ofNat 33 n, wday, Config.clockWriteTicks now.fresh % 3) } } }
       (s.clk.boundary = none → now = s) ∧
       (s.sec.state ≠ .sealed ∨ s.clk.legalInvalid = true → s.stalled 8 = false →
         (payField c 0 1 = 0 → payField c 4 8 < 2 ^ 33 →
           exec (.legalSet t) s = .next (answer t .ok (leBytes 4 now.clk.billSeq.toNat) [] (set (payField c 4 8)))) ∧
         (payField c 0 1 = 1 → dateFault date = none → leAt date 7 1 = 0 →
           exec (.legalSet t) s = .next (answer t .ok (leBytes 4 now.clk.billSeq.toNat) [] (set (dateSeconds date))))) ∧
       (s.sec.state = .sealed → s.clk.legalInvalid = false → payField c 0 1 = 0 → payField c 4 8 < 2 ^ 33 →
         exec (.legalSet t) s = .next (answer t .sealed [] [] s)))) ∧
  (dateSeconds [0xD0, 0x07, 2, 29, 0, 0, 0, 0] = 5097600 ∧ dateSeconds [0x34, 0x08, 3, 1, 0, 0, 0, 0] = 3160857600 ∧
     dateSeconds [0x97, 0x08, 12, 31, 23, 59, 59, 0] = 6311433599 ∧ dateBytes 5097600 = [0xD0, 0x07, 2, 29, 0, 0, 0, 0] ∧
     dateBytes 3160857600 = [0x34, 0x08, 3, 1, 0, 0, 0, 0] ∧ dateBytes 6311433599 = [0x97, 0x08, 12, 31, 23, 59, 59, 0] ∧
     dateBytes 6311433600 = List.replicate 8 0 ∧ dateFault [0x34, 0x08, 2, 29, 0, 0, 0, 0] = some .badDate ∧
     dateFault [0xD0, 0x07, 4, 31, 0, 0, 0, 0] = some .badDate ∧ dateFault [0x98, 0x08, 1, 1, 0, 0, 0, 0] = some .range)

/-- R197, R204 to R206, R208, R209, R212, R214, R221, R323: the clock registers. Those that Firn holds ask for their store; an alarm, a
weekday and the flags of CLK_STAT change at once. -/
def Obligations.ClockRegistersAreWritten : Prop :=
  ∀ (t : Fin 64) (c : Cmd) (s : State), s.stalled 8 = false →
    (Takes { clocks := true, op := 0x0705, lane := 2, len := 4, states := [.factory, .opened, .sealed] } t c s → s.hw.frozen = false →
      clkCfgOk (payField c 0 4) = true →
      exec (.clkCfgWrite t) s = .next (openStore (.clkCfg (BitVec.ofNat 32 (payField c 0 4))) (some t) s)) ∧
    (Takes { clocks := true, op := 0x0706, lane := 2, len := 4, states := [.factory, .opened], pairs := [(0, 2)] } t c s → s.hw.frozen = false →
      ((BitVec.ofNat 16 (payField c 0 2)).toInt.natAbs ≤ 512 →
        exec (.ltrimWrite t) s = .next (openStore (.ltrim (BitVec.ofNat 32 (payField c 0 4))) (some t) s)) ∧
      (512 < (BitVec.ofNat 16 (payField c 0 2)).toInt.natAbs → exec (.ltrimWrite t) s = .next (answer t .range [] [] s))) ∧
    (Takes { clocks := true, op := 0x0707, lane := 2, len := 36, states := [.factory, .opened], pairs := [(4, 8), (20, 4), (28, 4)],
             rsv := [(1, 3)] } t c s → s.hw.frozen = false → payField c 0 1 < 8 → slewCfgRsv (payField c 20 4) = false →
      payField c 28 4 ≤ 7 →
      ((payField c 0 1).testBit 1 = true → slewCfgOk (payField c 20 4) = true) → ((payField c 0 1).testBit 2 = true → payField c 28 4 ≤ 5) →
      exec (.legalParams t) s = .next (openStore (.legalParams (BitVec.ofNat 3 (payField c 0 1)) (BitVec.ofNat 64 (payField c 4 8))
        (BitVec.ofNat 32 (payField c 20 4)) (BitVec.ofNat 32 (payField c 28 4))) (some t) s)) ∧
    (Takes { clocks := true, op := 0x0708, lane := 2, len := 2 } t c s → payField c 1 1 ≤ 6 →
      (payField c 0 1 = 1 → let now := doWeekday false s
        (s.clk.service.wdayDue = false → now = s) ∧ exec (.wdayWrite t) s = .next (answer t .ok [] []
          { now with clk := { now.clk with service := { now.clk.service with wday := BitVec.ofNat 3 (payField c 1 1) } } })) ∧
      (payField c 0 1 = 0 →
        (s.sec.state = .factory ∨ s.sec.state = .opened → let now := doWeekday true s
          (s.clk.legal.wdayDue = false → now = s) ∧ exec (.wdayWrite t) s = .next (answer t .ok [] []
            { now with clk := { now.clk with legal := { now.clk.legal with wday := BitVec.ofNat 3 (payField c 1 1) } } })) ∧
        (s.sec.state = .sealed → exec (.wdayWrite t) s = .next (answer t .sealed [] [] s)) ∧
        (s.sec.state = .retired → exec (.wdayWrite t) s = .next (answer t .denied [] [] s)))) ∧
    (∀ n : Fin 4, Takes { clocks := true, op := 0x0709, lane := 2, len := 12, states := [.factory, .opened, .sealed], rsv := [(1, 1)] } t c s →
      payField c 0 1 = n.val → payField c 8 4 < 16 →
      let now := doAlarm n s
      let a := now.clk.alarms[n]
      let ctl := payField c 8 4
      let count := if n.val < 2 then now.clk.legal.count else now.clk.service.count
      ((s.clk.alarms[n]).due = false → now = s) ∧
      exec (.alarmWrite t) s = .next (answer t .ok [] [] { now with clk := { now.clk with alarms := now.clk.alarms.set n {
        time := BitVec.ofNat 48 (payField c 2 6), arm := ctl.testBit 0, fired := a.fired && !ctl.testBit 1,
        skipped := a.skipped && !ctl.testBit 2, wake := ctl.testBit 3,
        late := ctl.testBit 0 && decide (payField c 2 6 ≤ count.toNat), due := false, dueSkip := false } } })) ∧
    (Takes { clocks := true, op := 0x070A, lane := 2, len := 4, states := [.factory, .opened, .sealed] } t c s →
      payField c 0 4 / 1024 % 64 = 0 →
      let m := payField c 0 4
      exec (.clkClear t) s = .next (answer t .ok [] [] { s with clk := { s.clk with
        oscStopped := s.clk.oscStopped && !(m.testBit 0 && s.clk.crystalRuns), tcClamp := s.clk.tcClamp && !m.testBit 6,
        vbakLow := s.clk.vbakLow && !m.testBit 7, bndMissed := s.clk.bndMissed && !m.testBit 9 } }))

/-- R183, R235, R239, R323, R199, R200, R232, R323: The head's time registers and its step. A rate while the servo holds it, and a second
step, hear BUSY. The asymmetries and the two temperature tables ask for their stores; codes that do not rise are refused. -/
def Obligations.RingTimeCommandsTakeEffect : Prop :=
  (∀ (t : Fin 64) (c : Cmd) (s : State),
     (Takes { op := 0x070D, lane := 2, len := 12, head := true, states := [.factory, .opened, .sealed], rsv := [(1, 3)] } t c s →
       let sel := payField c 0 1
       let cfg := if sel.testBit 0 then BitVec.ofNat 32 (payField c 4 4) else s.time.cfg
       sel < 4 → rtCfgRsv (payField c 4 4) = false → (sel.testBit 0 = true → rtCfgOk (payField c 4 4) = true) →
       (sel.testBit 1 = true → (BitVec.ofNat 32 (payField c 8 4)).toInt.natAbs ≤ 110000000) →
       (sel.testBit 1 = false ∨ cfg.toNat % 4 = 0 → exec (.rtWrite t) s = .next (answer t .ok [] [] { s with time := { s.time with
         cfg := cfg, fadj := if sel.testBit 1 then BitVec.ofNat 32 (payField c 8 4) else s.time.fadj } })) ∧
       (sel.testBit 1 = true → cfg.toNat % 4 = 1 → exec (.rtWrite t) s = .next (answer t .busy [] [] s))) ∧
     (Takes { op := 0x070E, lane := 2, len := 16, head := true, states := [.factory, .opened, .sealed], pairs := [(0, 8)] } t c s →
       let delta := (BitVec.ofNat 64 (payField c 0 8)).toInt
       (s.hw.frozen = true → exec (.step t) s = .next (answer t .retry [] [] s)) ∧
       (s.hw.frozen = false → delta = 0 → exec (.step t) s = .next (answer t .range [] [] s)) ∧
       (s.hw.frozen = false → stepInRange s delta = true →
         (s.time.step = none → s.time.stepStore = false →
           exec (.step t) s = .next (openStore (.stepEpoch delta) (some t) { s with time := { s.time with stepStore := true } })) ∧
         (s.time.step.isSome = true ∨ s.time.stepStore = true → exec (.step t) s = .next (answer t .busy [] [] s))))) ∧
  (∀ (t : Fin 64) (c : Cmd) (s : State), s.hw.frozen = false →
     (Takes { op := 0x0710, lane := 2, len := 12, states := [.factory, .opened, .sealed], rsv := [(1, 3)] } t c s →
       payField c 0 1 < 4 → ((payField c 0 1).testBit 0 = true → (BitVec.ofNat 32 (payField c 4 4)).toInt.natAbs ≤ 655360) →
       ((payField c 0 1).testBit 1 = true → (BitVec.ofNat 32 (payField c 8 4)).toInt.natAbs ≤ 655360) →
       exec (.asymWrite t) s = .next (openStore (.asym (BitVec.ofNat 2 (payField c 0 1)) (BitVec.ofNat 32 (payField c 4 4))
         (BitVec.ofNat 32 (payField c 8 4))) (some t) s)) ∧
     (Takes { op := 0x0711, lane := 3, len := 0, bulkIn := some (fun _ b => decide (b.length = 64)), states := [.factory, .opened, .sealed] } t c s →
       exec (.tcompWrite t) s = .next (openStore (.tcomp (bulkOf c s)) (some t) s)) ∧
     (Takes { op := 0x0712, lane := 3, len := 0, bulkIn := some (fun _ b => decide (b.length = 64)), states := [.factory, .opened, .sealed] } t c s →
       ((∀ k < 15, leAt (bulkOf c s) (4 * k) 2 < leAt (bulkOf c s) (4 * k + 4) 2) →
         exec (.tcTableWrite t) s = .next (openStore (.tcTable (bulkOf c s)) (some t) s)) ∧
       ((∃ k < 15, leAt (bulkOf c s) (4 * k + 4) 2 ≤ leAt (bulkOf c s) (4 * k) 2) →
         exec (.tcTableWrite t) s = .next (answer t .range [] [] s))))

/-- R243, R245, R248, R323: a write of an idle timed output sets the selected registers and, armed for a time that has passed, is due at
once; a time meant for another epoch is STALE; during a pulse the new values wait for its end. -/
def Obligations.TimedOutputIsWritten : Prop :=
  ∀ (t : Fin 64) (c : Cmd) (s : State) (n : Fin 4),
    Takes { op := 0x070F, lane := 2, len := 28, states := [.factory, .opened, .sealed], rsv := [(3, 1), (18, 2)] } t c s →
    payField c 0 1 = n.val → payField c 1 1 = 15 → payField c 2 1 < 16 → payField c 4 4 < 2 ^ 16 → (payField c 4 4).testBit 7 = false →
    payField c 8 4 < 1000000000 → 1000 ≤ payField c 20 4 → payField c 20 4 ≤ 4000000000 → payField c 20 4 % 5 = 0 →
    20 ≤ payField c 24 4 → payField c 24 4 ≤ 4000000000 →
    ((payField c 4 4).testBit 1 = true → payField c 24 4 + 20 ≤ payField c 20 4) →
    let o := s.time.outs[n]
    let ctl := payField c 4 4
    let at_ := payField c 12 6 * 1000000000 + payField c 8 4
    (payField c 2 1 = s.time.epoch.toNat → o.pulse = none → ctl.testBit 0 = true → ctl.testBit 1 = false → ctl.testBit 3 = true →
      ∃ s' o', exec (.toutWrite t) s = .next (answer t .ok [] [] s') ∧ s' = { s with time := { s.time with outs := s.time.outs.set n o' } } ∧
        o'.en = true ∧ o'.periodic = false ∧ o'.arm = true ∧ o'.pol = ctl.testBit 2 ∧ o'.fired = (o.fired && !ctl.testBit 4) ∧
        o'.time = BitVec.ofNat 80 (payField c 8 10) ∧ o'.period = BitVec.ofNat 32 (payField c 20 4) ∧
        o'.width = BitVec.ofNat 32 (payField c 24 4) ∧ o'.nextEdge = some (max at_ s.nowNs) ∧ o'.armedLate = decide (at_ < s.nowNs)) ∧
    (payField c 2 1 = s.time.epoch.toNat → o.pulse = none → ctl.testBit 0 = false →
      ∃ s' o', exec (.toutWrite t) s = .next (answer t .ok [] [] s') ∧ s' = { s with time := { s.time with outs := s.time.outs.set n o' } } ∧
        o'.en = false ∧ o'.nextEdge = none ∧ o'.level = ctl.testBit 2 ∧ o'.pulse = none) ∧
    (payField c 2 1 ≠ s.time.epoch.toNat → exec (.toutWrite t) s = .next (answer t .stale [] [] s)) ∧
    (payField c 2 1 = s.time.epoch.toNat → o.pulse.isSome = true → ctl.testBit 0 = true →
      ∃ s' o', exec (.toutWrite t) s = .next (answer t .ok [] [] s') ∧ s' = { s with time := { s.time with outs := s.time.outs.set n o' } } ∧
        o'.pulse = o.pulse ∧ o'.time = o.time ∧ o'.period = o.period ∧ o'.width = o.width ∧
        o'.pend = some (BitVec.ofNat 80 (payField c 8 10), BitVec.ofNat 32 (payField c 20 4), BitVec.ofNat 32 (payField c 24 4)))

/-- R161, R162, R167, R189, R315, R324: the Firn status, its flags, and reads and stores of pages. FIRN_STATUS clears the counts that a read
clears; a range with a lost page is answered with PAGE_LOST and its data; only USER pages may be stored. -/
def Obligations.FirnCommandsTakeEffect : Prop :=
  ∀ (t : Fin 64) (c : Cmd) (s : State),
    let f := s.firn
    (Takes { op := 0x0801, lane := 1, len := 0 } t c s → exec (.firnStatus t) s = .next (answer t .ok
      (leBytes 4 (bitN (f.reqs.any (fun r => decide (r.stage = .running))) + 2 * bitN (f.reqs.any (fun r => decide (r.stage = .kwait) || r.deferred)) +
          4 * bitN f.unclean + 8 * bitN f.torn + 16 * bitN f.lostSeen + 32 * bitN f.lowKettle + 64 * bitN f.kettleSmall +
          128 * bitN f.worn + 256 * bitN f.wear + 65536 * f.tornPages.toNat) ++
        leBytes 2 f.refreshes.toNat ++ leBytes 2 f.defers.toNat ++ leBytes 2 f.mpWaitMax.toNat ++ leBytes 2 f.dispStalls.toNat) []
      { s with firn := { f with refreshes := 0, defers := 0, mpWaitMax := 0, dispStalls := 0 } })) ∧
    (Takes { op := 0x0802, lane := 2, len := 4 } t c s → payField c 0 4 / 512 % 128 = 0 →
      let m := payField c 0 4
      exec (.firnClear t) s = .next (answer t .ok [] [] { s with firn := { f with
        unclean := f.unclean && !m.testBit 2, torn := f.torn && !m.testBit 3, lostSeen := f.lostSeen && !m.testBit 4,
        lowKettle := f.lowKettle && !m.testBit 5, kettleSmall := f.kettleSmall && !m.testBit 6, worn := f.worn && !m.testBit 7,
        wear := f.wear && !m.testBit 8 } })) ∧
    (Takes { op := 0x0803, lane := 3, len := 3, bulkOut := true } t c s → 1 ≤ payField c 2 1 → payField c 2 1 ≤ 64 →
      payField c 0 2 + payField c 2 1 ≤ 3072 →
      let pages := (List.range (payField c 2 1)).map (fun k => payField c 0 2 + k)
      let data := pages.flatMap (fun p => if p < 512 then ramPage s p else padTo 64 (storedData f p))
      ((∀ p ∈ pages, pageLost f p = false) → exec (.firnRead t) s = .next (answer t .ok
        (leBytes 8 0 ++ leBytes 4 (pageCount f (payField c 0 2))) data s)) ∧
      ((∃ p ∈ pages, pageLost f p = true) → ∃ mask, exec (.firnRead t) s = .next (answer t .pageLost
        (leBytes 8 mask ++ leBytes 4 (pageCount f (payField c 0 2))) data s) ∧
        (∀ k < payField c 2 1, mask.testBit k = pageLost f (payField c 0 2 + k)))) ∧
    (Takes { op := 0x0803, lane := 3, len := 3, bulkOut := true } t c s → 3072 < payField c 0 2 + payField c 2 1 →
      exec (.firnRead t) s = .next (answer t .range [] [] s)) ∧
    (Takes { op := 0x0804, lane := 3, len := 3, bulkIn := some (fun p b => decide (b.length = 64 * leAt p 2 1)),
             states := [.factory, .opened, .sealed] } t c s →
      (1 ≤ payField c 2 1 → payField c 2 1 ≤ 32 → 3040 ≤ payField c 0 2 → payField c 0 2 + payField c 2 1 ≤ 3072 →
        (s.hw.frozen = false → exec (.firnStore t) s = .next (openStore (.user (payField c 0 2) (bulkOf c s)) (some t) s)) ∧
        (s.hw.frozen = true → exec (.firnStore t) s = .next (answer t .retry [] [] s))) ∧
      (payField c 2 1 = 0 ∨ 32 < payField c 2 1 ∨ payField c 0 2 < 3040 ∨ 3072 < payField c 0 2 + payField c 2 1 →
        exec (.firnStore t) s = .next (answer t .range [] [] s)))

/-- R263, R273, R277, R279, R315, R325, R263, R274, R280, R281, R325: The readings of the ring group; RING_STATUS clears the counts that a
read clears. The head's ring commands. Those that the head stores ask for their stores; a push sends its entry in two halves and waits
for the unit's outcome; an address in the wrong state is refused. -/
def Obligations.RingCommandsTakeEffect : Prop :=
  (∀ (t : Fin 64) (c : Cmd) (s : State),
     (Takes { op := 0x0901, lane := 1, len := 0 } t c s → exec (.ringStatus t) s = .next (answer t .ok
       (leBytes 4 (ringStat s) ++ leBytes 2 s.ring.codeErr.toNat ++ leBytes 2 s.ring.frameErr.toNat ++ leBytes 2 s.ring.deferred.toNat ++
         leBytes 2 s.ring.abandoned.toNat ++ leBytes 4 s.ring.hcfg.toNat ++ leBytes 8 Config.uid.toNat) []
       { s with ring := { s.ring with codeErr := 0, frameErr := 0, deferred := 0, abandoned := 0 } })) ∧
     (Takes { op := 0x0903, lane := 3, len := 0, head := true, bulkOut := true } t c s →
       ∃ bulk, exec (.rosterRead t) s = .next (answer t .ok (leBytes 1 61) bulk s) ∧ bulk.length = 1220 ∧
         (∀ a : Fin 61, let e := (bulk.drop (20 * a.val)).take 20
           leAt e 0 1 = a.val + 2 ∧ leAt e 1 1 = (match (s.ring.roster[a]).st with | .free => 0 | .present => 1 | .absent => 2) ∧
             leAt e 2 1 = (s.ring.roster[a]).up.toNat ∧ leAt e 3 1 = (s.ring.roster[a]).down.toNat ∧
             leAt e 4 8 = (s.ring.roster[a]).uid.toNat)) ∧
     (∀ g : Fin 16, Takes { op := 0x0906, lane := 1, len := 1, head := true } t c s → payField c 0 1 = g.val + 1 →
       exec (.balRead t) s = .next (answer t .ok (padTo 48 (s.ring.groups[g]).result) [] s)) ∧
     (∀ a : Fin 61, Takes { op := 0x0907, lane := 3, len := 1, head := true, bulkOut := true } t c s → payField c 0 1 = a.val + 2 →
       exec (.mirrorRead t) s = .next (answer t .ok [] (mirrorEntry s a) s)) ∧
     (Takes { op := 0x0907, lane := 3, len := 1, head := true, bulkOut := true } t c s → payField c 0 1 < 2 ∨ 62 < payField c 0 1 →
       exec (.mirrorRead t) s = .next (answer t .range [] [] s))) ∧
  (∀ (t : Fin 64) (c : Cmd) (s : State), s.hw.frozen = false →
     (Takes { op := 0x0902, lane := 2, len := 4, head := true, states := [.factory, .opened, .sealed] } t c s →
       (payField c 0 4 < 8 → exec (.ringHcfgWrite t) s = .next (openStore (.ringHcfg (BitVec.ofNat 32 (payField c 0 4))) (some t) s)) ∧
       (8 ≤ payField c 0 4 → exec (.ringHcfgWrite t) s = .next (answer t .range [] [] s))) ∧
     (∀ a : Fin 61, Takes { op := 0x0904, lane := 2, len := 2, head := true, states := [.factory, .opened, .sealed], pairs := [(0, 1)] } t c s →
       payField c 0 1 = a.val + 2 →
       ((s.ring.roster[a]).st = .absent → exec (.addrRelease t) s = .next (openStore (.addrRelease a) (some t) s)) ∧
       ((s.ring.roster[a]).st ≠ .absent → exec (.addrRelease t) s = .next (answer t .range [] [] s))) ∧
     (∀ g : Fin 16, Takes { op := 0x0905, lane := 3, len := 0, head := true, bulkIn := some (fun _ b => decide (b.length = 64)),
                            states := [.factory, .opened, .sealed] } t c s → leAt (bulkOf c s) 0 1 = g.val + 1 →
       (balDescOk (bulkOf c s) = true → exec (.balWrite t) s = .next (openStore (.balGroup g (bulkOf c s)) (some t) s)) ∧
       (leAt (bulkOf c s) 2 2 = 0 → exec (.balWrite t) s = .next (answer t .range [] [] s))) ∧
     (∀ a : Fin 61, Takes { op := 0x0908, lane := 2, len := 1, head := true, states := [.factory, .opened, .sealed] } t c s →
       payField c 0 1 = a.val + 2 →
       (mirrorHeld (mirrorEntry s a) = true → (s.ring.roster[a]).st = .present → (∀ e ∈ s.ring.push, e.1 ≠ rosterAddr a) →
         ∃ s', exec (.mirrorPush t) s = .next s' ∧ s'.ring.push = s.ring.push ++ [(rosterAddr a, some t)] ∧
           s'.mb.tags[t] = some { c with remote := true, started := true, waiting := true, startedAt := some s.time.ticks } ∧ s'.hw = s.hw ∧
           s'.ring.mirror = s.ring.mirror ∧ s.ring.txq.length + 2 ≤ s'.ring.txq.length) ∧
       (mirrorHeld (mirrorEntry s a) = true → (s.ring.roster[a]).st = .present → (∃ e ∈ s.ring.push, e.1 = rosterAddr a) →
         exec (.mirrorPush t) s = .next (answer t .busy [] [] s)) ∧
       (mirrorHeld (mirrorEntry s a) = false ∨ (s.ring.roster[a]).st ≠ .present →
         exec (.mirrorPush t) s = .next (answer t .range [] [] s))) ∧
     (∀ a : Fin 61, Takes { op := 0x0909, lane := 2, len := 1, head := true, states := [.factory, .opened, .sealed] } t c s →
       payField c 0 1 = a.val + 2 →
       ∃ e, exec (.mirrorRelease t) s = .next (openStore (.mirror a e) (some t) s) ∧ mirrorHeld e = false ∧
         (∀ k, k ≠ 11 → k < 256 → e.getD k 0 = (mirrorEntry s a).getD k 0)))

/-- R326, R340, R345, R346, R349, R351, R326, R349, R353, R354: The readings of the modem group. PLC_STATUS clears OVERRUN; an EMPTY index
is unknown; the maps are DBPSK throughout while they are fixed or not yet built. The modem's commands. Changes of the node table ask for
their stores, the lowest EMPTY index first; data for a node waits until it is acknowledged, and a second one hears BUSY; one
identification runs at a time. -/
def Obligations.PlcCommandsTakeEffect : Prop :=
  (∀ (t : Fin 64) (c : Cmd) (s : State),
     (Takes { op := 0x0A02, lane := 1, len := 0 } t c s → exec (.plcStatus t) s = .next (answer t .ok
       (leBytes 1 ((if s.power.state = .run then s.plc.mode.toNat else 0) + 4 * bitN s.plc.overrun) ++
         leBytes 1 ((fins 240).filter (fun i => decide ((s.plc.nodes[i]).st ≠ 0))).length ++ leBytes 2 0 ++
         leBytes 4 s.plc.polls.toNat ++ leBytes 4 s.plc.fails.toNat ++ leBytes 4 s.plc.repolls.toNat ++ leBytes 4 s.plc.pausedMs.toNat) []
       { s with plc := { s.plc with overrun := false } })) ∧
     (∀ k : Fin 240, Takes { op := 0x0A05, lane := 1, len := 1 } t c s → payField c 0 1 = k.val + 1 →
       let n := s.plc.nodes[k]
       (n.st ≠ 0 → exec (.nodeRead t) s = .next (answer t .ok
         (leBytes 8 n.id.toNat ++ leBytes 1 n.st.toNat ++ leBytes 1 n.phase.toNat ++ [n.snr] ++ leBytes 1 0 ++ leBytes 4 n.last.toNat ++
           leBytes 1 n.epoch.toNat ++ leBytes 3 0 ++ leBytes 4 n.polled.toNat ++ leBytes 4 n.missed.toNat) [] s)) ∧
       (n.st = 0 → exec (.nodeRead t) s = .next (answer t .nodeUnknown [] [] s))) ∧
     (∀ k : Fin 240, Takes { op := 0x0A06, lane := 1, len := 1 } t c s → payField c 0 1 = k.val + 1 →
       let n := s.plc.nodes[k]
       (n.st ≠ 0 → exec (.nodeData t) s = .next (answer t .ok
         (leBytes 4 n.last.toNat ++ leBytes 1 n.epoch.toNat ++ leBytes 1 n.uplink.length ++ leBytes 2 0 ++ padTo 32 n.uplink) [] s)) ∧
       (n.st = 0 → exec (.nodeData t) s = .next (answer t .nodeUnknown [] [] s))) ∧
     (Takes { op := 0x0A09, lane := 3, len := 0, bulkOut := true, lean := true } t c s →
       (s.plc.fixedMaps = true ∨ s.plc.maps = [] → exec (.tonemapRead t) s = .next (answer t .ok [] (List.replicate 384 1) s)) ∧
       (s.plc.fixedMaps = false → s.plc.maps.length = 384 → exec (.tonemapRead t) s = .next (answer t .ok [] s.plc.maps s)))) ∧
  (∀ (t : Fin 64) (c : Cmd) (s : State), s.hw.frozen = false →
     (Takes { op := 0x0A01, lane := 2, len := 8, states := [.factory, .opened, .sealed], rsv := [(5, 3)] } t c s →
       payField c 0 1 ≤ 1 → payField c 1 1 ≤ 40 → 100 ≤ payField c 2 2 → payField c 2 2 ≤ 60000 → payField c 4 1 ≤ 1 →
       exec (.plcCfg t) s = .next (openStore (.plcCfg ((dPayload c.desc).take 8)) (some t) s)) ∧
     (Takes { op := 0x0A03, lane := 2, len := 10, states := [.factory, .opened, .sealed] } t c s →
       let id := BitVec.ofNat 64 (payField c 0 8)
       (∀ k : Fin 240, payField c 8 1 = 0 → (∀ j : Fin 240, nodeIdAt s j ≠ some id) → nodeIdAt s k = none →
         (∀ j : Fin 240, j < k → nodeIdAt s j ≠ none) → exec (.nodeEnrol t) s = .next (openStore (.nodeEnrol k id) (some t) s)) ∧
       (∀ j : Fin 240, payField c 8 1 = 0 → nodeIdAt s j = some id → exec (.nodeEnrol t) s = .next (answer t .range [] [] s)) ∧
       (payField c 8 1 = 0 → (∀ j : Fin 240, nodeIdAt s j ≠ none ∧ nodeIdAt s j ≠ some id) →
         exec (.nodeEnrol t) s = .next (answer t .tableFull [] [] s)) ∧
       (∀ k : Fin 240, payField c 8 1 = 1 → payField c 9 1 = k.val + 1 →
         (nodeIdAt s k ≠ none → exec (.nodeEnrol t) s = .next (openStore (.nodeEnrol k id) (some t) s)) ∧
         (nodeIdAt s k = none → exec (.nodeEnrol t) s = .next (answer t .nodeUnknown [] [] s)))) ∧
     (∀ k : Fin 240, Takes { op := 0x0A04, lane := 2, len := 12, states := [.factory, .opened, .sealed], rsv := [(1, 3)] } t c s →
       payField c 0 1 = k.val + 1 →
       (nodeIdAt s k = some (BitVec.ofNat 64 (payField c 4 8)) →
         exec (.nodeRetire t) s = .next (openStore (.nodeRetire k) (some t) s)) ∧
       (nodeIdAt s k ≠ some (BitVec.ofNat 64 (payField c 4 8)) → exec (.nodeRetire t) s = .next (answer t .nodeUnknown [] [] s))) ∧
     (∀ k : Fin 240, Takes { op := 0x0A07, lane := 2, len := 36, states := [.factory, .opened, .sealed], lean := true, rsv := [(2, 2)] } t c s →
       payField c 0 1 = k.val + 1 → 1 ≤ payField c 1 1 → payField c 1 1 ≤ 32 → (s.plc.nodes[k]).st ≠ 0 →
       ((s.plc.nodes[k]).downlink = [] → exec (.nodeSend t) s = .next (answer t .ok [] [] { s with plc := { s.plc with
         nodes := s.plc.nodes.set k { s.plc.nodes[k] with downlink := ((dPayload c.desc).drop 4).take (payField c 1 1) } } })) ∧
       ((s.plc.nodes[k]).downlink ≠ [] → exec (.nodeSend t) s = .next (answer t .busy [] [] s))) ∧
     (∀ k : Fin 240, Takes { op := 0x0A08, lane := 2, len := 1, states := [.factory, .opened, .sealed], lean := true } t c s →
       payField c 0 1 = k.val + 1 → (s.plc.nodes[k]).st ≠ 0 →
       (s.plc.ident = none → exec (.phaseIdent t) s = .next (answer t .ok [] [] { s with plc := { s.plc with ident := some (k, 0, []) } })) ∧
       (s.plc.ident.isSome = true → exec (.phaseIdent t) s = .next (answer t .busy [] [] s))))

/-- R327, R374, R376, R378, R391, R392, R393, R327, R371, R378, R379, R383, R388, R389: The display's commands. DISP_WRITE fills its region
of the draw plane and nothing else of it; a region off the panel, of odd width, or over the legal strip is refused; configuration, LUTs,
map and legal items ask for their stores, LUT and map only while no update or repair is pending. DISP_UPDATE. A native update latches
its band and its region and asks for the record in PREP before any ledger store; a legacy one is answered at once; a busy display, one
that is off, and bands that are not loaded refuse it. -/
def Obligations.DisplayCommandsTakeEffect : Prop :=
  (∀ (t : Fin 64) (c : Cmd) (s : State),
     let stFos : List Lifecycle := [.factory, .opened, .sealed]
     let idle := s.disp.upd = none ∧ s.disp.repairDue = false ∧ s.disp.checkPend = false
     (Takes { op := 0x0B01, lane := 2, len := 8, states := stFos, rsv := [(7, 1)] } t c s → s.hw.frozen = false →
       (payField c 0 1 ≤ 2 → payField c 1 1 ≤ 2 → payField c 2 2 ≤ 480 → payField c 4 2 ≤ 320 → payField c 6 1 ≤ 7 →
         exec (.dispCfg t) s = .next (openStore (.dispCfg ((dPayload c.desc).take 8)) (some t) s)) ∧
       (480 < payField c 2 2 ∨ 320 < payField c 4 2 → exec (.dispCfg t) s = .next (answer t .range [] [] s))) ∧
     (Takes { op := 0x0B02, lane := 1, len := 0 } t c s → exec (.dispStatus t) s = .next (answer t .ok
       (leBytes 1 (dispStateByte s.disp) ++ leBytes 1 s.disp.band.toNat ++ leBytes 2 0 ++
         leBytes 4 ((s.aux.inputs[crevasseIn]).result.toNat / 10) ++ leBytes 4 s.disp.lostFrames.toNat ++ leBytes 4 s.disp.updates.toNat) [] s)) ∧
     (Takes { op := 0x0B03, lane := 3, len := 8, bulkIn := some (fun p b => decide (2 * b.length = leAt p 4 2 * leAt p 6 2)),
              states := stFos, lean := true } t c s →
       let x := payField c 0 2
       let y := payField c 2 2
       let w := payField c 4 2
       let h := payField c 6 2
       (1 ≤ w → 1 ≤ h → w % 2 = 0 → x + w ≤ s.disp.width.toNat → y + h ≤ s.disp.height.toNat →
         s.disp.legalMask = 0 ∨ y + h + 32 ≤ s.disp.height.toNat →
         ∃ m, exec (.dispWrite t) s = .next (answer t .ok [] [] { s with disp := { s.disp with draw := m } }) ∧
           (∀ i j, i < w → j < h →
             let b := ((bulkOf c s).getD ((j * w + i) / 2) 0).toNat
             memGet 0 m ((y + j) * s.disp.width.toNat + x + i) = BitVec.ofNat 8 (if i % 2 = 0 then b % 16 else b / 16)) ∧
           (∀ a, (∀ i j, i < w → j < h → a ≠ (y + j) * s.disp.width.toNat + x + i) → memGet 0 m a = memGet 0 s.disp.draw a)) ∧
       (w % 2 = 1 ∨ s.disp.width.toNat < x + w ∨ s.disp.height.toNat < y + h ∨
           (s.disp.legalMask ≠ 0 ∧ s.disp.height.toNat < y + h + 32) →
         exec (.dispWrite t) s = .next (answer t .range [] [] s))) ∧
     (Takes { op := 0x0B05, lane := 3, len := 1, bulkIn := some (fun _ b => decide (b.length = 384)), states := stFos, lean := true } t c s →
       (∀ k : Fin 8, payField c 0 1 = k.val → lutOk (bulkOf c s) = true → idle → s.hw.frozen = false →
         exec (.lutLoad t) s = .next (openStore (.lut k (bulkOf c s)) (some t) s)) ∧
       (payField c 0 1 ≤ 7 → lutOk (bulkOf c s) = true → s.disp.upd.isSome = true → exec (.lutLoad t) s = .next (answer t .busy [] [] s)) ∧
       (7 < payField c 0 1 ∨ lutOk (bulkOf c s) = false → exec (.lutLoad t) s = .next (answer t .range [] [] s))) ∧
     (Takes { op := 0x0B06, lane := 3, len := 4, bulkIn := some (fun _ b => decide (1 ≤ b.length) && decide (b.length ≤ 300)),
              states := stFos, lean := true } t c s →
       (payField c 0 4 + (bulkOf c s).length ≤ 300 → idle → s.hw.frozen = false →
         exec (.unifLoad t) s = .next (openStore (.unif (payField c 0 4) (bulkOf c s)) (some t) s)) ∧
       (300 < payField c 0 4 + (bulkOf c s).length → exec (.unifLoad t) s = .next (answer t .range [] [] s))) ∧
     (Takes { op := 0x0B07, lane := 2, len := 8, states := [.factory, .opened], pairs := [(0, 4)] } t c s → s.hw.frozen = false →
       (payField c 0 4 < 32 → exec (.legalItems t) s = .next (openStore (.legalItems (BitVec.ofNat 32 (payField c 0 4))) (some t) s)) ∧
       (32 ≤ payField c 0 4 → exec (.legalItems t) s = .next (answer t .range [] [] s)))) ∧
  (∀ (t : Fin 64) (c : Cmd) (s : State),
     Takes { op := 0x0B04, lane := 2, len := 10, states := [.factory, .opened, .sealed], lean := true, rsv := [(1, 1)] } t c s →
     payField c 0 1 ≤ 2 →
     let x := payField c 2 2
     let y := payField c 4 2
     let w := payField c 6 2
     let h := payField c 8 2
     let d := s.disp
     (d.mode = 0 ∨ d.crevOpen = true → exec (.dispUpdate t) s = .next (answer t .noPanel [] [] s)) ∧
     (d.mode ≠ 0 → d.crevOpen = false →
       (regionAllowed d x y w h = false → exec (.dispUpdate t) s = .next (answer t .range [] [] s)) ∧
       (regionAllowed d x y w h = true →
         (d.mode = 1 → bandsLoaded d (chooseBand s).1.val x y w h = false → exec (.dispUpdate t) s = .next (answer t .range [] [] s)) ∧
         (d.mode = 1 → bandsLoaded d (chooseBand s).1.val x y w h = true → d.upd.isSome = true ∨ d.repairDue = true →
           exec (.dispUpdate t) s = .next (answer t .busy [] [] s)) ∧
         (d.mode = 1 → bandsLoaded d (chooseBand s).1.val x y w h = true → d.upd = none → d.repairDue = false → d.checkPend = false →
           s.hw.frozen = false →
           ∃ s' u, exec (.dispUpdate t) s = .next (openStore .dispPrep (some t) s') ∧ s'.disp.upd = some u ∧ u.typ.toNat = payField c 0 1 ∧
             u.x = x ∧ u.y = y ∧ u.w = w ∧ u.h = h ∧ u.band = (chooseBand s).1 ∧ u.id = BitVec.ofNat 32 (leAt d.record 0 4 + 1) ∧
             leAt s'.disp.record 0 4 = (leAt d.record 0 4 + 1) % 2 ^ 32 ∧ leAt s'.disp.record 4 1 = 1 ∧ leAt s'.disp.record 5 1 = 0xFF ∧
             s'.disp.shown = d.shown ∧ s'.disp.draw = d.draw ∧ s'.firn = s.firn) ∧
         (d.mode = 2 →
           ∃ s', exec (.dispUpdate t) s = .next (answer t .ok (leBytes 4 (leAt d.record 0 4 + 1)) [] s') ∧
             s'.disp.legacyCopy = d.legacyCopy ++ [(payField c 0 1, x, y, w, h)] ∧ s'.disp.draw = d.draw ∧ s'.disp.shown = d.shown ∧
             s'.disp.updates = satAdd d.updates 1))))

/-- R328, R363, R367, R463, R86, R87, R328, R356, R358, R361, R363, R370, R463: The readings of the group. AUX_READ clears the flags of
inputs that are inside again and the stamp of the latest exit, S0_READ clears OVERRUN, CF_READ gives the values written. The group's
configuration asks for its stores with values in range only; an injected conversion is held until its result, and finds itself late
where a calibration runs. -/
def Obligations.AuxCommandsTakeEffect : Prop :=
  (∀ (t : Fin 64) (c : Cmd) (s : State),
     (Takes { op := 0x0C03, lane := 1, len := 0 } t c s →
       exec (.auxRead t) s = .next (answer t .ok
         ((fins 16).flatMap (fun n => leBytes 2 (s.aux.inputs[n]).result.toNat) ++
           leBytes 4 ((fins 16).map (fun n => bitN (s.aux.inputs[n]).flag * 2 ^ n.val)).sum ++
           (match s.aux.lastExit with | some e => e.bytes | none => leBytes 12 0)) []
         { s with aux := { s.aux with
           inputs := s.aux.inputs.map (fun (i : AuxInput) => { i with flag := i.flag && i.outside.isSome }), lastExit := none } })) ∧
     (∀ n : Fin 8, Takes { op := 0x0C06, lane := 1, len := 1 } t c s → payField c 0 1 = n.val →
       exec (.s0Read t) s = .next (answer t .ok
         (leBytes 8 (s.s0[n]).total.toNat ++ leBytes 1 (bitN (s.s0[n]).overrun) ++ leBytes 3 0 ++ (s.s0[n]).last.bytes) []
         { s with s0 := s.s0.set n { s.s0[n] with overrun := false } })) ∧
     (∀ n : Fin 8, Takes { op := 0x0C08, lane := 1, len := 1 } t c s → payField c 0 1 = n.val →
       exec (.cfRead t) s = .next (answer t .ok
         (leBytes 4 (s.cfs[n]).cfgW.toNat ++ leBytes 8 (s.cfs[n]).qppW.toNat ++ leBytes 8 (s.cfs[n]).acc) [] s)) ∧
     (Takes { op := 0x0C08, lane := 1, len := 1 } t c s → 7 < payField c 0 1 → exec (.cfRead t) s = .next (answer t .range [] [] s))) ∧
  (∀ (t : Fin 64) (c : Cmd) (s : State),
     let stFos : List Lifecycle := [.factory, .opened, .sealed]
     (Takes { op := 0x0C01, lane := 2, len := 24, states := stFos, rsv := [(3, 1)] } t c s → s.hw.frozen = false →
       payField c 0 1 ≤ 1 → 1 ≤ payField c 1 1 → payField c 1 1 ≤ 16 → payField c 2 1 ≤ 1 →
       (∀ b ∈ ((dPayload c.desc).drop 4).take (payField c 1 1), b.toNat ≤ 15) →
       payField c 1 1 * convTime (payField c 2 1 == 1) ≤ payField c 20 4 → payField c 20 4 ≤ 60000000 →
       exec (.auxSeq t) s = .next (openStore (.auxSeq (payField c 0 1 == 1) (payField c 2 1 == 1)
         (((dPayload c.desc).drop 4).take (payField c 1 1)) (BitVec.ofNat 32 (payField c 20 4))) (some t) s)) ∧
     (∀ n : Fin 16, Takes { op := 0x0C02, lane := 2, len := 8, states := stFos, rsv := [(2, 2)] } t c s → s.hw.frozen = false →
       payField c 0 1 = n.val → payField c 1 1 ≤ 1 →
       (payField c 4 2 ≤ payField c 6 2 → exec (.auxWin t) s = .next (openStore (.auxWin n (payField c 1 1 == 1)
         (BitVec.ofNat 16 (payField c 4 2)) (BitVec.ofNat 16 (payField c 6 2))) (some t) s)) ∧
       (payField c 6 2 < payField c 4 2 → exec (.auxWin t) s = .next (answer t .range [] [] s))) ∧
     (∀ n : Fin 16, Takes { op := 0x0C04, lane := 1, len := 1 } t c s → payField c 0 1 = n.val → s.aux.powered = true → s.aux.cal = true →
       ∃ s', exec (.auxInject t) s = .next s' ∧
         s'.mb.tags[t] = some { c with started := true, waiting := true, startedAt := some s.time.ticks } ∧
         s'.aux.pending = s.aux.pending ++ [{ src := .inject t, input := n, late := true, waited := false }]) ∧
     (∀ n : Fin 16, Takes { op := 0x0C04, lane := 1, len := 1 } t c s → payField c 0 1 = n.val → s.aux.powered = true → s.aux.cal = false →
       s.stalled 10 = false → s.aux.running = none → s.aux.pending = [] → s.aux.lowPowerPend = none →
       ∃ s', exec (.auxInject t) s = .next s' ∧ s'.mb.tags[t] = some { c with started := true, waiting := true, startedAt := some s.time.ticks } ∧
         s'.aux = { s.aux with running := some { src := .inject t, input := n, late := false, waited := false } }) ∧
     (Takes { op := 0x0C04, lane := 1, len := 1 } t c s → 15 < payField c 0 1 → exec (.auxInject t) s = .next (answer t .range [] [] s)) ∧
     (∀ n : Fin 8, Takes { op := 0x0C05, lane := 2, len := 4, states := [.factory, .opened] } t c s → s.hw.frozen = false →
       payField c 0 1 = n.val → payField c 1 1 ≤ 1 →
       (10 ≤ payField c 2 2 → payField c 2 2 ≤ 20000 →
         exec (.s0Cfg t) s = .next (openStore (.s0Cfg n (payField c 1 1 == 1) (BitVec.ofNat 16 (payField c 2 2))) (some t) s)) ∧
       (payField c 2 2 < 10 ∨ 20000 < payField c 2 2 → exec (.s0Cfg t) s = .next (answer t .range [] [] s))) ∧
     (∀ n : Fin 8, Takes { op := 0x0C07, lane := 2, len := 16, states := [.factory, .opened], d2 := true, rsv := [(1, 3)] } t c s →
       s.hw.frozen = false → payField c 0 1 = n.val →
       (cfWriteOk s (payField c 4 4) (payField c 8 8) = true →
         exec (.cfWrite t) s = .next (openStore (.cf n (BitVec.ofNat 32 (payField c 4 4)) (BitVec.ofNat 64 (payField c 8 8))) (some t) s)) ∧
       (cfWriteOk s (payField c 4 4) (payField c 8 8) = false → exec (.cfWrite t) s = .next (answer t .range [] [] s))))

/-- R164, R174, R177, R239, R313, R313: A request for a store, by a command that waits for it. With no KETTLE reading of the last
millisecond it asks for one; below 4.6 V it is counted and answered DEFERRED, while a STEP hears RETRY and is not counted; at 4.6 V it
starts, unless a store of one of its groups runs or an earlier request must come first, and then holds the pages of its change. A request for a store writes no register that its change names: ports,
voltages, circuits, pulse outputs, voltage sets, clocks, pulse inputs, display, lifecycle and power stay as they are until the store is
complete. -/
def Obligations.StoreRequestsWaitForKettle : Prop :=
  (∀ (ch : Change) (t : Fin 64) (s : State), s.firnOn = true → s.hw.frozen = false → s.stalled 11 = false → requestIdsWf s = true →
     (kettleFresh s = false → ∃ r, (openStore ch (some t) s).firn.reqs = s.firn.reqs ++ [r] ∧ r.stage = .ask ∧ r.change = ch ∧
       r.tag = some t ∧ (openStore ch (some t) s).mb.tags[t] = (s.mb.tags[t]).map (fun c => { c with started := true, waiting := true, startedAt := some s.time.ticks })) ∧
     (kettleFresh s = true → kettleOk s = false →
       (∀ d, ch = .stepEpoch d → ∃ u, openStore ch (some t) s = answer t .retry [] [] u ∧ u.firn.reqs = s.firn.reqs ∧
         u.firn.defers = s.firn.defers ∧ u.time.step = s.time.step ∧ u.time.stepStore = false) ∧
       (∀ g, ch = .calCommit g → ∃ u r, openStore ch (some t) s = answer t .deferred [1] [] u ∧ u.firn.reqs = s.firn.reqs ++ [r] ∧
         r.stage = .kwait ∧ r.change = ch ∧ r.tag = none ∧ u.firn.defers = satAdd s.firn.defers 1 ∧
         (∀ x ∈ u.cal.txns, x.target = g → x.st = .deferred)) ∧
       ((∀ d, ch ≠ .stepEpoch d) → (∀ g, ch ≠ .calCommit g) → (∀ x y z, ch ≠ .mirrorApply x y z) → ∃ u r, openStore ch (some t) s = answer t .deferred (okPayload ch u) [] u ∧
           u.firn.reqs = s.firn.reqs ++ [r] ∧ r.stage = .kwait ∧ r.change = ch ∧ r.tag = none ∧
           u.firn.defers = satAdd s.firn.defers 1)) ∧
     (kettleFresh s = true → kettleOk s = true → (∀ o ∈ s.firn.reqs, o.stage ≠ .kwait) →
       (∀ o ∈ s.firn.reqs, ∀ k ∈ reqKeys o, k ∉ changeKeys ch) →
       (isCommit ch = true → ∀ o ∈ s.firn.reqs, isCommit o.change = true → o.stage = .running) →
       ∃ r ∈ (openStore ch (some t) s).firn.reqs, r.id = s.firn.issued ∧ r.stage = .running ∧ r.change = ch ∧ r.tag = some t ∧
         r.members.map (fun m => m.page) = changePages ch)) ∧
  (∀ (ch : Change) (o : Option (Fin 64)) (s : State),
     let t := openStore ch o s
     t.ports = s.ports ∧ t.volts = s.volts ∧ t.circuits = s.circuits ∧ t.cfs = s.cfs ∧ t.pqSets = s.pqSets ∧ t.clk = s.clk ∧ t.s0 = s.s0 ∧
       t.disp = s.disp ∧ t.sec = s.sec ∧ t.power = s.power ∧ t.energy = s.energy ∧ t.plc = s.plc ∧ t.firn.arr = s.firn.arr)

/-- R313, R169: a store whose every page is stored writes its registers and answers its command OK; one with a page that failed its verify
twice answers WORN and writes none. -/
def Obligations.StoresEndInOkOrWorn : Prop :=
  ∀ (r : StoreReq) (t : Fin 64) (s : State), r.tag = some t → (∀ a b e, r.change ≠ .mirrorApply a b e) →
    (r.members.any (fun m => decide (m.st = .failed)) = true →
      finishReq r s = answer t .worn [] [] (failChange r.change (dropReq r.id s))) ∧
    (r.members.any (fun m => decide (m.st = .failed)) = false → followUps r.change (applyChange r.change (dropReq r.id s)) = [] →
      finishReq r s = answer t .ok (okPayload r.change (applyChange r.change (dropReq r.id s))) []
        (applyChange r.change (dropReq r.id s)))

/-- R56, R64, R77, R158, R197, R205, R214, R221, R232, R239, R273, R326, R417, R420, R422: What the changes of the stored registers write. A
value of an enabled circuit is written at once and takes effect at its next close. A transition's store, once complete, changes the
state: the fuse of OPEN burns on the way out of FACTORY and that of RETIRED on the way into it, SEAL_BREAKS counts an unseal, the lock
is engaged in SEALED and RETIRED, and HW_IRQ.LIFECYCLE is set. -/
def Obligations.StoredChangesTakeEffect : Prop :=
  (∀ s : State,
     (∀ (c : Fin 24) (q : Word) (p : BitVec 48), cirEn (s.circuits[c]).cfg = true → (s.circuits[c]).stopped = false →
       (applyChange (.cirScale c q p) s).circuits = s.circuits.set c { s.circuits[c] with
         quantumW := q, pfsW := p, keW := BitVec.ofNat 64 (keOf p.toNat q.toNat), clear := true }) ∧
     (∀ (c : Fin 24) (z : Byte) (nl : NoLoad), cirEn (s.circuits[c]).cfg = true → (s.circuits[c]).stopped = false →
       (applyChange (.cirLimits c z nl) s).circuits = s.circuits.set c { s.circuits[c] with zcToW := z, nlW := nl }) ∧
     (∀ v, applyChange (.ltrim v) s = { s with clk := { s.clk with ltrim := v } }) ∧
     (∀ v, (applyChange (.clkCfg v) s).clk.cfg = v) ∧
     (∀ base slew bill, applyChange (.legalParams 7 base slew bill) s =
       { s with clk := { s.clk with base := base, slewCfg := slew, billCfgW := bill } }) ∧
     (∀ a b, applyChange (.asym 3 a b) s = { s with ring := { s.ring with
       portA := { s.ring.portA with asym := a }, portB := { s.ring.portB with asym := b } } }) ∧
     (∀ v, applyChange (.ringHcfg v) s = { s with ring := { s.ring with hcfg := v } }) ∧
     (∀ bs, applyChange (.tcomp bs) s = { s with clk := { s.clk with tcomp := bs } }) ∧
     (∀ d, ∃ p, applyChange (.stepEpoch d) s = { s with time := { s.time with step := some p, stepStore := false } } ∧
       p.at_ % 1000000 = 0 ∧ s.nowNs + 5000000 ≤ p.at_ ∧ p.at_ < s.nowNs + 6000000 ∧ p.delta = d ∧ p.epoch = s.time.epoch + 1 ∧
       p.sends = 3) ∧
     (∀ (b : Fin 8) (l : List Byte), applyChange (.lut b l) s = { s with disp := { s.disp with luts := s.disp.luts.set b (some l) } }) ∧
     (∀ (i : Fin 16) (low high : BitVec 16), (applyChange (.auxWin i true low high) s).aux.inputs[i] =
       { s.aux.inputs[i] with low := low, high := high, en := true,
                              outside := if (s.aux.inputs[i]).en then (s.aux.inputs[i]).outside else none })) ∧
  (∀ (g : Lifecycle) (u : Bool) (time : Stamp) (legal : BitVec 48) (s : State),
     let a := applyChange (.lifecycle g u time legal) s
     a.sec.state = g ∧ a.sec.fuseOpened = (s.sec.fuseOpened || decide (s.sec.state = .factory ∧ g = .opened)) ∧
       a.sec.fuseRetired = (s.sec.fuseRetired || decide (g = .retired)) ∧
       a.sec.lock = (decide (g = .sealed) || decide (g = .retired)) ∧
       a.sec.sealBreaks = (if u then satAdd s.sec.sealBreaks 1 else s.sec.sealBreaks) ∧ a.hw.irq.getLsbD 7 = true ∧
       a.sec.makerKey = s.sec.makerKey ∧ a.hw.irqEn = s.hw.irqEn)

/-- R164, R169, R172, R177: the end of a page store. A page that verifies is programmed with its image, whose COUNT is one higher; the first
failure repeats it and changes nothing of the array, and the second leaves its slot without a header and sets WORN. -/
def Obligations.PageStoresEndInTheirSlot : Prop :=
  ∀ (b : Fin 16) (w : SaveMeter) (s : State) (r : StoreReq) (m : Member), s.firnOn = true → s.stalled 11 = false →
    busyMember s.firn.reqs b.val = some (r, m) →
    (∃ t, exec (.pageStoreDone b true w) s = .next t ∧
      t.firn.arr = memPuts 0xFF s.firn.arr (160 * m.page + 80 * bitN m.slot) (slotImage (pageCount s.firn m.page + 1) m.group m.data)) ∧
    (m.tries = 0 → ∃ t, exec (.pageStoreDone b false w) s = .next t ∧ t.firn.arr = s.firn.arr) ∧
    (m.tries ≠ 0 → ∃ t bs, exec (.pageStoreDone b false w) s = .next t ∧ t.firn.worn = true ∧
      t.firn.arr = memPuts 0xFF s.firn.arr (160 * m.page + 80 * bitN m.slot) bs ∧ bs.length = 80 ∧ bs.take 4 = List.replicate 4 0xFF)

/-- R172 to R174, R186, R187: the other events of the store. A group changes over whole; a checkpoint is requested after 3,600 s of powered
time; the scrubber refreshes a page that its margin read fails, and passes on after one that it does not. -/
def Obligations.FirnEventsTakeEffect : Prop :=
  (∀ (base : Nat) (s : State) (r : StoreReq), s.firnOn = true → s.stalled 11 = false →
    s.firn.reqs.find? (groupReady s.firn base) = some r →
    ∃ t, exec (.groupStoreDone base) s = .next t ∧ t.firn.arr = s.firn.arr ∧
      (∀ m ∈ r.members, storeKey m.page = base → inUse t.firn m.page = some m.slot)) ∧
  (∀ (s : State) (r : StoreReq), s.firnOn = true → s.hw.frozen = false → s.stalled 11 = false → kettleFresh s = true → kettleOk s = true →
    s.firn.reqs = [r] → r.stage = .kwait →
    ∃ t q, exec .storeStart s = .next t ∧ q ∈ t.firn.reqs ∧ q.id = r.id ∧ q.change = r.change ∧ q.stage = .running ∧
      q.members.map (fun m => m.page) = changePages r.change) ∧
  (∀ s : State, s.coreOn = true → s.hw.loaded = true → s.hw.frozen = false →
    (28800 ≤ s.firn.ptCkpt.toNat → exec .accumulatorCheckpoint s =
      .next (openStore .checkpoint none { s with firn := { s.firn with ptCkpt := 0 } })) ∧
    (1575 ≤ s.firn.ptScrub.toNat → s.firn.reqs = [] →
      let next := { s with firn := { s.firn with ptScrub := 0, scrubPage := BitVec.ofNat 16 ((s.firn.scrubPage.toNat + 1) % 3072) } }
      (∀ a b : Bool, pageLost s.firn s.firn.scrubPage.toNat = false → (a && b) = false →
        exec (.scrubberStep a b) s = .next (openStore (.refresh s.firn.scrubPage.toNat) none next)) ∧
      exec (.scrubberStep true true) s = .next next) ∧
    (s.firn.ptCkpt.toNat < 28800 → exec .accumulatorCheckpoint s = .next s))

/-- R64, R66, R71, R76, R78: a close on a crossing, on the time-out or on a fixed boundary books the cycle: each accumulator takes the share
that the cycle's quantities give it, CYCLES counts one, and the next cycle starts at the grid point of the closing tick. No other
circuit's totals change. -/
def Obligations.CycleClosesBookTotals : Prop :=
  ∀ (c : Fin 24) (s : State), s.metering = true → s.sec.state ≠ .retired →
    ∀ i : Instr, (i = .cycleClose c ∧ (s.circuits[c]).due = .crossing) ∨ (i = .nozcTimeout c ∧ (s.circuits[c]).due = .timeout) ∨
      (i = .fixedBoundary c ∧ (s.circuits[c]).due = .boundary) →
    let r := s.circuits[c]
    let v := cycleVals r
    let creep := creepOf r.nl v
    ∃ t, exec i s = .next t ∧ (t.circuits[c]).totals.cycles = r.totals.cycles + 1 ∧ (t.circuits[c]).due = .none ∧
      (t.circuits[c]).startT = s.gridStamp ∧ (t.circuits[c]).len ≤ 1 ∧
      (t.circuits[c]).totals.flags.getLsbD 0 = decide (r.due = .timeout) ∧
      (r.clear = false → ∀ k : Fin 10, ((t.circuits[c]).totals.acc[k]).toNat =
        ((r.totals.acc[k]).toNat + (routeCycle r.ke r.len v creep)[k]) % 2 ^ 96) ∧
      (r.clear = true → (t.circuits[c]).totals.acc = Vector.replicate 10 0) ∧
      (∀ d : Fin 24, d ≠ c → (t.circuits[d]).totals = (s.circuits[d]).totals)

/-- R86, R88, R19, R24 to R26, R28, R29, R44, R465: A scheduled pulse of an idle CF output starts on its tick at the active level for WIDTH,
and ends at the inactive one. The events of the sense ports, of the matching loops and of the alignment. -/
def Obligations.PulsesAndPortEvents : Prop :=
  (∀ (o : Fin 8) (s : State), s.metering = true →
     (∀ at_ rest, (s.cfs[o]).pulse = none → (s.cfs[o]).sched = at_ :: rest → at_ ≤ s.time.ticks →
       exec (.cfPulse o) s = .next { s with cfs := s.cfs.set o { s.cfs[o] with
         sched := rest, started := some s.time.ticks, pulse := some (s.time.ticks + 32 * cfWidth (s.cfs[o]).cfg), level := !cfPol (s.cfs[o]).cfg } }) ∧
     (∀ at_ rest, (s.cfs[o]).pulse = none → (s.cfs[o]).sched = at_ :: rest → s.time.ticks < at_ → exec (.cfPulse o) s = .next s) ∧
     (∀ stop, (s.cfs[o]).pulse = some stop → stop ≤ s.time.ticks →
       exec (.cfPulseEnd o) s = .next { s with cfs := s.cfs.set o { s.cfs[o] with pulse := none, level := cfPol (s.cfs[o]).cfg } })) ∧
  ((∀ (p : Fin 24) (s : State), s.coreOn = true → (s.ports[p]).settle = 1 →
     exec (.settlingEnd (.port p)) s = .next { s with ports := s.ports.set p { s.ports[p] with settle := 0 } }) ∧
   (∀ (k : Fin 2) (s : State), s.coreOn = true → (s.pqSets[k]).settle = 1 →
     exec (.settlingEnd (.vset (decide (k = 1)))) s = .next { s with pqSets := s.pqSets.set k { s.pqSets[k] with settle := 0 } }) ∧
   (∀ (p : Fin 24) (g d : Word) (s : State), s.metering = true →
     (32000 ≤ (s.ports[p]).blockCnt →
       let r := matchBlock g d s.ports[p]
       r.blockCnt = 0 ∧
       (∀ c, s.circuitOf p = some c → exec (.matchBlockEnd p g d) s = .next { s with ports := s.ports.set p r }) ∧
       (s.circuitOf p = none →
         exec (.matchBlockEnd p g d) s = .next { s with ports := s.ports.set p { r with gUse := r.gCalc, dUse := r.dCalc } }) ∧
       (blockValid s.ports[p] = false → r.gCalc = (s.ports[p]).gCalc ∧ r.dCalc = (s.ports[p]).dCalc ∧ r.mstate = (s.ports[p]).mstate)) ∧
     ((s.ports[p]).blockCnt < 32000 → exec (.matchBlockEnd p g d) s = .next s)) ∧
   (∀ (p : Fin 24) (s : State), s.coreOn = true → (s.ports[p]).mstate = .track → 60 ≤ (s.ports[p]).age.toNat →
     exec (.matchHoldTimeout p) s = .next { s with ports := s.ports.set p { s.ports[p] with mstate := .hold } }) ∧
   (∀ s : State, s.coreOn = true → s.hw.loaded = true → s.hw.frozen = false → 691200 ≤ s.firn.ptMatch.toNat →
     exec .matchStore s = .next (openStore .matchPages none { s with firn := { s.firn with ptMatch := 0 } })) ∧
   (∀ s : State, s.coreOn = true → s.time.mode = .pull → 32000 ≤ s.time.lockRun →
     exec .alignLock s = .next { s with time := { s.time with mode := .lock, stepPull := false, pulling := false } }))

/-- R23: with DUAL 0, or with the matching loop in FAULT, the stitcher selects COARSE for every sample: what leaves it is the coarse sample
at the centre of the port's history, clipped at full scale (R22). -/
def Obligations.CoarseWithoutMatching : Prop :=
  ∀ r : Port, portDual r.cfg = false ∨ r.mstate = .fault →
    (stitch r).1.fineSel = false ∧
      (stitch r).2 = ((clampInt (-(2 ^ 30)) (2 ^ 30) (r.hist.getD (centre r.cfg) .zero).coarse : Int) : Rat)

/-- R140, R148, R150, R152, R154, R156: the Tracer's events and the lapse of a transaction. A block above
10 kΩ, or a pilot out of compliance, leads to FAULT, and after 64 s there a retry to a new ramp; a ramp of 8 s leads to MEASURE; a period
that is accepted counts, one that is noisy is only marked; a transaction that is open becomes STALE. -/
def Obligations.TracerEventsTakeEffect : Prop :=
  (∀ (p : Fin 24) (hi lo lost : Bool) (s : State), s.metering = true → pilotOn s.ports[p] = true →
    let r := (s.ports[p]).tracer
    let put := fun (x : Tracer) => { s with ports := s.ports.set p { s.ports[p] with tracer := x } }
    let next := { r with demI := 0, demQ := 0, demAmp := 0, demN := 0 }
    let fault := { next with st := 3, stTicks := 0, blocks := [], openSeen := true, zs := none }
    (hi = true ∨ lo = true ∨ lost = true → exec (.tracerBlock p hi lo lost) s = .next (put fault)) ∧
    (hi = false → lo = false → lost = false → 8000 ≤ r.demN →
      (∀ zr zx, demodulated r = some (zr, zx) →
        (10000000000 ^ 2 < zr * zr + zx * zx → exec (.tracerBlock p hi lo lost) s = .next (put fault)) ∧
        (zr * zr + zx * zx ≤ 10000000000 ^ 2 → exec (.tracerBlock p hi lo lost) s = .next (put { next with
          zs := smoothZ (zr, zx) r.zs, blocks := if r.st = 2 then (zr, zx) :: r.blocks else r.blocks }))) ∧
      (demodulated r = none → exec (.tracerBlock p hi lo lost) s = .next (put next))) ∧
    (hi = false → lo = false → lost = false → r.demN < 8000 → exec (.tracerBlock p hi lo lost) s = .next s)) ∧
  (∀ (p : Fin 24) (wide : Bool) (s : State), s.metering = true → pilotOn s.ports[p] = true →
    let r := (s.ports[p]).tracer
    let put := fun (x : Tracer) => { s with ports := s.ports.set p { s.ports[p] with tracer := x } }
    let zr := meanOf (r.blocks.map (·.1))
    let zx := meanOf (r.blocks.map (·.2))
    let lim := zr ^ 2 + zx ^ 2
    (r.st = 2 → 4 * 2 ^ (r.cfg.toNat / 256 % 16) ≤ r.blocks.length →
      (lim * r.blocks.length < 10000 * (r.blocks.map (fun a => (zr - a.1) ^ 2 + (zx - a.2) ^ 2)).sum → periodNoisy wide (zr, zx) r.blocks = true) ∧
      (periodNoisy wide (zr, zx) r.blocks = true →
        exec (.tracerPeriodEnd p wide) s = .next (put { r with noisySeen := true, blocks := [] })) ∧
      (periodNoisy wide (zr, zx) r.blocks = false →
        ∃ x, exec (.tracerPeriodEnd p wide) s = .next (put x) ∧ x.zr = sat32 zr ∧ x.zx = sat32 zx ∧ x.rLoop = loopOhms zr zx ∧
          x.periods = satAdd r.periods 1 ∧ x.blocks = [] ∧
          x.accepted = x.rLoop :: r.accepted ∧ x.everAccepted = true ∧ x.noisySeen = r.noisySeen ∧ x.trim = r.trim)) ∧
    (r.st ≠ 2 ∨ r.blocks.length < 4 * 2 ^ (r.cfg.toNat / 256 % 16) → exec (.tracerPeriodEnd p wide) s = .next s)) ∧
  (∀ (p : Fin 24) (s : State), s.coreOn = true →
    let r := (s.ports[p]).tracer
    (r.st = 1 → 256000 ≤ r.stTicks → exec (.tracerRampEnd p) s = .next { s with ports := s.ports.set p { s.ports[p] with
      tracer := { r with st := 2, stTicks := 0, demI := 0, demQ := 0, demAmp := 0, demN := 0, blocks := [], everAccepted := false } } }) ∧
    (r.st ≠ 1 ∨ r.stTicks < 256000 → exec (.tracerRampEnd p) s = .next s) ∧
    (r.st = 3 → 64 * 32000 ≤ r.stTicks → ∃ x, exec (.tracerRetry p) s = .next { s with ports := s.ports.set p { s.ports[p] with tracer := x } } ∧
      x.st = (if trcEn r.cfg && portEn (s.ports[p]).cfg then 1 else 0) ∧ x.stTicks = 0 ∧ x.everAccepted = false ∧ x.trim = r.trim) ∧
    (r.st ≠ 3 ∨ r.stTicks < 64 * 32000 → exec (.tracerRetry p) s = .next s)) ∧
  (∀ s : State, s.coreOn = true → s.hw.loaded = true → s.hw.frozen = false → 28800 ≤ s.firn.ptTrace.toNat →
    let q := queuedTrims { s with firn := { s.firn with ptTrace := 0 } }
    (q = [] → exec .trimEvaluation s = .next { s with firn := { s.firn with ptTrace := 0 } }) ∧
    (q ≠ [] → ∃ u, exec .trimEvaluation s = .next (openStore (.trims (q.map (fun e => (e.1, e.2.1)))) none u) ∧ u.firn.ptTrace = 0 ∧
      (∀ p : Fin 24, (u.ports[p]).tracer.trim = (s.ports[p]).tracer.trim))) ∧
  (∀ (g : CalTarget) (s : State), exec (.calIdleTimeout g) s = .next { s with cal := { s.cal with txns := s.cal.txns.map (fun u =>
    if u.target = g ∧ u.st = .opened then { u with st := .stale } else u) } })

/-- R179 to R182, R201, R410: the triggers of the power-fail sequence freeze metering, put PD_AO on KETTLE, note cause and KETTLE, and start
the save; EARLY_WARNING leaves VSUP valid, the others end it. HOLD follows the end of the save;
where VSUP has stayed valid and VMON has risen, the device resumes, also where it rose while the save still ran. -/
def Obligations.PowerFailEventsTakeEffect : Prop :=
  (∀ (i : Instr) (cause dt : Nat) (kettle : BitVec 16) (s : State),
    (i = .earlyWarning dt kettle ∧ cause = 1) ∨ (i = .brownOut dt kettle ∧ cause = 2) ∨ (i = .resetNLow dt kettle ∧ cause = 3) →
    s.coreOn = true → s.hw.frozen = false →
    ∃ t, exec i s = .next t ∧ t.hw.frozen = true ∧ t.hw.irq.getLsbD 6 = true ∧ t.power.supply = .kettle ∧ t.power.state = s.power.state ∧
      t.firn.save.saving = true ∧ t.firn.save.cause.toNat = cause ∧ t.firn.save.kStart = kettle ∧
      t.firn.save.time = s.stampAt (s.nowNs + dt) ∧ t.power.vsupValid = decide (cause = 1) ∧
      t.power.vsupHeld = (s.power.vsupHeld && decide (cause ≠ 2)) ∧ t.power.resetN = (s.power.resetN && decide (cause ≠ 3)) ∧
      t.clk.legal.count = s.clk.legal.count ∧ t.disp.dpwrEn = false ∧ t.firn.pump = false ∧
      (s.clk.billIsOpen = true → t.clk.billFlags.getLsbD 3 = true)) ∧
  (∀ (dt : Nat) (kettle : BitVec 16) (s : State), s.coreOn = true → s.hw.frozen = true →
    exec (.earlyWarning dt kettle) s = .next { s with firn := { s.firn with save := { s.firn.save with resumeDue := false } } }) ∧
  (∀ (dt : Nat) (kettle : BitVec 16) (s : State), s.coreOn = true → s.hw.frozen = true → s.firn.save.saving = false →
    ∃ t, exec (.brownOut dt kettle) s = .next t ∧ t.power.state = .hold ∧ t.power.supply = .vbak ∧ t.clk.legal.count = s.clk.legal.count ∧
      t.firn.arr = s.firn.arr) ∧
  (∀ (v again : Bool) (s : State), s.firnOn = true → saveEnded (endRunLog v again s) = true →
    ∃ t, exec (.saveComplete v again) s = .next t ∧ t.firn.save.saving = false ∧ t.firn.arr = (endRunLog v again s).firn.arr ∧
      (s.power.vsupValid = true → t.power.state = s.power.state ∧ t.hw.frozen = (s.hw.frozen && !s.firn.save.resumeDue)) ∧
      (s.power.vsupValid = false → t.power.state = .hold) ∧
      (s.firn.save.lowKettleAo = true → busyMember s.firn.reqs 0 = none → t.firn.arr = s.firn.arr)) ∧
  (∀ (us : List Nat) (s : State), s.firnOn = true → s.power.supply = .kettle →
    ∃ t, exec (.kettleCollapse us) s = .next t ∧ t.firn.reqs = [] ∧ t.firn.save.saving = false ∧
      (s.power.vsupValid = false → t.power.state = .hold) ∧ (s.power.vsupValid = true → t.power.state = s.power.state)) ∧
  (∀ s : State, s.coreOn = true → s.hw.frozen = true → s.firn.save.saving = false →
    ∃ t, exec .resume s = .next t ∧ t.hw.frozen = false ∧ t.power.supply = .vsup ∧
      (∀ c : Fin 24, (t.circuits[c]).totals = (s.circuits[c]).totals ∧
        (cirEn (s.circuits[c]).cfg = true → (s.circuits[c]).stopped = false → (t.circuits[c]).next.isPartial = true))) ∧
  (∀ s : State, s.coreOn = true → s.hw.frozen = true → s.firn.save.saving = true →
    exec .resume s = .next { s with firn := { s.firn with save := { s.firn.save with resumeDue := true } } })

/-- R410 to R415, R201 to R204, R410, R413: Start-up from HOLD or OFF restores the critical region and selects RUN or LEAN; at the end of
loading the latches hold the restored totals with sequence 0. The events of PD_AO and of the charger. -/
def Obligations.StartUpAndBackupSupply : Prop :=
  ((∀ (leanN head low : Bool) (s : State), s.firnOn = false →
     ∃ t, exec (.vsupValid leanN head low) s = .next t ∧ t.power.state = (if leanN then .run else .lean) ∧ t.power.vsupValid = true ∧
       t.power.supply = (if s.power.supply = .none then .vsup else s.power.supply) ∧
       t.power.vsupDue = decide (s.power.supply ≠ .none) ∧ t.hw.frozen = false ∧ t.hw.loaded = false ∧ t.hw.mpReady = false ∧ t.ring.isHead = head ∧
       t.sec.debug = 0 ∧ (s.sec.fuseRetired = true → t.sec.fuseRetired = true ∧ t.sec.state = .retired) ∧
       t.firn.arr = s.firn.arr ∧
       (s.power.state = .hold → s.power.aoReset = false →
         t.clk.legal.count = s.clk.legal.count ∧ t.clk.service.count = s.clk.service.count ∧ t.clk.alarms = s.clk.alarms)) ∧
   (∀ (a b d : Bool) (s : State), s.firnOn = true → exec (.vsupValid a b d) s = .next s) ∧
   (∀ s : State, s.coreOn = true → s.hw.loaded = false → s.hw.frozen = false →
     ∃ u, exec .loaded s = .next (startStores u) ∧
       (s.firn.runLogOwed = true →
         (s.ring.isHead = true → s.time.startStored = false → s.time.startWorn = false → (∀ r ∈ s.firn.reqs, r.change ≠ .epochStart) →
           startStores u = openStore .epochStart none (openStore .runLogStart none { u with firn := { u.firn with runLogOwed := false } })) ∧
         (s.ring.isHead = false → startStores u = openStore .runLogStart none { u with firn := { u.firn with runLogOwed := false } })) ∧
       (s.firn.runLogOwed = false → s.ring.isHead = false → startStores u = u) ∧
       u.hw.loaded = true ∧ u.energy.hostLatch = { image := some s.totalsImage, seq := 0 } ∧
       u.energy.mpLatch = { image := some s.totalsImage, seq := 0 } ∧ u.firn = s.firn ∧ u.circuits = s.circuits) ∧
   (∀ (level : Bool) (s : State), s.coreOn = true → s.hw.swapping = false →
     level = true ∨ (s.disp.mode ≠ 1 ∧ s.plc.txUntil ≤ s.nowNs ∧ ∀ x, s.plc.xchg = some x → x.detected = none) →
     ∃ t, exec (.leanNChange level) s = .next t ∧ t.power.state = (if level then .run else .lean) ∧ t.power.leanPend = none ∧
       (t.power.state ≠ s.power.state → t.sec.debug = 0 ∧ t.sec.unsealNonce = none ∧ t.sec.debugNonce = none) ∧
       t.circuits = s.circuits ∧ t.firn = s.firn) ∧
   (∀ s : State, s.coreOn = true →
     s.hw.swapping = true ∨ s.nowNs < s.plc.txUntil ∨ (s.disp.mode = 1 ∧ s.disp.upd.isSome = true) →
     exec (.leanNChange false) s = .next { s with power := { s.power with leanN := false, leanPend := some true } })) ∧
  ((∀ s : State, s.power.state = .hold →
     exec .wakeN s = .next { s with power := { s.power with pwrWake := true } } ∧
     exec .pwrWakeTimeout s = .next { s with power := { s.power with pwrWake := false } } ∧
     (s.power.vsupHeld = false → exec .pdAoSupplyLost s =
       .next { s with power := { s.power with state := .off, supply := .none, pwrWake := false } })) ∧
   (∀ s : State, s.power.state = .off → ∃ t, exec .pdAoPowerUp s = .next t ∧ t.power.state = .hold ∧ t.power.supply = .vbak ∧
     t.clk.legal.count = 0 ∧ t.clk.service.count = 0 ∧ t.clk.oscStopped = true ∧ t.clk.legalInvalid = true ∧ t.firn.arr = s.firn.arr) ∧
   (∀ s : State, s.power.state ≠ .off → exec .vbakLow s = .next { s with clk := { s.clk with vbakLow := true } }) ∧
   (∀ (mv : Nat) (s : State), s.coreOn = true →
     let stop := 2400 + 100 * (s.clk.cfg.toNat / 4096 % 16)
     exec (.chargerThreshold mv) s = .next { s with clk := { s.clk with
       chgOn := s.power.vsupHeld && (s.clk.cfg.getLsbD 7 && decide (mv < stop) && (decide (mv + 50 ≤ stop) || s.clk.chgOn)),
       vbakMv := mv } }))

/-- R194, R196, R204, R216: a crystal tick with nothing due adds 1 to both counts; the trim accumulator of the legal clock gains |T|, and
its carry adds or skips one; a write whose ticks have passed lands. OSC_STOPPED latches, and the first edge after a stop counts. -/
def Obligations.CrystalTicksCount : Prop :=
  ∀ s : State, s.power.state ≠ .off →
    (s.clk.crystalRuns = true → (∀ n : Fin 4, (s.clk.alarms[n]).due = false) → s.clk.boundaryDue = false →
      s.clk.legal.write = none → s.clk.service.write = none → s.clk.slewTotal = 0 → s.clk.slewHeld = 0 → s.clk.tcDue = false →
      ∃ t, exec .crystalTick s = .next t ∧
        t.clk.legal.trimAcc = s.clk.legal.trimAcc + BitVec.ofNat 20 (ltrimOf s.clk.ltrim).natAbs ∧
        t.clk.service.trimAcc = s.clk.service.trimAcc + BitVec.ofNat 20 (serviceTrim s.clk).natAbs ∧
        (s.clk.legal.trimAcc.toNat + (ltrimOf s.clk.ltrim).natAbs < 2 ^ 20 → t.clk.legal.count = s.clk.legal.count + 1) ∧
        (2 ^ 20 ≤ s.clk.legal.trimAcc.toNat + (ltrimOf s.clk.ltrim).natAbs →
          (0 < ltrimOf s.clk.ltrim → t.clk.legal.count = s.clk.legal.count + 2) ∧
          (ltrimOf s.clk.ltrim < 0 → t.clk.legal.count = s.clk.legal.count)) ∧
        (s.clk.service.trimAcc.toNat + (serviceTrim s.clk).natAbs < 2 ^ 20 → t.clk.service.count = s.clk.service.count + 1) ∧
        t.firn = s.firn ∧ t.circuits = s.circuits ∧ t.energy = s.energy) ∧
    (∀ (n : BitVec 33) (w : BitVec 3), s.clk.crystalRuns = true → (∀ k : Fin 4, (s.clk.alarms[k]).due = false) →
      s.clk.boundaryDue = false → s.clk.service.write = some (n, some w, 0) →
      ∃ t, exec .crystalTick s = .next t ∧ t.clk.service.count.toNat = n.toNat * 32768 ∧ t.clk.service.wday = w ∧
        t.clk.service.write = none) ∧
    (s.clk.crystalRuns = false → exec .crystalTick s = .next s ∧
      exec .oscResume s = exec .crystalTick { s with clk := { s.clk with crystalRuns := true } }) ∧
    exec .oscStopped s = .next { s with clk := { s.clk with oscStopped := true, crystalRuns := false } }

/-- R207, R209, R222, R223, R199, R200, R213, R215, R218: What the tick has made due. An alarm fires once, disarms, sets FIRED and raises
CLOCK; a weekday advances from 6 to 0; a boundary closes the interval, keeps its snapshot and starts the next; the MP then forms its
record. The sample of LCLK_OFS at a whole second of ring time and the slew it starts, and the temperatures of the compensation. -/
def Obligations.ClockEventsTakeEffect : Prop :=
  ((∀ (n : Fin 4) (s : State), s.power.state ≠ .off → s.stalled 7 = false → (s.clk.alarms[n]).due = true →
     ∃ t, exec (.alarmFire n) s = .next t ∧ (t.clk.alarms[n]).arm = false ∧ (t.clk.alarms[n]).fired = true ∧
       (t.clk.alarms[n]).skipped = ((s.clk.alarms[n]).skipped || (s.clk.alarms[n]).dueSkip) ∧ t.hw.irq.getLsbD 3 = true ∧
       ((s.clk.alarms[n]).wake = true → s.power.state = .hold → t.power.pwrWake = true) ∧
       (s.power.state ≠ .hold → t.power = s.power) ∧ (∀ m : Fin 4, m ≠ n → t.clk.alarms[m] = s.clk.alarms[m])) ∧
   (∀ s : State, s.power.state ≠ .off →
     (s.clk.legal.wdayDue = true → exec (.weekdayAdvance .legal) s = .next { s with clk := { s.clk with legal := { s.clk.legal with
       wday := if s.clk.legal.wday = 6 then 0 else s.clk.legal.wday + 1, wdayDue := false } } }) ∧
     (s.clk.service.wdayDue = true → exec (.weekdayAdvance .service) s = .next { s with clk := { s.clk with service := { s.clk.service with
       wday := if s.clk.service.wday = 6 then 0 else s.clk.service.wday + 1, wdayDue := false } } })) ∧
   (∀ s : State, s.coreOn = true → s.hw.loaded = true → s.stalled 7 = false → s.clk.boundaryDue = true → s.clk.billIsOpen = true →
     s.clk.boundary = none →
     ∃ t b, exec .billingBoundary s = .next t ∧ t.clk.boundary = some b ∧ b.stop = s.clk.legal.count ∧ b.next = s.clk.legal.count ∧
       b.time = s.stampAt s.clk.lfNs ∧ b.flags = s.clk.billFlags ∧ b.spans = 1 ∧ t.clk.boundaryDue = false ∧ t.clk.billCfg = s.clk.billCfgW ∧
       t.energy.mpLatch = { image := some s.totalsImage, seq := s.energy.mpLatch.seq + 1 } ∧ t.energy.hostLatch = s.energy.hostLatch) ∧
   (∀ (s : State) (b : Boundary), s.mpRuns = true → s.clk.boundary = some b → s.stalled 7 = false →
     ∃ t r, exec .billRecord s = .next t ∧ t.clk.boundary = none ∧ t.clk.records.head? = some r ∧ r.seq = s.clk.billSeq ∧
       r.flags = b.flags ∧ r.start = s.clk.billStart ∧ r.stop = b.stop ∧ r.time = b.time ∧ t.clk.billStart = b.next ∧
       t.clk.billSeq = s.clk.billSeq + BitVec.ofNat 32 (b.spans + s.clk.billExtra))) ∧
  ((∀ s : State, s.coreOn = true → s.time.inUse = true → s.stalled 7 = false → s.gridNs % 1000000000 = 0 →
     (s.clk.skipSample = true → ∃ t, exec .legalOffsetSample s = .next t ∧ t.clk.ofs = s.clk.ofs ∧
       t.clk.slewing = (s.clk.slewing && decide (slewBefore s.clk.slewTotal s.clk.slewTick < s.clk.slewTotal)) ∧
       t.clk.skipSample = false) ∧
     (s.clk.skipSample = false →
       let o := legalOffset s.clk s.gridNs
       ∃ t, exec .legalOffsetSample s = .next t ∧ t.clk.ofs = BitVec.ofInt 32 o ∧
         t.clk.legalFar = decide (slewLimitOf s.clk.slewCfg * 32768 < o.natAbs) ∧
         (slewHold s = false → o.natAbs ≤ slewLimitOf s.clk.slewCfg * 32768 → 1 < o.natAbs → 0 < slewRateOf s.clk.slewCfg →
           t.clk.slewing = true ∧ t.clk.slewTotal = min o.natAbs (slewRateOf s.clk.slewCfg) ∧ t.clk.slewPos = decide (0 < o)) ∧
         (slewHold s = true ∨ o.natAbs ≤ 1 → t.clk.slewing = false ∧ t.clk.slewTotal = 0) ∧
         t.clk.legal = s.clk.legal ∧ t.clk.service = s.clk.service)) ∧
   (∀ (theta : Int) (s : State), s.power.state ≠ .off → s.clk.tcDue = true →
     let sensed := if s.clk.cfg.getLsbD 1 && !s.clk.tcFallback then s.clk.tcTemp.toInt else theta
     exec (.tcUpdate theta) s = .next { s with clk := { s.clk with
       ctheta := if s.clk.cfg.getLsbD 0 then compensation (points16 s.clk.tcomp) sensed else 0, tcDue := false } }) ∧
   (∀ (theta : Int) (s : State), s.clk.tcDue = false → exec (.tcUpdate theta) s = .next s) ∧
   (∀ (s : State) (tick : Nat), s.mpRuns = true → s.clk.cfg.getLsbD 1 = true → s.clk.tcTable ≠ [] →
     let x := s.aux.inputs[Fin.ofNat 16 (s.clk.cfg.toNat / 4 % 8)]
     x.tick = some tick → exec .tcTempWrite s = .next { s with clk := { s.clk with
       tcTemp := BitVec.ofInt 16 (thermistor (tablePoints s.clk.tcTable) x.result.toNat), tcFallback := false, tcAge := 0 } }) ∧
   (∀ s : State, s.power.state ≠ .off → s.clk.cfg.getLsbD 1 = true → 524288 ≤ s.clk.tcAge →
     exec .tcFallback s = .next { s with clk := { s.clk with tcFallback := true } }))

/-- R227, R228, R230, R233, R234, R238, R239: SYNC and STEP. The head sends SYNC on both rings once its epoch is stored; a unit's first SYNC
sets ring time, each further one corrects it by at most 0.25 ns, and one beyond 1 µs is counted until the third is adopted, which leaves the
alignment in PULL with LOST; the mark VALID is that of each of them. -/
def Obligations.SyncEventsTakeEffect : Prop :=
  (∀ s : State, s.coreOn = true → s.ring.isHead = true → s.time.startStored = true → s.time.step = none →
    ∃ t n, exec .syncSend s = .next t ∧ t.time.syncOk = true ∧ t.time.valid = headValid s.time ∧ t.time.rt = s.time.rt ∧
      Queues s t (([.primary, .secondary] : List RingSel).map (fun g => mkFrame g tySync broadcast s.ring.addr n (syncPayload t) none)) ∧
      (syncPayload t).take 12 = (t.stampAt (s.gridNs / 1000000 * 1000000)).bytes ∧ leAt (syncPayload t) 12 4 = s.time.rate.toNat ∧
      leAt (syncPayload t) 16 1 = bitN (headValid s.time) + 2 * bitN s.time.ppsLock) ∧
  (∀ s : State, s.coreOn = true → s.ring.isHead = true → s.time.startWorn = true → s.hw.frozen = false →
    exec .epochStoreRetry s = .next (openStore .epochStart none { s with time := { s.time with startWorn := false } })) ∧
  (∀ (r : RingSel) (f : RxFrame) (dt : Nat) (s : State), Hears tySync f s → s.ring.isHead = false → rxStalled s (entryPort r) = false →
    let x := syncIn (takeAsym s) r f dt
    (s.time.seen = false → ∃ t, exec (.syncReceived r f dt) s = .next t ∧ t.time.rt = shiftRt s.time.rt (-x.off) ∧
      t.time.epoch = x.origin.epoch ∧ t.time.seen = true ∧ t.time.syncOk = true ∧ t.time.mode = .pull ∧ t.time.rate = x.rate ∧
      t.time.valid = x.valid) ∧
    (s.time.seen = true → s.time.lastAt = none → x.origin.epoch = s.time.epoch → x.off.natAbs ≤ 1000 * 65536 →
      ∃ t, exec (.syncReceived r f dt) s = .next t ∧ t.time.rt = shiftRt s.time.rt (-(clampInt (-16384) 16384 x.off)) ∧
        t.time.epoch = s.time.epoch ∧ t.time.farRun = 0 ∧ t.time.syncErr = s.time.syncErr ∧ t.time.rate = x.rate ∧ t.time.valid = x.valid) ∧
    (s.time.seen = true → s.time.lastAt = none → x.origin.epoch = s.time.epoch → 1000 * 65536 < x.off.natAbs →
      (s.time.farRun < 2 → ∃ t, exec (.syncReceived r f dt) s = .next t ∧ t.time.rt = s.time.rt ∧ t.time.farRun = s.time.farRun + 1 ∧
        t.time.syncErr = satAdd s.time.syncErr 1 ∧ t.time.valid = x.valid ∧
        t.time.offset = BitVec.ofInt 32 (clampInt (-2147483648) 2147483647 x.off)) ∧
      (2 ≤ s.time.farRun → ∃ t, exec (.syncReceived r f dt) s = .next t ∧ t.time.rt = shiftRt s.time.rt (-x.off) ∧
        t.time.adopted = true ∧ t.time.lost = true ∧ t.time.mode = .pull ∧ t.time.epoch = x.origin.epoch ∧ t.time.valid = x.valid)) ∧
    (s.time.seen = true → s.time.lastAt = none → x.origin.epoch ≠ s.time.epoch →
      ∃ t, exec (.syncReceived r f dt) s = .next t ∧ t.time.rt = shiftRt s.time.rt (-x.off) ∧ t.time.adopted = true ∧
        t.time.lost = true ∧ t.time.mode = .pull ∧ t.time.step = none ∧ t.time.epoch = x.origin.epoch ∧ t.time.valid = x.valid) ∧
    (∀ a, s.time.seen = true → s.time.lastAt = some a → x.origin.epoch + 1 = s.time.epoch → x.origin.total < a →
      ∃ t, exec (.syncReceived r f dt) s = .next t ∧
        t.time = { s.time with syncErr := satAdd s.time.syncErr 1, lastAt := none })) ∧
  (∀ (r : RingSel) (f : RxFrame) (dt : Nat) (s : State), s.coreOn = true → s.ring.isHead = false → rxStalled s (entryPort r) = false →
    frameGood f = false → exec (.syncReceived r f dt) s = .next { s with
      ring := { s.ring with frameErr := satAdd s.ring.frameErr 1 }, time := { s.time with syncErr := satAdd s.time.syncErr 1 } }) ∧
  (∀ s : State, s.coreOn = true → s.ring.isHead = false → s.time.seen = true → s.time.mode ≠ .holdover →
    ∃ t, exec .syncTimeout s = .next t ∧ t.time.mode = .holdover ∧ t.time.syncOk = false ∧ t.time.rt = s.time.rt ∧
      t.time.lost = (s.time.lost || decide (s.time.mode = .lock))) ∧
  (∀ (f : RxFrame) (s : State), Hears tyStep f s → s.ring.isHead = false → s.time.seen = true →
    (stampOf (f.payload.take 12)).epoch = s.time.epoch → s.nowNs ≤ (stampOf (f.payload.take 12)).total →
    ∃ t p, exec (.stepReceived f) s = .next t ∧ t.time.step = some p ∧ p.at_ = (stampOf (f.payload.take 12)).total ∧
      p.delta = (BitVec.ofNat 64 (leAt f.payload 12 8)).toInt ∧ p.epoch = BitVec.ofNat 4 (leAt f.payload 20 1) ∧ t.time.rt = s.time.rt)

/-- R46, R219, R235, R237, R240, R244, R248: a step moves ring time by DELTA into its epoch and skips a sample of LCLK_OFS; unless it is a
whole number of samples, the sampling still follows the old grid up to the next sample. A PPS edge of the polarity chosen gives the head
its offset; the timed outputs start and end their pulses, and none starts within 20 ns of the last. -/
def Obligations.StepsEdgesAndOutputs : Prop :=
  (∀ (p : StepPend) (s : State), s.coreOn = true → s.time.step = some p → s.reached p.at_ = true →
    ∃ t, exec .stepTakesEffect s = .next t ∧ t.time.rt = shiftRt s.time.rt (p.delta * 65536) ∧ t.time.epoch = p.epoch ∧
      t.time.step = none ∧ t.clk.skipSample = true ∧ t.clk.legal = s.clk.legal ∧ t.time.lost = s.time.lost ∧
      t.time.mode = s.time.mode ∧ t.time.stepPull = s.time.stepPull ∧
      (p.delta % 31250 = 0 → t.time.offStep = s.time.offStep) ∧
      (p.delta % 31250 ≠ 0 → t.time.offStep = some (p.delta * 65536 + s.time.offStep.getD 0))) ∧
  (∀ (x : PpsEdge) (s : State), s.time.cfg.getLsbD 2 ≠ x.falling → exec (.ppsEdge x) s = .next s) ∧
  (∀ (x : PpsEdge) (s : State), s.coreOn = true → s.ring.isHead = true → s.time.cfg.toNat % 4 = 1 → s.time.cfg.getLsbD 2 = x.falling →
    let at10 := s.time.rt / 163840 + x.dt * 65536 / 163840
    let e := secondError (at10 * 5 / 2)
    ∃ t, exec (.ppsEdge x) s = .next t ∧ t.time.offset = BitVec.ofInt 32 (clampInt (-2147483648) 2147483647 e) ∧
      t.time.ppsFar = decide (1000000 < e.natAbs) ∧ (50 < e.natAbs → t.time.ppsRun = 0) ∧
      (e.natAbs ≤ 50 → t.time.ppsRun = s.time.ppsRun + 1) ∧ (e.natAbs ≤ 50 → 9 ≤ s.time.ppsRun → t.time.ppsLock = true) ∧
      t.time.valid = s.time.valid ∧ t.time.rt = s.time.rt) ∧
  (∀ s : State, s.coreOn = true → s.ring.isHead = true → s.time.cfg.toNat % 4 = 1 →
    ∃ t, exec .ppsLost s = .next t ∧ t.time.ppsLost = true ∧ t.time.ppsLock = false ∧ t.time.servo = s.time.servo ∧
      t.time.effRate = s.time.effRate ∧ (s.time.ppsLock = true → t.time.ppsClear = some s.time.ticks)) ∧
  (∀ (n : Fin 4) (ns : Nat) (s : State), s.coreOn = true → (s.time.outs[n]).nextEdge = some ns → s.reached ns = true →
    let o := s.time.outs[n]
    let edge := (ns * 65536 + 163839) / 163840 * 163840
    (o.pulse = none → (∀ stop, o.lastEnd = some stop → stop + 20 * 65536 ≤ edge) → ∃ t x, exec (.toutFire n) s = .next t ∧ t = { s with time := { s.time with outs := s.time.outs.set n x } } ∧
      x.level = !o.pol ∧ x.pulse = some (edge + o.width.toNat * 65536) ∧ x.late = (o.late || o.armedLate) ∧
      (o.periodic = true → x.nextEdge = some (ns + o.period.toNat) ∧ x.fired = o.fired) ∧
      (o.periodic = false → x.nextEdge = none ∧ x.arm = false ∧ x.fired = true)) ∧
    (∀ stop, o.pulse = some stop ∨ (o.pulse = none ∧ o.lastEnd = some stop) → edge < stop + 20 * 65536 →
      ∃ t x, exec (.toutFire n) s = .next t ∧ t = { s with time := { s.time with outs := s.time.outs.set n x } } ∧
        x.suppressed = satAdd o.suppressed 1 ∧ x.level = o.level ∧ x.pulse = o.pulse ∧
        x.nextEdge = (if o.periodic then some (ns + o.period.toNat) else none))) ∧
  (∀ (n : Fin 4) (stop : Nat) (s : State), s.coreOn = true → (s.time.outs[n]).pulse = some stop → stop ≤ s.time.rt + tickUnits →
    let o := s.time.outs[n]
    (o.pend = none → exec (.toutPulseEnd n) s = .next { s with time := { s.time with
      outs := s.time.outs.set n { o with level := o.pol, pulse := none, lastEnd := some stop } } }) ∧
    (∀ a p w, o.pend = some (a, p, w) → ∃ t x, exec (.toutPulseEnd n) s = .next t ∧
      t = { s with time := { s.time with outs := s.time.outs.set n x } } ∧ x.level = o.pol ∧ x.pulse = none ∧ x.lastEnd = some stop ∧
      x.time = a ∧ x.period = p ∧ x.width = w ∧ x.pend = none))

/-- R229 to R232, R252, R255, R256, R258, R268: links, forwarding and windows. A request for a link delay is answered with its T2; an answer
within 5 cycles joins the mean; a frame is forwarded with its correction, an ALIGN is not; a frame in the unit's own window abandons that
window; IDLE goes out where nothing else does. -/
def Obligations.RingLinksTakeEffect : Prop :=
  (∀ (p : RingPort) (s : State), s.coreOn = true → s.time.syncOk = true → (portOf p s.ring).up = true →
    ∃ t fs x, exec (.alignSend p) s = .next t ∧ t.ring.txq = fs ++ [x] ∧ x.typ = tyAlign ∧ x.ring = exitRing p ∧ x.dst = broadcast ∧
      leAt x.payload 0 8 = Config.uid.toNat ∧ alignKind x.payload = 1 ∧ leAt x.payload 10 2 = (portOf p t.ring).xseq.toNat ∧
      (portOf p t.ring).xseq = (portOf p s.ring).xseq + 1 ∧ (∀ y ∈ fs, y ∈ s.ring.txq)) ∧
  (∀ (p : RingPort) (f : RxFrame) (dt : Nat) (s : State), s.coreOn = true → rxStalled s p = false → frameGood f = true → f.typ = tyAlign →
    (alignKind f.payload = 1 → ∃ t x, exec (.alignReceived p f dt) s = .next t ∧ Queues s t [x] ∧ x.typ = tyAlign ∧ x.ring = exitRing p ∧
      alignKind x.payload = 2 ∧ leAt x.payload 10 2 = leAt f.payload 10 2 ∧
      sliceAt x.payload 12 12 = (s.stampAt ((s.time.rt + dt) / 65536)).bytes ∧ (portOf p t.ring).uid = BitVec.ofNat 64 (leAt f.payload 0 8)) ∧
    (∀ t1 ms, alignKind f.payload = 2 → s.ring.isHead = false → (portOf p s.ring).sentT1 = some (t1, ms) →
      leAt f.payload 10 2 = (portOf p s.ring).xseq.toNat → (s.time.rt + dt) / 65536000000 ≤ ms + 5 →
      let t2 := (stampOf (sliceAt f.payload 12 12)).total * 65536
      let t3 := (stampOf (sliceAt f.payload 24 12)).total * 65536
      let h := (((((s.time.rt + dt : Nat) : Int) - t1) - ((t3 : Int) - t2)) / 2 :: (portOf p s.ring).history).take 8
      ∃ t, exec (.alignReceived p f dt) s = .next t ∧ (portOf p t.ring).history = h ∧
        (portOf p t.ring).delay = BitVec.ofInt 32 (clampInt 0 4294967295 (roundDiv h.sum h.length)) ∧
        (portOf p t.ring).good = (portOf p s.ring).good + 1 ∧ t.ring.txq = s.ring.txq) ∧
    (∀ t1 ms, alignKind f.payload = 2 → s.ring.isHead = false → (portOf p s.ring).sentT1 = some (t1, ms) →
      ms + 5 < (s.time.rt + dt) / 65536000000 →
      ∃ t, exec (.alignReceived p f dt) s = .next t ∧ (portOf p t.ring).history = (portOf p s.ring).history ∧
        (portOf p t.ring).good = (portOf p s.ring).good)) ∧
  (∀ (p : RingPort) (s : State), s.coreOn = true →
    ((portOf p s.ring).up = false → exec (.linkUp p) s = .next { s with
      ring := modPortOf p (fun q => { q with up := true, good := 0, history := [], sentT1 := none }) s.ring }) ∧
    (∀ n, (portOf p s.ring).up = true → s.ring.isHead = false → exec (.linkDown p n) s = .next { s with
      ring := modPortOf p (fun q => { q with up := false, good := 0, delay := 0, history := [], sentT1 := none, uid := 0, tell := true })
        { s.ring with codeErr := satAdd s.ring.codeErr n } })) ∧
  (∀ (r : RingSel) (f : RxFrame) (resid : Nat) (s : State), s.coreOn = true → s.ring.isHead = false →
    (portOf (entryPort r) s.ring).up = true →
    (frameGood f = true → f.typ ≠ tyAlign → f.typ ≠ tySync → exec (.frameForward r f resid false) s = .next { s with ring := { s.ring with
      fwdCorr := f.corr + BitVec.ofInt 64 (linkDelay (portOf (entryPort r) s.ring) + resid) } }) ∧
    (frameGood f = true → f.typ = tySync → exec (.frameForward r f resid false) s = .next { takeAsym s with ring := { (takeAsym s).ring with
      fwdCorr := f.corr + BitVec.ofInt 64 ((portOf (entryPort r) s.ring).delay.toNat + (portOf (entryPort r) s.ring).asym.toInt + resid) } }) ∧
    (f.typ = tyAlign → exec (.frameForward r f resid false) s = .next s) ∧
    (f.violation = true → f.typ ≠ tyAlign → frameForMe s f = false → ∃ t, exec (.frameForward r f resid false) s = .next t ∧
      t.ring.frameErr = satAdd s.ring.frameErr 1 ∧ t.ring.fwdCorr.toNat / 2 ^ f.violAt = f.corr.toNat / 2 ^ f.violAt) ∧
    (s.ring.addr ≠ 0 → ∃ t n, exec (.frameForward r f resid true) s = .next t ∧ t.ring.dupAddr = true ∧ t.ring.txq = s.ring.txq ∧ 1 ≤ n ∧
      t.ring.abandoned = satAdd s.ring.abandoned n ∧ (r, s.gridNs / 1000000) ∈ t.ring.noTx)) ∧
  (∀ (g : RingSel) (dt : Nat) (s : State), s.coreOn = true → s.time.syncOk = true → s.stalled 4 = false → s.ring.isHead = false →
    s.ring.addr ≠ 0 → s.ring.grantPend = none →
    ((g, (s.time.rt + dt) / 65536000000) ∈ s.ring.noTx → exec (.unitWindow g dt) s = .next s) ∧
    (mustReport s = false → (g, (s.time.rt + dt) / 65536000000) ∉ s.ring.noTx →
    let ready := s.ring.txq.filter (fun f => decide (f.ring = g) && frameMayGo s ((s.time.rt + dt) / 65536000000) f)
    (ready = [] → ∃ t x, exec (.unitWindow g dt) s = .next t ∧ t.ring.sent = [x] ∧ x.typ = tyIdle ∧ x.dst = 1 ∧ x.src = s.ring.addr ∧
      x.payload = idlePayload s ∧ t.ring.txq = s.ring.txq) ∧
    (∀ f, ready = [f] → f.typ ≠ tyAlign → f.payload.length ≤ 256 → f.tag = none →
      ∃ t, exec (.unitWindow g dt) s = .next t ∧ t.ring.sent = [{ f with src := s.ring.addr }] ∧
        t.ring.txq = s.ring.txq.filter (fun x => !(decide (x.ring = g) && frameMayGo s ((s.time.rt + dt) / 65536000000) x)) ∧
        t.ring.deferred = s.ring.deferred)))

/-- R250, R262 to R266: enumeration, the roster and addresses. Each clause says what a frame, at a unit that hears it, writes. -/
def Obligations.RingAddressesAreAssigned : Prop :=
  (∀ s : State, s.coreOn = true → s.ring.isHead = true → s.time.startStored = true →
    ∃ t n, exec .enumSend s = .next t ∧ t.ring.enumDue = false ∧ t.ring.learned = [] ∧
      Queues s t (([.primary, .secondary] : List RingSel).map (fun g => mkFrame g tyEnum broadcast s.ring.addr n (enumPayload s) none))) ∧
  (∀ (f : RxFrame) (s : State), Hears tyEnum f s → leAt f.payload 0 1 = 1 →
    (s.ring.isHead = true → ∃ t, exec (.enumReceived f) s = .next t ∧ (enumHeadUid f.payload < Config.uid → t.ring.isHead = false ∧
      t.ring.addr = 0 ∧ t.ring.headConflict = true)) ∧
    (s.ring.isHead = false → ∃ t, exec (.enumReceived f) s = .next t ∧ t.ring.headUid = some (enumHeadUid f.payload) ∧
      t.ring.order = (sliceAt f.payload 3 (min (leAt f.payload 2 1) 61)).map (fun b => BitVec.ofNat 6 b.toNat) ∧
      t.ring.balPeriod = BitVec.ofNat 2 (leAt f.payload 1 1) ∧ t.ring.addr = s.ring.addr ∧
      (s.ring.addr = 0 → t.ring.txq = s.ring.txq) ∧
      (s.ring.addr ≠ 0 → ∃ x, Queues s t [x] ∧ x.typ = tyEnum ∧ x.dst = 1 ∧ leAt x.payload 0 1 = 2 ∧
        leAt x.payload 4 8 = Config.uid.toNat ∧ leAt x.payload 28 4 = s.ring.mirrorGen.toNat))) ∧
  (∀ (f : RxFrame) (i : Fin 61) (s : State), s.coreOn = true → s.ring.isHead = true → f.src = rosterAddr i →
    (frameGood f = true → f.typ = tyEnum → frameForMe s f = true → leAt f.payload 0 1 = 2 →
      (s.ring.roster[i]).st = .free ∨ (s.ring.roster[i]).uid = BitVec.ofNat 64 (leAt f.payload 4 8) →
      ∃ t, exec (.enumReplyReceived f) s = .next t ∧ (t.ring.roster[i]).st = .present ∧
        (t.ring.roster[i]).uid = BitVec.ofNat 64 (leAt f.payload 4 8) ∧ (t.ring.roster[i]).upUid = BitVec.ofNat 64 (leAt f.payload 12 8) ∧
        (t.ring.roster[i]).downUid = BitVec.ofNat 64 (leAt f.payload 20 8) ∧ (t.ring.roster[i]).gen = BitVec.ofNat 32 (leAt f.payload 28 4)) ∧
    (Hears tyIdle f s → ∃ t, exec (.idleReceived f) s = .next t ∧ t.ring.roster[i] = { s.ring.roster[i] with
      gen := BitVec.ofNat 32 (leAt f.payload 4 4), heard := s.time.ticks }) ∧
    (s.time.ticks < (s.ring.roster[i]).heard + 320 → exec (.rosterAbsent i) s = .next s) ∧
    ((s.ring.roster[i]).st = .present → (s.ring.roster[i]).heard + 320 ≤ s.time.ticks → ∃ t, exec (.rosterAbsent i) s = .next t ∧ (t.ring.roster[i]).st = .absent ∧
      (t.ring.roster[i]).uid = (s.ring.roster[i]).uid ∧ t.ring.enumDue = true)) ∧
  (∀ (sof : Bool) (s : State), s.coreOn = true → s.time.syncOk = true → s.ring.isHead = false → s.ring.addr = 0 →
    s.ring.grantPend = none →
    (0 < s.ring.backoff → exec (.claim sof) s = .next { s with ring := { s.ring with backoff := s.ring.backoff - 1 } }) ∧
    (s.ring.backoff = 0 → exec (.claim true) s = .next { s with ring := { s.ring with backoff := Config.uid.toNat % 16 } } ∧
      ∃ t fs x y, exec (.claim false) s = .next t ∧ t.ring.txq = fs ++ [x, y] ∧ x.ring = .primary ∧ y.ring = .secondary ∧
        (∀ z ∈ [x, y], z.typ = tyVacancy ∧ z.dst = 1 ∧ leAt z.payload 0 1 = 2 ∧ leAt z.payload 4 8 = Config.uid.toNat ∧
          leAt z.payload 12 8 = s.ring.portA.uid.toNat ∧ leAt z.payload 20 8 = s.ring.portB.uid.toNat) ∧
        (∀ z ∈ fs, z.typ ≠ tyVacancy ∧ z ∈ s.ring.txq))) ∧
  (∀ (f : RxFrame) (s : State), s.coreOn = true → s.ring.isHead = true → frameGood f = true → f.typ = tyVacancy → frameForMe s f = true →
    leAt f.payload 0 1 = 2 →
    let c := claimOf f.payload
    (∀ i : Fin 61, addrOfUid s.ring c.uid = some i → ∃ t x y, exec (.claimReceived [f]) s = .next t ∧ Queues s t [x, y] ∧
      (t.ring.roster[i]).st = .present ∧ (t.ring.roster[i]).uid = c.uid ∧ x.ring = .primary ∧ y.ring = .secondary ∧
      (∀ z ∈ [x, y], z.typ = tyVacancy ∧ leAt z.payload 0 1 = 3 ∧ leAt z.payload 1 1 = i.val + 2 ∧ leAt z.payload 4 8 = c.uid.toNat)) ∧
    (∀ i : Fin 61, claimAddr s.ring [c] [] c = some i → ∃ t, exec (.claimReceived [f]) s = .next t ∧ (t.ring.roster[i]).st = .present ∧
      (t.ring.roster[i]).uid = c.uid ∧ (t.ring.roster[i]).heard = s.time.ticks ∧
      (∀ j : Fin 61, j ≠ i → t.ring.roster[j] = s.ring.roster[j])) ∧
    (claimAddr s.ring [c] [] c = none →
      ∃ t x y, exec (.claimReceived [f]) s = .next t ∧ Queues s t [x, y] ∧ t.ring.roster = s.ring.roster ∧
        (∀ z ∈ [x, y], z.typ = tyVacancy ∧ leAt z.payload 0 1 = 5 ∧ leAt z.payload 4 8 = c.uid.toNat))) ∧
  (∀ (s : State), s.coreOn = true → s.ring.isHead = false → exec (.claimReceived []) s = .next s) ∧
  (∀ (f : RxFrame) (s : State), Hears tyVacancy f s → s.ring.isHead = false → s.hw.frozen = false →
    (∃ u, exec (.grant f) s = .next (if vacancyForMe 3 f then openStore (.page 111) none u else u) ∧ u.firn = s.firn ∧
      u.ring.addr = s.ring.addr ∧ (vacancyForMe 3 f = true →
        u.ring.grantPend = some (BitVec.ofNat 6 (leAt f.payload 1 1), s.gridNs / 1000000) ∧ u.ring.mirrorDue = true) ∧
      (vacancyForMe 3 f = false → u.ring.grantPend = s.ring.grantPend)) ∧
    (∃ u, exec (.revoke f) s = .next (if vacancyForMe 4 f then openStore (.page 111) none u else u) ∧ u.firn = s.firn ∧
      u.ring.addr = (if vacancyForMe 4 f then 0 else s.ring.addr) ∧
      u.ring.grantPend = if vacancyForMe 4 f then none else s.ring.grantPend) ∧
    (∃ t, exec (.full f) s = .next t ∧ t.ring.addr = s.ring.addr ∧ (vacancyForMe 5 f = true → t.ring.ringFull = true ∧ t.ring.backoff = 1000)))

/-- R267, R268, R275 to R278: Gaps. The head takes a report of an open port into an announcement whose AT is the first cycle boundary at
least 3 ms ahead, and the report that both ends of the only break are up into one of a ring without a gap; a unit keeps what is announced,
and at AT the topology applies. Balance. A unit reports the interval that has ended, in place of a report that has not left; the head
keeps the reports of its own interval, computes each enabled group once, when all are in or 20 ms have passed, and clears them. -/
def Obligations.RingGapsAndBalance : Prop :=
  ((∀ (f : RxFrame) (s : State), Hears tyWrap f s → s.ring.isHead = true → leAt f.payload 0 1 = 2 → s.ring.wrapPend = none →
     s.time.step = none → f.src ∈ s.ring.chain → 2 ≤ f.src.toNat → f.src.toNat ≤ 62 →
     (∀ i : Fin 61, f.src = rosterAddr i → (s.ring.roster[i]).st = .present) →
     (s.ring.breaks = [] → s.ring.gap = none →
       (leAt f.payload 3 1 = 1 → ∃ t w, exec (.wrapReportReceived f) s = .next t ∧ t.ring.wrapPend = some w ∧ t.ring.gap = none ∧
         w.up.toNat = f.src.toNat ∧ w.down = BitVec.ofNat 8 (nextUnit s f.src).toNat ∧ w.at_ % 1000000 = 0 ∧ s.nowNs + 3000000 ≤ w.at_ ∧
         w.at_ < s.nowNs + 4000000) ∧
       (leAt f.payload 3 1 = 2 → ∃ t w, exec (.wrapReportReceived f) s = .next t ∧ t.ring.wrapPend = some w ∧
         w.up = BitVec.ofNat 8 (prevUnit s f.src).toNat ∧ w.down.toNat = f.src.toNat)) ∧
     (∀ (y : BitVec 6) (g : Wrap), s.ring.gap = some g → y ≠ 1 → y ≠ f.src →
       s.ring.breaks = [{ up := f.src, down := y, upOk := false, downOk := true }] → leAt f.payload 3 1 = 3 →
       ∃ t w, exec (.wrapReportReceived f) s = .next t ∧ t.ring.breaks = [] ∧ t.ring.wrapPend = some w ∧ w.up = 0 ∧ w.down = 0 ∧
         t.ring.gap = some g)) ∧
   (∀ (f : RxFrame) (s : State), Hears tyWrap f s → s.ring.isHead = false → leAt f.payload 0 1 = 1 →
     ∃ t, exec (.wrapAnnounceReceived f) s = .next t ∧ t.ring.gap = s.ring.gap ∧ t.ring.wrapPend = some
       { up := BitVec.ofNat 8 (leAt f.payload 1 1), down := BitVec.ofNat 8 (leAt f.payload 2 1), at_ := (stampOf (sliceAt f.payload 4 12)).total }) ∧
   (∀ (w : Wrap) (s : State), s.ring.wrapPend = some w → s.coreOn = true →
     (s.reached w.at_ = true → ∃ t, exec .wrapAt s = .next t ∧ t.ring.wrapPend = none ∧ t.ring.balGap = true ∧
       (w.up = 0 → t.ring.gap = none) ∧ (w.up ≠ 0 → t.ring.gap = some w) ∧ t.ring.txq.length = s.ring.txq.length ∧
       t.ring.wrapQuiet = w.at_ / 1000000 + 3) ∧
     (s.reached w.at_ = false → exec .wrapAt s = .next s))) ∧
  ((∀ (i : BalInterval) (s : State), s.ring.balEnded = some i → s.coreOn = true →
     (s.ring.isHead = true → ∃ t r, exec .balanceIntervalEnd s = .next t ∧ r ∈ t.ring.reports ∧ r.unit = 1 ∧ r.start = i.start ∧
       r.entries = balEntries s i ∧ t.ring.txq = s.ring.txq ∧ t.ring.balEnded = some i) ∧
     (s.ring.isHead = false → ∃ t x, exec .balanceIntervalEnd s = .next t ∧
       t.ring.txq = s.ring.txq.filter (fun f => decide (f.typ ≠ tyBalance)) ++ [x] ∧ x.typ = tyBalance ∧ x.dst = 1 ∧
       x.payload = balPayload i.start (balEntries s i) ∧ t.ring.balEnded = none ∧
       t.ring.abandoned = satAdd s.ring.abandoned (s.ring.txq.filter (fun f => decide (f.typ = tyBalance))).length ∧
       t.ring.deferred = if s.ring.addr = 0 then satAdd s.ring.deferred 1 else s.ring.deferred) ∧
     (s.ring.isHead = true → s.gridNs < i.fin + 20000000 →
       (∃ g : Fin 16, balEn (s.ring.groups[g]).desc = true ∧ ∃ m ∈ balMembers (s.ring.groups[g]).desc, ∀ r ∈ s.ring.reports, r.unit.toNat ≠ m.1) →
       exec .balanceCompute s = .next s) ∧
     (s.ring.isHead = true → balanceDue s i = true → ∃ t, exec .balanceCompute s = .next t ∧ t.ring.reports = [] ∧ t.ring.balEnded = none ∧
       (∀ g : Fin 16, t.ring.groups[g] = (computeGroup i.start i.gap s.ring.reports g.val s.ring.groups[g]).1) ∧
       (∀ g : Fin 16, balEn (s.ring.groups[g]).desc = false → t.ring.groups[g] = s.ring.groups[g]))) ∧
   (∀ (f : RxFrame) (s : State), Hears tyBalance f s → s.ring.isHead = true → reportFits s (stampOf (f.payload.take 12)) = true →
     ∃ t r, exec (.balanceReceived f) s = .next t ∧ r ∈ t.ring.reports ∧ r.unit = f.src ∧ r.entries = balEntriesOf f.payload ∧
       (∀ x ∈ s.ring.reports, x.unit ≠ f.src → x ∈ t.ring.reports)) ∧
   (∀ (start : Stamp) (gap : Bool) (reports : List BalReport) (k : Nat) (g : BalGroup), balEn g.desc = true →
     let es := (balMembers g.desc).map (balEntry reports)
     (es.any (fun e => e.isNone) = true ∨ gap = true →
       (computeGroup start gap reports k g).1.run = g.run ∧ (computeGroup start gap reports k g).1.alarm = g.alarm ∧
       (computeGroup start gap reports k g).1.seq = g.seq + 1 ∧ (computeGroup start gap reports k g).2 = false)))

/-- R271, R279 to R281, R295, R300 to R303, R305: mailbox frames. A command claims the lowest free tag; a response is placed in the response
ring of its origin and frees its tag; bulk data land at their offset; the mirror's halves join at the head. -/
def Obligations.RingMailboxTakesEffect : Prop :=
  (∀ (f : RxFrame) (s : State) (u : Fin 64) (us : List (Fin 64)), HearsMbox 1 f s → s.ring.isHead = false → freeTags s.mb = u :: us →
    ringQueued s.mb < 8 → s.hw.mpReady = true → s.hw.swapping = false →
    let d := padTo 64 (f.payload.drop 8)
    (dBulk d = false → ∃ t c, exec (.mboxCommandReceived f) s = .next t ∧ t.mb.tags[u] = some c ∧ c.desc = d ∧
      c.origin = .ring (mboxOrigin f) (BitVec.ofNat 8 (dTag d)) ∧ c.started = false ∧ c.remote = false ∧ t.mb.bulk = s.mb.bulk ∧
      t.hw = s.hw ∧ (∀ v : Fin 64, v ≠ u → t.mb.tags[v] = s.mb.tags[v])) ∧
    (dBulk d = true → s.mb.bulk = .free → ∃ t, exec (.mboxCommandReceived f) s = .next t ∧ t.mb.bulk = .claimed u) ∧
    (dBulk d = true → s.mb.bulk ≠ .free → ∃ t x fs, exec (.mboxCommandReceived f) s = .next t ∧ t.mb.tags = s.mb.tags ∧
      t.ring.txq = fs ++ [x] ∧ x.typ = tyMbox ∧ leAt x.payload 0 1 = 2 ∧ leAt x.payload 10 1 = Status.busy.code)) ∧
  (∀ (f : RxFrame) (s : State) (u : Fin 64) (c : Cmd), HearsMbox 2 f s → s.ring.push = [] → s.ring.isHead = false →
    let r := padTo 64 (f.payload.drop 8)
    answersTag s r = some (u, c) → s.mb.bulk ≠ .claimed u → f.payload.length ≤ 72 →
    ∃ t, exec (.mboxResponseReceived f) s = .next t ∧ t.mb.tags[u] = none ∧ t.hw = { s.hw with rspPi := s.hw.rspPi + 1 } ∧
      rspSlot t s.hw.rspPi = r.take 10 ++ [r.getD 10 0 ||| c.yielded, r.getD 11 0] ++ leBytes 4 (latencyUs c s.draw.1 s.time.ticks) ++
        r.drop 16 ∧
      (∀ v : Fin 64, v ≠ u → t.mb.tags[v] = s.mb.tags[v])) ∧
  (∀ (f : RxFrame) (s : State) (u : Fin 64) (c : Cmd), HearsMbox 3 f s → s.ring.isHead = false → s.mb.bulk = .claimed u →
    s.mb.tags[u] = some c → c.remote = true → dBulkOut c.desc = true → mboxOrigin f = s.ring.addr →
    leAt f.payload 4 4 + (f.payload.drop 8).length ≤ 4096 →
    ∃ t, exec (.mboxBulkReceived f) s = .next t ∧
      (∀ k (h : k < (f.payload.drop 8).length), memGet 0 t.mb.win (0x2000 + leAt f.payload 4 4 + k) = (f.payload.drop 8)[k]) ∧
      (∀ a, a < 0x2000 + leAt f.payload 4 4 ∨ 0x2000 + leAt f.payload 4 4 + (f.payload.drop 8).length ≤ a →
        memGet 0 t.mb.win a = memGet 0 s.mb.win a) ∧ t.mb.tags = s.mb.tags) ∧
  (∀ (f : RxFrame) (s : State), HearsMbox 4 f s → s.ring.isHead = true → s.hw.frozen = false →
    (leAt f.payload 3 1 = 0 → ∃ t, exec (.mirrorHalfReceived f) s = .next t ∧ t.firn = s.firn ∧
      (∃ h ∈ t.ring.halves, h.src = mboxOrigin f ∧ h.part = false ∧ h.body = padTo 128 (f.payload.drop 8))) ∧
    (∀ (i : Fin 61) (h : MirrorHalf), leAt f.payload 3 1 = 1 → rosterIdx (mboxOrigin f) = some i → mirrorHeld (mirrorEntry s i) = false →
      s.ring.halves.find? (fun h => decide (h.src = mboxOrigin f) && !h.part) = some h →
      ∃ u e, exec (.mirrorHalfReceived f) s = .next (openStore (.mirror i e) none u) ∧ u.firn = s.firn ∧
        (h.body.length = 128 → e.drop 12 = (h.body ++ padTo 128 (f.payload.drop 8)).drop 12) ∧ leAt e 8 1 = i.val + 2)) ∧
  (∀ s : State, s.mpRuns = true → s.time.syncOk = true → s.ring.mirrorDue = true → s.ring.isHead = false → 2 ≤ s.ring.addr.toNat →
    s.ring.addr.toNat ≤ 62 →
    ∃ t x y, exec .mirrorSend s = .next t ∧ Queues s t [x, y] ∧ t.ring.mirrorGen = s.ring.mirrorGen + 1 ∧ t.ring.mirrorDue = false ∧
      x.typ = tyMbox ∧ x.dst = 1 ∧ leAt x.payload 0 1 = 4 ∧ leAt x.payload 3 1 = 0 ∧ leAt y.payload 3 1 = 1 ∧ x.payload.length = 136 ∧
      y.payload.length = 136 ∧ leAt x.payload 8 8 = Config.uid.toNat) ∧
  (∀ (f : RxFrame) (s : State), s.coreOn = true → s.ring.isHead = true → frameGood f = true → f.typ = tyMbox → f.dst ≠ broadcast →
    frameForMe s f = true → frameSeen s f = false → mboxFinal f ≠ 1 →
    ∃ t x, exec (.relay f) s = .next t ∧ Queues s t [x] ∧ x.relay = true ∧ x.src = 1 ∧ x.dst = mboxFinal f ∧ x.payload = f.payload ∧
      x.typ = tyMbox) ∧
  (∀ (f : RxFrame) (g : Nat) (s : State), s.coreOn = true → s.ring.isHead = true → frameGood f = true → f.typ ≠ tyAlign →
    f.dst = broadcast → f.src ≠ 1 → gapPos s = some g →
    ∃ t x, exec (.relay f) s = .next t ∧ Queues s t [x] ∧ x.relay = true ∧ x.src = 1 ∧ x.dst = broadcast ∧ x.payload = f.payload ∧
      x.typ = f.typ ∧ x.ring = if posOf s f.src ≤ g then .secondary else .primary)

/-- R95, R96, R98, R101, R111 to R113, R115, R117 to R119, R121, R123: the events of power quality. A dip starts on the first half-cycle
value below its threshold and ends with a record when every channel is back; a window gives its result; an interval with fewer than 100
whole cycles reads 0 and UNSYNC. -/
def Obligations.PqEventsTakeEffect : Prop :=
  (∀ (b : Bool) (v : Vector Nat 3) (s : State), s.metering = true → (s.pqSets[setOf b]).halfVal = some v →
    let q := s.pqSets[setOf b]
    q.swell = none → q.intr = none → q.rvc = none → evEn q.evt 1 = false → evEn q.evt 2 = false → evEn q.evt 3 = false →
    (∀ k : Fin 3, q.dip = none → evEn q.evt 0 = true → v[k] * 100 < vsDip q.cfg * q.udin.toNat →
      ∃ t e, exec (.pqHalfCycle b) s = .next t ∧ (t.pqSets[setOf b]).dip = some e ∧ e.start = s.gridStamp ∧
        e.chans = maskOf (fun j => below v[j] (vsDip q.cfg) q.udin.toNat) ∧ e.extreme = v[lowest v] ∧ e.worst = lowest v ∧
        (t.pqSets[setOf b]).halfVal = none ∧ t.pq.fifo = s.pq.fifo) ∧
    (∀ e, q.dip = some e → (∀ k : Fin 3, (vsDip q.cfg + vsHyst q.cfg) * q.udin.toNat ≤ v[k] * 100) → s.pq.fifo.length < 64 →
      ∃ t r, exec (.pqHalfCycle b) s = .next t ∧ (t.pqSets[setOf b]).dip = none ∧ t.pq.fifo = s.pq.fifo ++ [r] ∧ r.typ = 1 ∧
        r.start = e.start ∧ r.seq = s.pq.evSeq ∧ t.pq.evSeq = s.pq.evSeq + 1 ∧
        r.duration = BitVec.ofNat 32 (min (s.time.ticks - e.startTick) (2 ^ 32 - 1)))) ∧
  (∀ (b : Bool) (k : Fin 3) (e : TransEvent) (s : State), s.metering = true → (s.pqSets[setOf b]).trans[k] = some e →
    (s.pqSets[setOf b]).transDue.getLsbD k.val = true →
    ∃ t r, exec (.transientEnd b k) s = .next t ∧ (t.pqSets[setOf b]).trans[k] = none ∧ r.typ = 5 ∧ r.start = e.start ∧
      r.chan = chanByte (setOf b) (BitVec.ofNat 3 (2 ^ k.val)) ∧
      (s.pq.fifo.length < 64 → t.pq.fifo = s.pq.fifo ++ [r] ∧ t.pq.evOvf = s.pq.evOvf) ∧
      (64 ≤ s.pq.fifo.length → t.pq.fifo = s.pq.fifo ∧ t.pq.evOvf = satAdd s.pq.evOvf 1)) ∧
  (∀ (b : Bool) (w : WinClosed) (s : State), s.metering = true → (s.pqSets[setOf b]).winPend = some w → (s.pqSets[setOf b]).stepSeen = false →
    ∃ t, exec (.pqWindowClose b) s = .next t ∧ (t.pqSets[setOf b]).winPend = none ∧
      ((t.pqSets[setOf b]).results[0]).seq = ((s.pqSets[setOf b]).results[0]).seq + 1 ∧
      ((t.pqSets[setOf b]).results[0]).status = w.status ||| (if (s.pqSets[setOf b]).firstWin then 128 else 0) |||
        (if (winUnbalance s.pqSets[setOf b] w).isNone then 2 else 0) ∧
      leAt ((t.pqSets[setOf b]).results[0]).block 20 4 = (winFreq (s.pqSets[setOf b]).cfg w).toNat ∧
      (∀ j : Fin 4, leAt ((t.pqSets[setOf b]).results[0]).block (24 + 4 * j.val) 4 =
        rmsOf (urmsLists (s.pqSets[setOf b]).cfg w.volts)[j] % 2 ^ 32) ∧
      ((t.pqSets[setOf b]).results[0]).vals = winValues s (setOf b) (4 * s.draw.1) w ∧
      (((t.pqSets[setOf b]).results[0]).block.drop 8).take 12 = s.gridStamp.bytes ∧
      leAt ((t.pqSets[setOf b]).results[0]).block 6 2 = w.len % 65536) ∧
  (∀ (b : Bool) (s : State), s.metering = true → vsEn (s.pqSets[setOf b]).cfg = true → s.gridNs % 10000000000 = 0 →
    ((s.pqSets[setOf b]).freqCycles ≤ 100 → ∃ t, exec (.freqIntervalEnd b) s = .next t ∧ (t.pqSets[setOf b]).freq10 = 0 ∧
      (t.pqSets[setOf b]).freqStatus = 2 ||| (s.pqSets[setOf b]).freqMark ∧ (t.pqSets[setOf b]).freqCycles = 0) ∧
    (100 < (s.pqSets[setOf b]).freqCycles → ∃ t, exec (.freqIntervalEnd b) s = .next t ∧
      (t.pqSets[setOf b]).freq10 = freqValue s.pqSets[setOf b] ∧ (t.pqSets[setOf b]).freqStatus = (s.pqSets[setOf b]).freqMark ∧ (t.pqSets[setOf b]).freqCycles = 0 ∧
      (t.pqSets[setOf b]).freqMark = 0)) ∧
  (∀ s : State, s.wideOn = true → s.gridNs % 200000000 = 0 →
    (s.pq.wbGap = false → s.stalled 1 = false → ∃ t, exec .supraWindow s = .next t ∧
      t.pq.supra[0] = { seq := (s.pq.supra[0]).seq + 1, status := 0, time := s.gridStamp, excl := 0, bands := s.pq.wbWin.map supraBands } ∧
      t.pq.supraLast = s.gridNs ∧ t.pq.wbWin = Vector.replicate 2 []) ∧
    (s.pq.wbGap = true → ∃ t, exec .supraWindow s = .next t ∧ t.pq.supra[0] = s.pq.supra[0] ∧ t.pq.wbGap = s.stalled 1 ∧
      t.pq.supraLast = s.gridNs)) ∧
  (∀ s : State, s.wideOn = true → s.gridNs % 1000000000 = 0 →
    ∃ t, exec .noisePublish s = .next t ∧ t.pq.noiseTime = s.gridStamp ∧
      (s.stalled 1 = true → t.pq.noise = s.pq.noise ∧ t.pq.noiseStale = 0xFFFF) ∧
      (s.stalled 1 = false → ∀ k : Fin 16, (t.pq.noiseStale.getLsbD k.val = true ↔ (s.pq.noiseSums[k]).count = 0) ∧
        ((s.pq.noiseSums[k]).count ≠ 0 → t.pq.noise[k] = noiseEntries s.pq.noiseSums[k])) ∧
      (∀ k : Fin 16, t.pq.noiseStale.getLsbD k.val = true → t.pq.noise[k] = s.pq.noise[k]))

/-- R340 to R344, R346 to R351: turns, exchanges and tone maps. A turn serves every node that is not EMPTY, an owed MAP frame first; an
exchange starts when the schedule lets it and 2 ms after its preparation; a reply is taken where it is detected inside its window and its
frame passes on an input, and otherwise the exchange has failed. -/
def Obligations.PlcEventsTakeEffect : Prop :=
  (∀ s : State, plcOn s = true → turnDue s = true → s.plc.baseStored = true →
    (s.mpRuns = false → exec .turnStart s = .next { s with plc := { s.plc with mode := 2 } }) ∧
    (s.mpRuns = true → turnEnded s.plc = false → exec .turnStart s = .next { s with plc := { s.plc with overrun := true, turnPend := true } }) ∧
    (s.mpRuns = true → turnEnded s.plc = true → s.plc.mapOwed = false → s.plc.pendNodes = [] →
      exec .turnStart s = .next { s with plc := { s.plc with
        mode := 1, turnPend := false, turnLeaves := s.plc.leaves, leaves := [], prepared := none, pendNodes := [], nextAt := s.gridNs,
        turnLeft := (fins 240).filter (fun i => decide ((s.plc.nodes[i]).st ≠ 0)) } }) ∧
    (s.mpRuns = true → turnEnded s.plc = true → s.plc.mapOwed = true → baseStoring s = false →
      ∃ t, exec .turnStart s = .next t ∧ t.plc.mode = 1 ∧ t.plc.mapOwed = false ∧ t.plc.mapNew = false ∧
        t.plc.txFrames = [masterFrame 3 255 s.plc.mapVer.toNat (mapMac s.plc)] ∧ t.plc.txUntil = s.gridNs + frameNs (mapMac s.plc) ∧
        t.plc.nextAt = s.gridNs + frameNs (mapMac s.plc) + 1125000)) ∧
  (∀ s : State, plcOn s = true → s.mpRuns = true →
    (s.plc.prepared = none → exec .pollPrepare s = .next { s with plc := { s.plc with
      prepared := s.plc.turnLeft.head?, prepMains := (mainsCross s, mainsCyc s), prepAt := s.nowNs } }) ∧
    (∀ (e : Fin 240 × BitVec 64) (l : List (Fin 240 × BitVec 64)), s.plc.xchg = none → s.plc.turnLeaves = e :: l → s.plc.turnPend = false →
      s.reached s.plc.nextAt = true →
      ∃ t, exec .exchangeStart s = .next t ∧ t.plc.turnLeaves = l ∧ t.plc.xchg = none ∧
        t.plc.txFrames = [masterFrame 5 (e.1.val + 1) s.plc.mapVer.toNat (leaveMac e.2)] ∧
        t.plc.txSyms = [frameSymbols (masterFch 5 (e.1.val + 1) s.plc.mapVer.toNat (leaveMac e.2)) (leaveMac e.2)] ∧
        t.plc.txUntil = max s.plc.nextAt s.nowNs + frameNs (leaveMac e.2)) ∧
    (∀ i : Fin 240, s.plc.xchg = none → s.plc.turnLeaves = [] → s.plc.prepared = some i →
      s.reached (max s.plc.nextAt (s.plc.prepAt + 2000000)) = false → exec .exchangeStart s = .next s) ∧
    (∀ i : Fin 240, s.plc.xchg = none → s.plc.turnLeaves = [] → s.plc.prepared = some i →
      s.reached (max s.plc.nextAt (s.plc.prepAt + 2000000)) = true →
      ∃ t x, exec .exchangeStart s = .next t ∧ t.plc.xchg = some x ∧ x.node = i ∧ x.join = decide ((s.plc.nodes[i]).st = 1) ∧
        x.pollEnd = max (max s.plc.nextAt (s.plc.prepAt + 2000000)) s.nowNs + frameNs x.mac ∧ t.plc.prepared = none ∧ t.plc.txUntil = x.pollEnd ∧ t.plc.polls = s.plc.polls + 1 ∧ i ∉ t.plc.turnLeft ∧
        (t.plc.nodes[i]).seq = (s.plc.nodes[i]).seq + 1 ∧ leAt x.mac (if x.join then 9 else 1) 1 = (s.plc.nodes[i]).seq.toNat)) ∧
  (∀ (x : Exchange) (s : State), plcOn s = true → s.plc.xchg = some x →
    (x.pollEnd + 2000000 ≤ s.nowNs + 31250 →
      exec .replyWindowOpen s = .next { s with plc := { s.plc with xchg := some { x with winOpen := true } } }) ∧
    (∀ d : ReplyDetection, x.winOpen = true → x.detected = none → x.pollEnd + 2000000 ≤ s.nowNs + d.dt → s.nowNs + d.dt < x.pollEnd + 5250000 →
      let tick := wideTick s + d.dt * 8 / 15625
      let heard := correlates (wideTick s) (tick - d.lead1) d.lead1 x.rxBuf[0] || correlates (wideTick s) (tick - d.lead2) d.lead2 x.rxBuf[1]
      (heard = true → ∃ y, exec (.replyDetect d) s = .next { s with plc := { s.plc with xchg := some y } } ∧
        y.detected = some (BitVec.ofNat 32 (s.nowNs + d.dt), s.time.epoch) ∧ y.rxStart = some (tick - d.lead1, tick - d.lead2) ∧
        y.node = x.node ∧ y.pollEnd = x.pollEnd) ∧
      (heard = false → exec (.replyDetect d) s = .next s)) ∧
    (∀ d : ReplyDetection, s.nowNs + d.dt < x.pollEnd + 2000000 ∨ x.pollEnd + 5250000 ≤ s.nowNs + d.dt →
      exec (.replyDetect d) s = .next s) ∧
    (x.winOpen = true → x.detected = none → x.pollEnd + 5250000 ≤ s.nowNs + 31250 → s.plc.ident = none → s.plc.turnPend = false →
      ∃ t, exec .replyWindowClose s = .next t ∧ t.plc.xchg = none ∧ t.plc.fails = s.plc.fails + 1 ∧
        (t.plc.nodes[x.node]).missed = (s.plc.nodes[x.node]).missed + 1 ∧
        ((s.plc.nodes[x.node]).st = 2 → 7 ≤ (s.plc.nodes[x.node]).missRun → (t.plc.nodes[x.node]).st = 3)) ∧
    (∀ (r : RxReply) (d : Word × BitVec 4), x.detected = some d → s.plc.ident = none → s.plc.turnPend = false →
      (∀ tick c, received x r.snr s = .good tick c → ∃ t, exec (.replyReceived r) s = .next t ∧ t.plc.xchg = none ∧
        t.plc.fails = s.plc.fails ∧ (t.plc.nodes[x.node]).st = 2 ∧ (t.plc.nodes[x.node]).missRun = 0 ∧
        (t.plc.nodes[x.node]).last = d.1 ∧ (t.plc.nodes[x.node]).snr = c.snr ∧ (t.plc.nodes[x.node]).levels = c.levels ∧
        (t.plc.nodes[x.node]).uplink = (c.payload.drop 6).take (leAt c.payload 3 1) ∧
        t.plc.nextAt = tickNs s tick + 1125000) ∧
      (received x r.snr s = .bad → ∃ t, exec (.replyReceived r) s = .next t ∧ t.plc.xchg = none ∧ t.plc.fails = s.plc.fails + 1 ∧
        (t.plc.nodes[x.node]).uplink = (s.plc.nodes[x.node]).uplink ∧ (t.plc.nodes[x.node]).failed = true) ∧
      (received x r.snr s = .waits → exec (.replyReceived r) s = .next s) ∧
      (s.stalled 1 = true ∨ x.rxLost = true → received x r.snr s = .bad))) ∧
  (∀ s : State, plcOn s = true → s.mpRuns = true → s.plc.fixedMaps = false → (lowestLevel s.plc 0).isSome = true →
    (rebuilt s = mapsInUse s.plc → exec .tonemapRebuild s = .next { s with plc := { s.plc with staleSegs := 0 } }) ∧
    (rebuilt s ≠ mapsInUse s.plc → s.plc.lastVer = none → ∃ t, exec .tonemapRebuild s = .next t ∧ t.plc.mapVer = s.plc.mapVer + 1 ∧
      t.plc.maps = rebuilt s ∧ t.plc.oldMaps = mapsInUse s.plc ∧ t.plc.mapOwed = true ∧ t.plc.lastVer = some s.time.ticks))

/-- R372, R378, R383 to R390, R392: the events of the display. An update passes from its ledger stores by the rails, 5 ms, and its frames, a
FRAME_MS each, to its end; the record is checked once two readings have told the loop's state. -/
def Obligations.DisplayEventsTakeEffect : Prop :=
  (∀ (u : Update) (s : State), dispOn s = true → s.disp.upd = some u →
    (u.stage = .ledger → ledgerStoring s = false → exec .dispLedgerStored s = .next { s with disp := { s.disp with
      upd := some { u with stage := .rails }, dpwrEn := true, frameAt := s.time.ticks } }) ∧
    (u.stage = .ledger → ledgerStoring s = true → exec .dispLedgerStored s = .next s) ∧
    (u.stage = .rails → s.disp.frameAt + 160 ≤ s.time.ticks → exec .dispRailsSettled s = .next { s with disp := { s.disp with
      upd := some { u with stage := .frames, frame := 0 }, frameNo := 0, doe := true, lastFrame := nativeWords s.disp u 0,
      frameAt := s.time.ticks, st := if u.typ = 3 then 4 else 3 } }) ∧
    (u.stage = .rails → s.time.ticks < s.disp.frameAt + 160 → exec .dispRailsSettled s = .next s) ∧
    (u.stage = .frames → u.frame + 1 < u.frames → s.disp.frameAt + framePeriod s.disp u ≤ s.time.ticks →
      exec .dispFrame s = .next { s with disp := { s.disp with
        upd := some { u with stage := .frames, frame := u.frame + 1 }, frameNo := u.frame + 1, doe := true,
        lastFrame := nativeWords s.disp u (u.frame + 1), frameAt := s.time.ticks, st := if u.typ = 3 then 4 else 3 } }) ∧
    (s.time.ticks < s.disp.frameAt + framePeriod s.disp u → exec .dispFrame s = .next s ∧ exec .dispUpdateEnd s = .next s) ∧
    (u.stage = .frames → u.frames ≤ u.frame + 1 → s.disp.frameAt + framePeriod s.disp u ≤ s.time.ticks → s.disp.pendCfg = none → s.power.leanPend = none →
      ∃ v, exec .dispUpdateEnd s = .next (openStore .dispDone none v) ∧ v.firn = s.firn ∧ v.disp.upd = none ∧ v.disp.dpwrEn = false ∧
        v.disp.doe = false ∧ v.disp.shown = shownAfter s.disp u ∧ v.disp.updates = satAdd s.disp.updates 1 ∧
        recState v.disp.record = 2)) ∧
  (∀ s : State, dispOn s = true → s.disp.upd = none → s.disp.mode = 2 → s.disp.crevOpen = false → s.disp.dpwrEn = true →
    s.disp.frameAt + 533 ≤ s.time.ticks → ∃ t, exec .dispFrame s = .next t ∧ t.disp.frameNo = s.disp.frameNo + 1 ∧ t.disp.doe = true ∧ t.disp.legacyCopy = [] ∧
      t.disp.lastFrame = legacyWords { s.disp with shown := t.disp.shown } s.disp.frameNo) ∧
  (∀ s : State, dispOn s = true → s.mpRuns = true → s.disp.checkPend = true → s.disp.mode = 1 →
    (s.disp.crevReads < 2 → exec .dispRecordCheck s = .next s) ∧ (2 ≤ s.disp.crevReads →
    (recState s.disp.record ≠ 1 → exec .dispRecordCheck s = .next { s with disp := { s.disp with
      checkPend := false, inexact := s.disp.inexact || s.firn.lowKettle || s.firn.unclean } }) ∧
    (recState s.disp.record = 1 → s.disp.crevOpen = false → ∃ t, exec .dispRecordCheck s = .next t ∧ t.disp.checkPend = false ∧
      t.disp.repairDue = true ∧ t.disp.st = 4))) ∧
  (∀ s : State, dispOn s = true → s.disp.repairDue = true → s.disp.upd = none → s.disp.mode = 1 → s.disp.crevOpen = false →
    ledgerStoring s = false → ∃ u x, exec .dispRepair s = .next (openStore .dispPrep none u) ∧ u.disp.upd = some x ∧ x.typ = 3 ∧
      x.x = 0 ∧ x.y = 0 ∧ x.w = s.disp.width.toNat ∧ x.h = s.disp.height.toNat ∧ x.copied = [] ∧ u.disp.repairDue = false ∧ u.firn = s.firn) ∧
  (∀ s : State, dispOn s = true → s.disp.crevOpen = true →
    (100 ≤ s.disp.crevGood → ∃ t, exec .crevasseClose s = .next t ∧ t.disp.crevOpen = false ∧ t.disp.dpwrEn = decide (s.disp.mode = 2)) ∧
    (s.disp.crevGood < 100 → exec .crevasseClose s = .next s)) ∧
  (∀ s : State, dispOn s = true → s.mpRuns = true → s.disp.legalMask ≠ 0 → s.disp.stripDue = true → s.disp.crevOpen = false →
    updateBusy s.disp = false →
    (s.disp.mode = 2 → ∃ t, exec .legalStripRedraw s = .next t ∧ t.disp.stripDue = false ∧ t.disp.lastRedraw = some s.clk.legal.count ∧
      t.firn = s.firn) ∧
    (s.disp.mode = 1 → bandsLoaded s.disp (chooseBand s).1.val 0 (s.disp.height.toNat - min s.disp.height.toNat 32) s.disp.width.toNat
        (min s.disp.height.toNat 32) = true →
      ∃ u x, exec .legalStripRedraw s = .next (openStore .dispPrep none u) ∧ u.disp.upd = some x ∧ x.typ = 0 ∧ x.x = 0 ∧
        x.y = s.disp.height.toNat - min s.disp.height.toNat 32 ∧ x.w = s.disp.width.toNat ∧ u.disp.stripDue = false ∧ u.firn = s.firn))

/-- R357 to R363, R366 to R368: the aux converter's sequence, injected and housekeeping conversions, results and self-calibration, and the
pulse counters. -/
def Obligations.AuxEventsTakeEffect : Prop :=
  (∀ (i : Byte) (l : List Byte) (s : State), s.coreOn = true → s.aux.powered = true → s.power.state = .run → s.aux.regular = i :: l →
    instantIn s (s.aux.regPeriod.toNat * 1000) = true → s.stalled 10 = false →
    (s.aux.running = none → s.aux.cal = false → s.aux.calDue = false → s.aux.lowPowerPend = none → s.aux.pending = [] →
      s.aux.passLeft = [] → s.aux.passPend = false →
      exec .auxPass s = .next { s with aux := { s.aux with
        passPend := false, passLeft := l, running := some { src := .regular, input := Fin.ofNat 16 i.toNat, late := false, waited := false } } }) ∧
    (∀ c, s.aux.running = some c → s.aux.passLeft ≠ [] → exec .auxPass s = .next { s with aux := { s.aux with
      passPend := true, regLate := satAdd s.aux.regLate 1 } })) ∧
  (∀ s : State, s.coreOn = true → s.aux.powered = true → s.aux.cal = true → auxWanted s = true →
    (instantIn s (s.aux.injPeriod.toNat * 1000) = true → exec .auxInjectedSeq s = .next { s with aux := { s.aux with
      pending := s.aux.pending ++ s.aux.injected.map (fun i => { src := .sequence, input := Fin.ofNat 16 i.toNat, late := true, waited := false }) } }) ∧
    (s.aux.ready = true → s.gridNs % 500000 = 0 → exec (.housekeeping false) s = .next { s with aux := { s.aux with
      pending := s.aux.pending ++ [{ src := .housekeeping, input := 11, late := true, waited := false }] } }) ∧
    (s.aux.ready = true → s.disp.mode ≠ 0 → s.gridNs % 10000000 = 0 → exec (.housekeeping true) s = .next { s with aux := { s.aux with
      pending := s.aux.pending ++ [{ src := .housekeeping, input := 12, late := true, waited := false }] } })) ∧
  (∀ (code : BitVec 16) (dt : Nat) (c : Conv) (s : State), s.coreOn = true → s.stalled 9 = false → s.aux.running = some c →
    let i := s.aux.inputs[c.input]
    ∃ t, exec (.auxConversionDone code dt) s = .next t ∧ (t.aux.inputs[c.input]).result = code ∧
      (t.aux.inputs[c.input]).stamp = s.stampAt (s.nowNs + dt - 1000 * convTime s.aux.lowPower) ∧
      (i.en = true → code.toNat < i.low.toNat → (t.aux.inputs[c.input]).outside = some false ∧
        (i.outside ≠ some false → (t.aux.inputs[c.input]).flag = true)) ∧
      (i.en = true → i.low.toNat ≤ code.toNat → code.toNat ≤ i.high.toNat → (t.aux.inputs[c.input]).outside = none ∧
        (t.aux.inputs[c.input]).flag = i.flag) ∧
      (c.input = 8 → ∀ k, s.aux.calTemp = some k → 640 < (code.toInt - k).natAbs → t.aux.calDue = true ∨ t.aux.cal = true ∨ t.aux.powered = false) ∧
      (i.en = false → (t.aux.inputs[c.input]).flag = i.flag) ∧ (∀ j : Fin 16, j ≠ c.input → t.aux.inputs[j] = s.aux.inputs[j]) ∧
      (∀ tag, c.src = .inject tag → c.input ≠ 11 → ∃ u, t = auxSync (answer tag .ok (leBytes 2 code.toNat ++ leBytes 1 (bitN c.late) ++
        leBytes 1 0 ++ (s.stampAt (s.nowNs + dt - 1000 * convTime s.aux.lowPower)).bytes) [] u) ∧ u.mb = s.mb)) ∧
  (∀ s : State, s.coreOn = true → s.aux.powered = true → auxWanted s = true →
    (s.aux.cal = true → s.aux.calDue = false → s.aux.lowPowerPend = none →
      ∃ t, exec .auxCalibration s = .next t ∧ t.aux.cal = false ∧ t.aux.ready = true) ∧
    (∀ c, s.aux.cal = false → s.aux.running = some c →
      (s.aux.calTick + 60 * 32000 ≤ s.time.ticks → exec .auxCalibration s = .next { s with aux := { s.aux with calDue := true } }) ∧
      (s.time.ticks < s.aux.calTick + 60 * 32000 → exec .auxCalibration s = .next s))) ∧
  (∀ (i : Fin 8) (s : State), s.coreOn = true → s.aux.powered = true →
    ((s.s0[i]).en = false → exec (.s0Pulse i) s = .next s) ∧
    ((s.s0[i]).en = true → ∃ x, exec (.s0Pulse i) s = .next { s with s0 := s.s0.set i x } ∧ grayCount x.gray = grayCount (s.s0[i]).gray + 1 ∧
      x.total = (s.s0[i]).total ∧ x.acked = (s.s0[i]).acked))

/-- R399, R400, R402 to R405: the watchdogs of the crossings. A stall is latched, counted and dated, holds the last clock record (LFUP), takes
its link down (the ports) or leaves a gap (WBQ); a realigned source counts what it discards. -/
def Obligations.CrossingEventsTakeEffect : Prop :=
  ∀ (k : Fin 12) (s : State), s.coreOn = true →
    (s.stalled k.val = false → ∃ t, exec (.cdcStall k) s = .next t ∧ t.stalled k.val = true ∧
      t.cdc.stalls[k] = satAdd (s.cdc.stalls[k]) 1 ∧ t.cdc.last = s.stamp ∧ (∀ j : Fin 12, j ≠ k → t.stalled j.val = s.stalled j.val) ∧
      (k = 1 → t.pq.wbGap = true) ∧
      (k = 7 → ∃ r, t.clk.latched = some r ∧ r.legal = s.clk.legal.count ∧ r.lwday = s.clk.legal.wday ∧ r.service = s.clk.service.count ∧
        r.swday = s.clk.service.wday) ∧
      (k = 2 → t.ring.portA.up = false) ∧ (k = 3 → t.ring.portB.up = false) ∧ t.cdc.drops = s.cdc.drops) ∧
    (s.stalled k.val = true → ∃ t, exec (.cdcResume k) s = .next t ∧ t.stalled k.val = false ∧
      (∀ j : Fin 12, j ≠ k → t.stalled j.val = s.stalled j.val) ∧ (k = 7 → t.clk.latched = none) ∧ t.cdc.stalls = s.cdc.stalls) ∧
    (s.stalled k.val = false → ∀ n, exec (.cdcRealign k .source n) s = .next { s with cdc := { s.cdc with
        drops := s.cdc.drops.set k (satAdd (s.cdc.drops[k]) n) } } ∧
      exec (.cdcRealign k .destination n) s = .next s ∧ exec (.cdcRealign k .both n) s = .next s)

/-- R19, R32, R41, R44, R68, R367, R465: a sample tick moves ring time by one sample, samples every enabled channel, the pulse counters and
powered time; the first sample after a step off the grid enters PULL with STEP_PULL. Frozen, the circuits only count it; without VSUP
nothing is sampled. -/
def Obligations.SampleTickAdvances : Prop :=
  ∀ (x : Samples) (s : State),
    (s.coreOn = false → exec (.sampleTick x) s = .next s) ∧
    (∀ d, s.coreOn = true → s.time.step = none → s.time.offStep = some d → s.time.mode ≠ .holdover →
      ∃ t, exec (.sampleTick x) s = .next t ∧ t.time.mode = .pull ∧ t.time.stepPull = true ∧ t.time.offStep = none ∧
        t.time.rt = shiftRt (instantAfter s.time.mode (shiftRt s.time.rt (-d))) d) ∧
    (s.coreOn = true → s.time.step = none → s.time.offStep = none → (∀ c : Fin 24, (s.circuits[c]).due = .none) →
      (∀ b : Fin 2, (s.pqSets[b]).halfVal = none ∧ (s.pqSets[b]).winPend = none ∧ (s.pqSets[b]).transDue = 0) →
      ∃ t, exec (.sampleTick x) s = .next t ∧ t.time.ticks = s.time.ticks + 1 ∧
        (s.time.mode = .free ∨ s.time.mode = .lock → t.time.rt = gridUnits s.time.rt + tickUnits) ∧
        (s.time.mode = .holdover → t.time.rt = s.time.rt + tickUnits) ∧
        (∀ i : Fin 8, (t.s0[i]).total = (s.s0[i]).total + (grayCount (s.s0[i]).gray - grayCount (s.s0[i]).sampled).setWidth 64 ∧
          (t.s0[i]).acked = (s.s0[i]).gray) ∧
        (s.stalled 0 = false → ∀ p : Fin 24, portEn (s.ports[p]).cfg = true →
          (t.ports[p]).hist = ({ coarse := (x.coarse[p]).toInt, fine := (x.fine[p]).toInt, ovl := x.ovl.getLsbD p.val } :: (s.ports[p]).hist).take 9) ∧
        (s.stalled 0 = true → ∀ p : Fin 24, portEn (s.ports[p]).cfg = true → (t.ports[p]).settle = 65) ∧
        (s.firn.ptSub < 3999 → t.firn.ptSub = s.firn.ptSub + 1 ∧ t.firn.ptCkpt = s.firn.ptCkpt) ∧
        (s.firn.ptSub = 3999 → t.firn.ptSub = 0 ∧ t.firn.ptCkpt = satAdd s.firn.ptCkpt 1) ∧
        (s.hw.frozen = true → ∀ c : Fin 24, cirEn (s.circuits[c]).cfg = true → (s.circuits[c]).stopped = false →
          t.circuits[c] = { s.circuits[c] with frozenCnt := (s.circuits[c]).frozenCnt + 1 }) ∧
        (∀ c : Fin 24, (t.circuits[c]).totals = (s.circuits[c]).totals))

/-- Every command of the table, in every state, has an effect: it gives a next state, and leaves the queue of the commands that wait as it
was. -/
def Obligations.EveryCommandCompletes : Prop :=
  ∀ (i : Instr) (s : State), ∃ t, exec i s = .next t ∧ t.pending = s.pending

/-- Every step keeps every byte memory (the window, the Firn array and its RAM image, the mirror, the planes, the firmware banks) in its
canonical form, and keeps the identifiers of the store's requests below the next one. -/
def Obligations.MemoriesKept : Prop :=
  ∀ s t : State, memoriesWf s = true → requestIdsWf s = true → step s = .next t → memoriesWf t = true ∧ requestIdsWf t = true

/-- R418, R420, R426: no step clears a fuse of PD_SEC or changes the MAKER key once it is written, in any power state. -/
def Obligations.OtpIsNeverCleared : Prop :=
  ∀ s t : State, step s = .next t → OtpKept s t
end

