-- ==== Sys2Proof/Laws/State.lean ====
section
/-! SUPPORT. What each update of State does to each of its fields, so that no proof unfolds a record update. -/

namespace Sys2Proof.Machine

variable (s : State)

/-! ### modPort -/

@[simp] theorem State.modPort_ports (p : Fin 24) (f : Port → Port) : (s.modPort p f).ports = vmod s.ports p f := rfl
@[simp] theorem State.modPort_pending (p : Fin 24) (f : Port → Port) : (s.modPort p f).pending = s.pending := rfl
@[simp] theorem State.modPort_fresh (p : Fin 24) (f : Port → Port) : (s.modPort p f).fresh = s.fresh := rfl
@[simp] theorem State.modPort_power (p : Fin 24) (f : Port → Port) : (s.modPort p f).power = s.power := rfl
@[simp] theorem State.modPort_sec (p : Fin 24) (f : Port → Port) : (s.modPort p f).sec = s.sec := rfl
@[simp] theorem State.modPort_mp (p : Fin 24) (f : Port → Port) : (s.modPort p f).mp = s.mp := rfl
@[simp] theorem State.modPort_hw (p : Fin 24) (f : Port → Port) : (s.modPort p f).hw = s.hw := rfl
@[simp] theorem State.modPort_mb (p : Fin 24) (f : Port → Port) : (s.modPort p f).mb = s.mb := rfl
@[simp] theorem State.modPort_volts (p : Fin 24) (f : Port → Port) : (s.modPort p f).volts = s.volts := rfl
@[simp] theorem State.modPort_cal (p : Fin 24) (f : Port → Port) : (s.modPort p f).cal = s.cal := rfl
@[simp] theorem State.modPort_circuits (p : Fin 24) (f : Port → Port) : (s.modPort p f).circuits = s.circuits := rfl
@[simp] theorem State.modPort_cfs (p : Fin 24) (f : Port → Port) : (s.modPort p f).cfs = s.cfs := rfl
@[simp] theorem State.modPort_energy (p : Fin 24) (f : Port → Port) : (s.modPort p f).energy = s.energy := rfl
@[simp] theorem State.modPort_pqSets (p : Fin 24) (f : Port → Port) : (s.modPort p f).pqSets = s.pqSets := rfl
@[simp] theorem State.modPort_pq (p : Fin 24) (f : Port → Port) : (s.modPort p f).pq = s.pq := rfl
@[simp] theorem State.modPort_firn (p : Fin 24) (f : Port → Port) : (s.modPort p f).firn = s.firn := rfl
@[simp] theorem State.modPort_clk (p : Fin 24) (f : Port → Port) : (s.modPort p f).clk = s.clk := rfl
@[simp] theorem State.modPort_time (p : Fin 24) (f : Port → Port) : (s.modPort p f).time = s.time := rfl
@[simp] theorem State.modPort_ring (p : Fin 24) (f : Port → Port) : (s.modPort p f).ring = s.ring := rfl
@[simp] theorem State.modPort_plc (p : Fin 24) (f : Port → Port) : (s.modPort p f).plc = s.plc := rfl
@[simp] theorem State.modPort_aux (p : Fin 24) (f : Port → Port) : (s.modPort p f).aux = s.aux := rfl
@[simp] theorem State.modPort_s0 (p : Fin 24) (f : Port → Port) : (s.modPort p f).s0 = s.s0 := rfl
@[simp] theorem State.modPort_disp (p : Fin 24) (f : Port → Port) : (s.modPort p f).disp = s.disp := rfl
@[simp] theorem State.modPort_cdc (p : Fin 24) (f : Port → Port) : (s.modPort p f).cdc = s.cdc := rfl

/-! ### modTracer -/

@[simp] theorem State.modTracer_ports (p : Fin 24) (f : Tracer → Tracer) : (s.modTracer p f).ports = vmod s.ports p (fun r => { r with tracer := f r.tracer }) := rfl
@[simp] theorem State.modTracer_pending (p : Fin 24) (f : Tracer → Tracer) : (s.modTracer p f).pending = s.pending := rfl
@[simp] theorem State.modTracer_fresh (p : Fin 24) (f : Tracer → Tracer) : (s.modTracer p f).fresh = s.fresh := rfl
@[simp] theorem State.modTracer_power (p : Fin 24) (f : Tracer → Tracer) : (s.modTracer p f).power = s.power := rfl
@[simp] theorem State.modTracer_sec (p : Fin 24) (f : Tracer → Tracer) : (s.modTracer p f).sec = s.sec := rfl
@[simp] theorem State.modTracer_mp (p : Fin 24) (f : Tracer → Tracer) : (s.modTracer p f).mp = s.mp := rfl
@[simp] theorem State.modTracer_hw (p : Fin 24) (f : Tracer → Tracer) : (s.modTracer p f).hw = s.hw := rfl
@[simp] theorem State.modTracer_mb (p : Fin 24) (f : Tracer → Tracer) : (s.modTracer p f).mb = s.mb := rfl
@[simp] theorem State.modTracer_volts (p : Fin 24) (f : Tracer → Tracer) : (s.modTracer p f).volts = s.volts := rfl
@[simp] theorem State.modTracer_cal (p : Fin 24) (f : Tracer → Tracer) : (s.modTracer p f).cal = s.cal := rfl
@[simp] theorem State.modTracer_circuits (p : Fin 24) (f : Tracer → Tracer) : (s.modTracer p f).circuits = s.circuits := rfl
@[simp] theorem State.modTracer_cfs (p : Fin 24) (f : Tracer → Tracer) : (s.modTracer p f).cfs = s.cfs := rfl
@[simp] theorem State.modTracer_energy (p : Fin 24) (f : Tracer → Tracer) : (s.modTracer p f).energy = s.energy := rfl
@[simp] theorem State.modTracer_pqSets (p : Fin 24) (f : Tracer → Tracer) : (s.modTracer p f).pqSets = s.pqSets := rfl
@[simp] theorem State.modTracer_pq (p : Fin 24) (f : Tracer → Tracer) : (s.modTracer p f).pq = s.pq := rfl
@[simp] theorem State.modTracer_firn (p : Fin 24) (f : Tracer → Tracer) : (s.modTracer p f).firn = s.firn := rfl
@[simp] theorem State.modTracer_clk (p : Fin 24) (f : Tracer → Tracer) : (s.modTracer p f).clk = s.clk := rfl
@[simp] theorem State.modTracer_time (p : Fin 24) (f : Tracer → Tracer) : (s.modTracer p f).time = s.time := rfl
@[simp] theorem State.modTracer_ring (p : Fin 24) (f : Tracer → Tracer) : (s.modTracer p f).ring = s.ring := rfl
@[simp] theorem State.modTracer_plc (p : Fin 24) (f : Tracer → Tracer) : (s.modTracer p f).plc = s.plc := rfl
@[simp] theorem State.modTracer_aux (p : Fin 24) (f : Tracer → Tracer) : (s.modTracer p f).aux = s.aux := rfl
@[simp] theorem State.modTracer_s0 (p : Fin 24) (f : Tracer → Tracer) : (s.modTracer p f).s0 = s.s0 := rfl
@[simp] theorem State.modTracer_disp (p : Fin 24) (f : Tracer → Tracer) : (s.modTracer p f).disp = s.disp := rfl
@[simp] theorem State.modTracer_cdc (p : Fin 24) (f : Tracer → Tracer) : (s.modTracer p f).cdc = s.cdc := rfl

/-! ### modVolt -/

@[simp] theorem State.modVolt_volts (v : Fin 8) (f : Volt → Volt) : (s.modVolt v f).volts = vmod s.volts v f := rfl
@[simp] theorem State.modVolt_pending (v : Fin 8) (f : Volt → Volt) : (s.modVolt v f).pending = s.pending := rfl
@[simp] theorem State.modVolt_fresh (v : Fin 8) (f : Volt → Volt) : (s.modVolt v f).fresh = s.fresh := rfl
@[simp] theorem State.modVolt_power (v : Fin 8) (f : Volt → Volt) : (s.modVolt v f).power = s.power := rfl
@[simp] theorem State.modVolt_sec (v : Fin 8) (f : Volt → Volt) : (s.modVolt v f).sec = s.sec := rfl
@[simp] theorem State.modVolt_mp (v : Fin 8) (f : Volt → Volt) : (s.modVolt v f).mp = s.mp := rfl
@[simp] theorem State.modVolt_hw (v : Fin 8) (f : Volt → Volt) : (s.modVolt v f).hw = s.hw := rfl
@[simp] theorem State.modVolt_mb (v : Fin 8) (f : Volt → Volt) : (s.modVolt v f).mb = s.mb := rfl
@[simp] theorem State.modVolt_ports (v : Fin 8) (f : Volt → Volt) : (s.modVolt v f).ports = s.ports := rfl
@[simp] theorem State.modVolt_cal (v : Fin 8) (f : Volt → Volt) : (s.modVolt v f).cal = s.cal := rfl
@[simp] theorem State.modVolt_circuits (v : Fin 8) (f : Volt → Volt) : (s.modVolt v f).circuits = s.circuits := rfl
@[simp] theorem State.modVolt_cfs (v : Fin 8) (f : Volt → Volt) : (s.modVolt v f).cfs = s.cfs := rfl
@[simp] theorem State.modVolt_energy (v : Fin 8) (f : Volt → Volt) : (s.modVolt v f).energy = s.energy := rfl
@[simp] theorem State.modVolt_pqSets (v : Fin 8) (f : Volt → Volt) : (s.modVolt v f).pqSets = s.pqSets := rfl
@[simp] theorem State.modVolt_pq (v : Fin 8) (f : Volt → Volt) : (s.modVolt v f).pq = s.pq := rfl
@[simp] theorem State.modVolt_firn (v : Fin 8) (f : Volt → Volt) : (s.modVolt v f).firn = s.firn := rfl
@[simp] theorem State.modVolt_clk (v : Fin 8) (f : Volt → Volt) : (s.modVolt v f).clk = s.clk := rfl
@[simp] theorem State.modVolt_time (v : Fin 8) (f : Volt → Volt) : (s.modVolt v f).time = s.time := rfl
@[simp] theorem State.modVolt_ring (v : Fin 8) (f : Volt → Volt) : (s.modVolt v f).ring = s.ring := rfl
@[simp] theorem State.modVolt_plc (v : Fin 8) (f : Volt → Volt) : (s.modVolt v f).plc = s.plc := rfl
@[simp] theorem State.modVolt_aux (v : Fin 8) (f : Volt → Volt) : (s.modVolt v f).aux = s.aux := rfl
@[simp] theorem State.modVolt_s0 (v : Fin 8) (f : Volt → Volt) : (s.modVolt v f).s0 = s.s0 := rfl
@[simp] theorem State.modVolt_disp (v : Fin 8) (f : Volt → Volt) : (s.modVolt v f).disp = s.disp := rfl
@[simp] theorem State.modVolt_cdc (v : Fin 8) (f : Volt → Volt) : (s.modVolt v f).cdc = s.cdc := rfl

/-! ### modCir -/

@[simp] theorem State.modCir_circuits (c : Fin 24) (f : Circuit → Circuit) : (s.modCir c f).circuits = vmod s.circuits c f := rfl
@[simp] theorem State.modCir_pending (c : Fin 24) (f : Circuit → Circuit) : (s.modCir c f).pending = s.pending := rfl
@[simp] theorem State.modCir_fresh (c : Fin 24) (f : Circuit → Circuit) : (s.modCir c f).fresh = s.fresh := rfl
@[simp] theorem State.modCir_power (c : Fin 24) (f : Circuit → Circuit) : (s.modCir c f).power = s.power := rfl
@[simp] theorem State.modCir_sec (c : Fin 24) (f : Circuit → Circuit) : (s.modCir c f).sec = s.sec := rfl
@[simp] theorem State.modCir_mp (c : Fin 24) (f : Circuit → Circuit) : (s.modCir c f).mp = s.mp := rfl
@[simp] theorem State.modCir_hw (c : Fin 24) (f : Circuit → Circuit) : (s.modCir c f).hw = s.hw := rfl
@[simp] theorem State.modCir_mb (c : Fin 24) (f : Circuit → Circuit) : (s.modCir c f).mb = s.mb := rfl
@[simp] theorem State.modCir_ports (c : Fin 24) (f : Circuit → Circuit) : (s.modCir c f).ports = s.ports := rfl
@[simp] theorem State.modCir_volts (c : Fin 24) (f : Circuit → Circuit) : (s.modCir c f).volts = s.volts := rfl
@[simp] theorem State.modCir_cal (c : Fin 24) (f : Circuit → Circuit) : (s.modCir c f).cal = s.cal := rfl
@[simp] theorem State.modCir_cfs (c : Fin 24) (f : Circuit → Circuit) : (s.modCir c f).cfs = s.cfs := rfl
@[simp] theorem State.modCir_energy (c : Fin 24) (f : Circuit → Circuit) : (s.modCir c f).energy = s.energy := rfl
@[simp] theorem State.modCir_pqSets (c : Fin 24) (f : Circuit → Circuit) : (s.modCir c f).pqSets = s.pqSets := rfl
@[simp] theorem State.modCir_pq (c : Fin 24) (f : Circuit → Circuit) : (s.modCir c f).pq = s.pq := rfl
@[simp] theorem State.modCir_firn (c : Fin 24) (f : Circuit → Circuit) : (s.modCir c f).firn = s.firn := rfl
@[simp] theorem State.modCir_clk (c : Fin 24) (f : Circuit → Circuit) : (s.modCir c f).clk = s.clk := rfl
@[simp] theorem State.modCir_time (c : Fin 24) (f : Circuit → Circuit) : (s.modCir c f).time = s.time := rfl
@[simp] theorem State.modCir_ring (c : Fin 24) (f : Circuit → Circuit) : (s.modCir c f).ring = s.ring := rfl
@[simp] theorem State.modCir_plc (c : Fin 24) (f : Circuit → Circuit) : (s.modCir c f).plc = s.plc := rfl
@[simp] theorem State.modCir_aux (c : Fin 24) (f : Circuit → Circuit) : (s.modCir c f).aux = s.aux := rfl
@[simp] theorem State.modCir_s0 (c : Fin 24) (f : Circuit → Circuit) : (s.modCir c f).s0 = s.s0 := rfl
@[simp] theorem State.modCir_disp (c : Fin 24) (f : Circuit → Circuit) : (s.modCir c f).disp = s.disp := rfl
@[simp] theorem State.modCir_cdc (c : Fin 24) (f : Circuit → Circuit) : (s.modCir c f).cdc = s.cdc := rfl

/-! ### modCf -/

@[simp] theorem State.modCf_cfs (o : Fin 8) (f : CfOut → CfOut) : (s.modCf o f).cfs = vmod s.cfs o f := rfl
@[simp] theorem State.modCf_pending (o : Fin 8) (f : CfOut → CfOut) : (s.modCf o f).pending = s.pending := rfl
@[simp] theorem State.modCf_fresh (o : Fin 8) (f : CfOut → CfOut) : (s.modCf o f).fresh = s.fresh := rfl
@[simp] theorem State.modCf_power (o : Fin 8) (f : CfOut → CfOut) : (s.modCf o f).power = s.power := rfl
@[simp] theorem State.modCf_sec (o : Fin 8) (f : CfOut → CfOut) : (s.modCf o f).sec = s.sec := rfl
@[simp] theorem State.modCf_mp (o : Fin 8) (f : CfOut → CfOut) : (s.modCf o f).mp = s.mp := rfl
@[simp] theorem State.modCf_hw (o : Fin 8) (f : CfOut → CfOut) : (s.modCf o f).hw = s.hw := rfl
@[simp] theorem State.modCf_mb (o : Fin 8) (f : CfOut → CfOut) : (s.modCf o f).mb = s.mb := rfl
@[simp] theorem State.modCf_ports (o : Fin 8) (f : CfOut → CfOut) : (s.modCf o f).ports = s.ports := rfl
@[simp] theorem State.modCf_volts (o : Fin 8) (f : CfOut → CfOut) : (s.modCf o f).volts = s.volts := rfl
@[simp] theorem State.modCf_cal (o : Fin 8) (f : CfOut → CfOut) : (s.modCf o f).cal = s.cal := rfl
@[simp] theorem State.modCf_circuits (o : Fin 8) (f : CfOut → CfOut) : (s.modCf o f).circuits = s.circuits := rfl
@[simp] theorem State.modCf_energy (o : Fin 8) (f : CfOut → CfOut) : (s.modCf o f).energy = s.energy := rfl
@[simp] theorem State.modCf_pqSets (o : Fin 8) (f : CfOut → CfOut) : (s.modCf o f).pqSets = s.pqSets := rfl
@[simp] theorem State.modCf_pq (o : Fin 8) (f : CfOut → CfOut) : (s.modCf o f).pq = s.pq := rfl
@[simp] theorem State.modCf_firn (o : Fin 8) (f : CfOut → CfOut) : (s.modCf o f).firn = s.firn := rfl
@[simp] theorem State.modCf_clk (o : Fin 8) (f : CfOut → CfOut) : (s.modCf o f).clk = s.clk := rfl
@[simp] theorem State.modCf_time (o : Fin 8) (f : CfOut → CfOut) : (s.modCf o f).time = s.time := rfl
@[simp] theorem State.modCf_ring (o : Fin 8) (f : CfOut → CfOut) : (s.modCf o f).ring = s.ring := rfl
@[simp] theorem State.modCf_plc (o : Fin 8) (f : CfOut → CfOut) : (s.modCf o f).plc = s.plc := rfl
@[simp] theorem State.modCf_aux (o : Fin 8) (f : CfOut → CfOut) : (s.modCf o f).aux = s.aux := rfl
@[simp] theorem State.modCf_s0 (o : Fin 8) (f : CfOut → CfOut) : (s.modCf o f).s0 = s.s0 := rfl
@[simp] theorem State.modCf_disp (o : Fin 8) (f : CfOut → CfOut) : (s.modCf o f).disp = s.disp := rfl
@[simp] theorem State.modCf_cdc (o : Fin 8) (f : CfOut → CfOut) : (s.modCf o f).cdc = s.cdc := rfl

/-! ### modSet -/

@[simp] theorem State.modSet_pqSets (b : Fin 2) (f : PqSet → PqSet) : (s.modSet b f).pqSets = vmod s.pqSets b f := rfl
@[simp] theorem State.modSet_pending (b : Fin 2) (f : PqSet → PqSet) : (s.modSet b f).pending = s.pending := rfl
@[simp] theorem State.modSet_fresh (b : Fin 2) (f : PqSet → PqSet) : (s.modSet b f).fresh = s.fresh := rfl
@[simp] theorem State.modSet_power (b : Fin 2) (f : PqSet → PqSet) : (s.modSet b f).power = s.power := rfl
@[simp] theorem State.modSet_sec (b : Fin 2) (f : PqSet → PqSet) : (s.modSet b f).sec = s.sec := rfl
@[simp] theorem State.modSet_mp (b : Fin 2) (f : PqSet → PqSet) : (s.modSet b f).mp = s.mp := rfl
@[simp] theorem State.modSet_hw (b : Fin 2) (f : PqSet → PqSet) : (s.modSet b f).hw = s.hw := rfl
@[simp] theorem State.modSet_mb (b : Fin 2) (f : PqSet → PqSet) : (s.modSet b f).mb = s.mb := rfl
@[simp] theorem State.modSet_ports (b : Fin 2) (f : PqSet → PqSet) : (s.modSet b f).ports = s.ports := rfl
@[simp] theorem State.modSet_volts (b : Fin 2) (f : PqSet → PqSet) : (s.modSet b f).volts = s.volts := rfl
@[simp] theorem State.modSet_cal (b : Fin 2) (f : PqSet → PqSet) : (s.modSet b f).cal = s.cal := rfl
@[simp] theorem State.modSet_circuits (b : Fin 2) (f : PqSet → PqSet) : (s.modSet b f).circuits = s.circuits := rfl
@[simp] theorem State.modSet_cfs (b : Fin 2) (f : PqSet → PqSet) : (s.modSet b f).cfs = s.cfs := rfl
@[simp] theorem State.modSet_energy (b : Fin 2) (f : PqSet → PqSet) : (s.modSet b f).energy = s.energy := rfl
@[simp] theorem State.modSet_pq (b : Fin 2) (f : PqSet → PqSet) : (s.modSet b f).pq = s.pq := rfl
@[simp] theorem State.modSet_firn (b : Fin 2) (f : PqSet → PqSet) : (s.modSet b f).firn = s.firn := rfl
@[simp] theorem State.modSet_clk (b : Fin 2) (f : PqSet → PqSet) : (s.modSet b f).clk = s.clk := rfl
@[simp] theorem State.modSet_time (b : Fin 2) (f : PqSet → PqSet) : (s.modSet b f).time = s.time := rfl
@[simp] theorem State.modSet_ring (b : Fin 2) (f : PqSet → PqSet) : (s.modSet b f).ring = s.ring := rfl
@[simp] theorem State.modSet_plc (b : Fin 2) (f : PqSet → PqSet) : (s.modSet b f).plc = s.plc := rfl
@[simp] theorem State.modSet_aux (b : Fin 2) (f : PqSet → PqSet) : (s.modSet b f).aux = s.aux := rfl
@[simp] theorem State.modSet_s0 (b : Fin 2) (f : PqSet → PqSet) : (s.modSet b f).s0 = s.s0 := rfl
@[simp] theorem State.modSet_disp (b : Fin 2) (f : PqSet → PqSet) : (s.modSet b f).disp = s.disp := rfl
@[simp] theorem State.modSet_cdc (b : Fin 2) (f : PqSet → PqSet) : (s.modSet b f).cdc = s.cdc := rfl

/-! ### modPq -/

@[simp] theorem State.modPq_pq (f : PqUnit → PqUnit) : (s.modPq f).pq = f s.pq := rfl
@[simp] theorem State.modPq_pending (f : PqUnit → PqUnit) : (s.modPq f).pending = s.pending := rfl
@[simp] theorem State.modPq_fresh (f : PqUnit → PqUnit) : (s.modPq f).fresh = s.fresh := rfl
@[simp] theorem State.modPq_power (f : PqUnit → PqUnit) : (s.modPq f).power = s.power := rfl
@[simp] theorem State.modPq_sec (f : PqUnit → PqUnit) : (s.modPq f).sec = s.sec := rfl
@[simp] theorem State.modPq_mp (f : PqUnit → PqUnit) : (s.modPq f).mp = s.mp := rfl
@[simp] theorem State.modPq_hw (f : PqUnit → PqUnit) : (s.modPq f).hw = s.hw := rfl
@[simp] theorem State.modPq_mb (f : PqUnit → PqUnit) : (s.modPq f).mb = s.mb := rfl
@[simp] theorem State.modPq_ports (f : PqUnit → PqUnit) : (s.modPq f).ports = s.ports := rfl
@[simp] theorem State.modPq_volts (f : PqUnit → PqUnit) : (s.modPq f).volts = s.volts := rfl
@[simp] theorem State.modPq_cal (f : PqUnit → PqUnit) : (s.modPq f).cal = s.cal := rfl
@[simp] theorem State.modPq_circuits (f : PqUnit → PqUnit) : (s.modPq f).circuits = s.circuits := rfl
@[simp] theorem State.modPq_cfs (f : PqUnit → PqUnit) : (s.modPq f).cfs = s.cfs := rfl
@[simp] theorem State.modPq_energy (f : PqUnit → PqUnit) : (s.modPq f).energy = s.energy := rfl
@[simp] theorem State.modPq_pqSets (f : PqUnit → PqUnit) : (s.modPq f).pqSets = s.pqSets := rfl
@[simp] theorem State.modPq_firn (f : PqUnit → PqUnit) : (s.modPq f).firn = s.firn := rfl
@[simp] theorem State.modPq_clk (f : PqUnit → PqUnit) : (s.modPq f).clk = s.clk := rfl
@[simp] theorem State.modPq_time (f : PqUnit → PqUnit) : (s.modPq f).time = s.time := rfl
@[simp] theorem State.modPq_ring (f : PqUnit → PqUnit) : (s.modPq f).ring = s.ring := rfl
@[simp] theorem State.modPq_plc (f : PqUnit → PqUnit) : (s.modPq f).plc = s.plc := rfl
@[simp] theorem State.modPq_aux (f : PqUnit → PqUnit) : (s.modPq f).aux = s.aux := rfl
@[simp] theorem State.modPq_s0 (f : PqUnit → PqUnit) : (s.modPq f).s0 = s.s0 := rfl
@[simp] theorem State.modPq_disp (f : PqUnit → PqUnit) : (s.modPq f).disp = s.disp := rfl
@[simp] theorem State.modPq_cdc (f : PqUnit → PqUnit) : (s.modPq f).cdc = s.cdc := rfl

/-! ### modHw -/

@[simp] theorem State.modHw_hw (f : HwRegs → HwRegs) : (s.modHw f).hw = f s.hw := rfl
@[simp] theorem State.modHw_pending (f : HwRegs → HwRegs) : (s.modHw f).pending = s.pending := rfl
@[simp] theorem State.modHw_fresh (f : HwRegs → HwRegs) : (s.modHw f).fresh = s.fresh := rfl
@[simp] theorem State.modHw_power (f : HwRegs → HwRegs) : (s.modHw f).power = s.power := rfl
@[simp] theorem State.modHw_sec (f : HwRegs → HwRegs) : (s.modHw f).sec = s.sec := rfl
@[simp] theorem State.modHw_mp (f : HwRegs → HwRegs) : (s.modHw f).mp = s.mp := rfl
@[simp] theorem State.modHw_mb (f : HwRegs → HwRegs) : (s.modHw f).mb = s.mb := rfl
@[simp] theorem State.modHw_ports (f : HwRegs → HwRegs) : (s.modHw f).ports = s.ports := rfl
@[simp] theorem State.modHw_volts (f : HwRegs → HwRegs) : (s.modHw f).volts = s.volts := rfl
@[simp] theorem State.modHw_cal (f : HwRegs → HwRegs) : (s.modHw f).cal = s.cal := rfl
@[simp] theorem State.modHw_circuits (f : HwRegs → HwRegs) : (s.modHw f).circuits = s.circuits := rfl
@[simp] theorem State.modHw_cfs (f : HwRegs → HwRegs) : (s.modHw f).cfs = s.cfs := rfl
@[simp] theorem State.modHw_energy (f : HwRegs → HwRegs) : (s.modHw f).energy = s.energy := rfl
@[simp] theorem State.modHw_pqSets (f : HwRegs → HwRegs) : (s.modHw f).pqSets = s.pqSets := rfl
@[simp] theorem State.modHw_pq (f : HwRegs → HwRegs) : (s.modHw f).pq = s.pq := rfl
@[simp] theorem State.modHw_firn (f : HwRegs → HwRegs) : (s.modHw f).firn = s.firn := rfl
@[simp] theorem State.modHw_clk (f : HwRegs → HwRegs) : (s.modHw f).clk = s.clk := rfl
@[simp] theorem State.modHw_time (f : HwRegs → HwRegs) : (s.modHw f).time = s.time := rfl
@[simp] theorem State.modHw_ring (f : HwRegs → HwRegs) : (s.modHw f).ring = s.ring := rfl
@[simp] theorem State.modHw_plc (f : HwRegs → HwRegs) : (s.modHw f).plc = s.plc := rfl
@[simp] theorem State.modHw_aux (f : HwRegs → HwRegs) : (s.modHw f).aux = s.aux := rfl
@[simp] theorem State.modHw_s0 (f : HwRegs → HwRegs) : (s.modHw f).s0 = s.s0 := rfl
@[simp] theorem State.modHw_disp (f : HwRegs → HwRegs) : (s.modHw f).disp = s.disp := rfl
@[simp] theorem State.modHw_cdc (f : HwRegs → HwRegs) : (s.modHw f).cdc = s.cdc := rfl

/-! ### modMb -/

@[simp] theorem State.modMb_mb (f : Mailbox → Mailbox) : (s.modMb f).mb = f s.mb := rfl
@[simp] theorem State.modMb_pending (f : Mailbox → Mailbox) : (s.modMb f).pending = s.pending := rfl
@[simp] theorem State.modMb_fresh (f : Mailbox → Mailbox) : (s.modMb f).fresh = s.fresh := rfl
@[simp] theorem State.modMb_power (f : Mailbox → Mailbox) : (s.modMb f).power = s.power := rfl
@[simp] theorem State.modMb_sec (f : Mailbox → Mailbox) : (s.modMb f).sec = s.sec := rfl
@[simp] theorem State.modMb_mp (f : Mailbox → Mailbox) : (s.modMb f).mp = s.mp := rfl
@[simp] theorem State.modMb_hw (f : Mailbox → Mailbox) : (s.modMb f).hw = s.hw := rfl
@[simp] theorem State.modMb_ports (f : Mailbox → Mailbox) : (s.modMb f).ports = s.ports := rfl
@[simp] theorem State.modMb_volts (f : Mailbox → Mailbox) : (s.modMb f).volts = s.volts := rfl
@[simp] theorem State.modMb_cal (f : Mailbox → Mailbox) : (s.modMb f).cal = s.cal := rfl
@[simp] theorem State.modMb_circuits (f : Mailbox → Mailbox) : (s.modMb f).circuits = s.circuits := rfl
@[simp] theorem State.modMb_cfs (f : Mailbox → Mailbox) : (s.modMb f).cfs = s.cfs := rfl
@[simp] theorem State.modMb_energy (f : Mailbox → Mailbox) : (s.modMb f).energy = s.energy := rfl
@[simp] theorem State.modMb_pqSets (f : Mailbox → Mailbox) : (s.modMb f).pqSets = s.pqSets := rfl
@[simp] theorem State.modMb_pq (f : Mailbox → Mailbox) : (s.modMb f).pq = s.pq := rfl
@[simp] theorem State.modMb_firn (f : Mailbox → Mailbox) : (s.modMb f).firn = s.firn := rfl
@[simp] theorem State.modMb_clk (f : Mailbox → Mailbox) : (s.modMb f).clk = s.clk := rfl
@[simp] theorem State.modMb_time (f : Mailbox → Mailbox) : (s.modMb f).time = s.time := rfl
@[simp] theorem State.modMb_ring (f : Mailbox → Mailbox) : (s.modMb f).ring = s.ring := rfl
@[simp] theorem State.modMb_plc (f : Mailbox → Mailbox) : (s.modMb f).plc = s.plc := rfl
@[simp] theorem State.modMb_aux (f : Mailbox → Mailbox) : (s.modMb f).aux = s.aux := rfl
@[simp] theorem State.modMb_s0 (f : Mailbox → Mailbox) : (s.modMb f).s0 = s.s0 := rfl
@[simp] theorem State.modMb_disp (f : Mailbox → Mailbox) : (s.modMb f).disp = s.disp := rfl
@[simp] theorem State.modMb_cdc (f : Mailbox → Mailbox) : (s.modMb f).cdc = s.cdc := rfl

/-! ### modSec -/

@[simp] theorem State.modSec_sec (f : Security → Security) : (s.modSec f).sec = f s.sec := rfl
@[simp] theorem State.modSec_pending (f : Security → Security) : (s.modSec f).pending = s.pending := rfl
@[simp] theorem State.modSec_fresh (f : Security → Security) : (s.modSec f).fresh = s.fresh := rfl
@[simp] theorem State.modSec_power (f : Security → Security) : (s.modSec f).power = s.power := rfl
@[simp] theorem State.modSec_mp (f : Security → Security) : (s.modSec f).mp = s.mp := rfl
@[simp] theorem State.modSec_hw (f : Security → Security) : (s.modSec f).hw = s.hw := rfl
@[simp] theorem State.modSec_mb (f : Security → Security) : (s.modSec f).mb = s.mb := rfl
@[simp] theorem State.modSec_ports (f : Security → Security) : (s.modSec f).ports = s.ports := rfl
@[simp] theorem State.modSec_volts (f : Security → Security) : (s.modSec f).volts = s.volts := rfl
@[simp] theorem State.modSec_cal (f : Security → Security) : (s.modSec f).cal = s.cal := rfl
@[simp] theorem State.modSec_circuits (f : Security → Security) : (s.modSec f).circuits = s.circuits := rfl
@[simp] theorem State.modSec_cfs (f : Security → Security) : (s.modSec f).cfs = s.cfs := rfl
@[simp] theorem State.modSec_energy (f : Security → Security) : (s.modSec f).energy = s.energy := rfl
@[simp] theorem State.modSec_pqSets (f : Security → Security) : (s.modSec f).pqSets = s.pqSets := rfl
@[simp] theorem State.modSec_pq (f : Security → Security) : (s.modSec f).pq = s.pq := rfl
@[simp] theorem State.modSec_firn (f : Security → Security) : (s.modSec f).firn = s.firn := rfl
@[simp] theorem State.modSec_clk (f : Security → Security) : (s.modSec f).clk = s.clk := rfl
@[simp] theorem State.modSec_time (f : Security → Security) : (s.modSec f).time = s.time := rfl
@[simp] theorem State.modSec_ring (f : Security → Security) : (s.modSec f).ring = s.ring := rfl
@[simp] theorem State.modSec_plc (f : Security → Security) : (s.modSec f).plc = s.plc := rfl
@[simp] theorem State.modSec_aux (f : Security → Security) : (s.modSec f).aux = s.aux := rfl
@[simp] theorem State.modSec_s0 (f : Security → Security) : (s.modSec f).s0 = s.s0 := rfl
@[simp] theorem State.modSec_disp (f : Security → Security) : (s.modSec f).disp = s.disp := rfl
@[simp] theorem State.modSec_cdc (f : Security → Security) : (s.modSec f).cdc = s.cdc := rfl

/-! ### modMp -/

@[simp] theorem State.modMp_mp (f : Mp → Mp) : (s.modMp f).mp = f s.mp := rfl
@[simp] theorem State.modMp_pending (f : Mp → Mp) : (s.modMp f).pending = s.pending := rfl
@[simp] theorem State.modMp_fresh (f : Mp → Mp) : (s.modMp f).fresh = s.fresh := rfl
@[simp] theorem State.modMp_power (f : Mp → Mp) : (s.modMp f).power = s.power := rfl
@[simp] theorem State.modMp_sec (f : Mp → Mp) : (s.modMp f).sec = s.sec := rfl
@[simp] theorem State.modMp_hw (f : Mp → Mp) : (s.modMp f).hw = s.hw := rfl
@[simp] theorem State.modMp_mb (f : Mp → Mp) : (s.modMp f).mb = s.mb := rfl
@[simp] theorem State.modMp_ports (f : Mp → Mp) : (s.modMp f).ports = s.ports := rfl
@[simp] theorem State.modMp_volts (f : Mp → Mp) : (s.modMp f).volts = s.volts := rfl
@[simp] theorem State.modMp_cal (f : Mp → Mp) : (s.modMp f).cal = s.cal := rfl
@[simp] theorem State.modMp_circuits (f : Mp → Mp) : (s.modMp f).circuits = s.circuits := rfl
@[simp] theorem State.modMp_cfs (f : Mp → Mp) : (s.modMp f).cfs = s.cfs := rfl
@[simp] theorem State.modMp_energy (f : Mp → Mp) : (s.modMp f).energy = s.energy := rfl
@[simp] theorem State.modMp_pqSets (f : Mp → Mp) : (s.modMp f).pqSets = s.pqSets := rfl
@[simp] theorem State.modMp_pq (f : Mp → Mp) : (s.modMp f).pq = s.pq := rfl
@[simp] theorem State.modMp_firn (f : Mp → Mp) : (s.modMp f).firn = s.firn := rfl
@[simp] theorem State.modMp_clk (f : Mp → Mp) : (s.modMp f).clk = s.clk := rfl
@[simp] theorem State.modMp_time (f : Mp → Mp) : (s.modMp f).time = s.time := rfl
@[simp] theorem State.modMp_ring (f : Mp → Mp) : (s.modMp f).ring = s.ring := rfl
@[simp] theorem State.modMp_plc (f : Mp → Mp) : (s.modMp f).plc = s.plc := rfl
@[simp] theorem State.modMp_aux (f : Mp → Mp) : (s.modMp f).aux = s.aux := rfl
@[simp] theorem State.modMp_s0 (f : Mp → Mp) : (s.modMp f).s0 = s.s0 := rfl
@[simp] theorem State.modMp_disp (f : Mp → Mp) : (s.modMp f).disp = s.disp := rfl
@[simp] theorem State.modMp_cdc (f : Mp → Mp) : (s.modMp f).cdc = s.cdc := rfl

/-! ### modCal -/

@[simp] theorem State.modCal_cal (f : Cal → Cal) : (s.modCal f).cal = f s.cal := rfl
@[simp] theorem State.modCal_pending (f : Cal → Cal) : (s.modCal f).pending = s.pending := rfl
@[simp] theorem State.modCal_fresh (f : Cal → Cal) : (s.modCal f).fresh = s.fresh := rfl
@[simp] theorem State.modCal_power (f : Cal → Cal) : (s.modCal f).power = s.power := rfl
@[simp] theorem State.modCal_sec (f : Cal → Cal) : (s.modCal f).sec = s.sec := rfl
@[simp] theorem State.modCal_mp (f : Cal → Cal) : (s.modCal f).mp = s.mp := rfl
@[simp] theorem State.modCal_hw (f : Cal → Cal) : (s.modCal f).hw = s.hw := rfl
@[simp] theorem State.modCal_mb (f : Cal → Cal) : (s.modCal f).mb = s.mb := rfl
@[simp] theorem State.modCal_ports (f : Cal → Cal) : (s.modCal f).ports = s.ports := rfl
@[simp] theorem State.modCal_volts (f : Cal → Cal) : (s.modCal f).volts = s.volts := rfl
@[simp] theorem State.modCal_circuits (f : Cal → Cal) : (s.modCal f).circuits = s.circuits := rfl
@[simp] theorem State.modCal_cfs (f : Cal → Cal) : (s.modCal f).cfs = s.cfs := rfl
@[simp] theorem State.modCal_energy (f : Cal → Cal) : (s.modCal f).energy = s.energy := rfl
@[simp] theorem State.modCal_pqSets (f : Cal → Cal) : (s.modCal f).pqSets = s.pqSets := rfl
@[simp] theorem State.modCal_pq (f : Cal → Cal) : (s.modCal f).pq = s.pq := rfl
@[simp] theorem State.modCal_firn (f : Cal → Cal) : (s.modCal f).firn = s.firn := rfl
@[simp] theorem State.modCal_clk (f : Cal → Cal) : (s.modCal f).clk = s.clk := rfl
@[simp] theorem State.modCal_time (f : Cal → Cal) : (s.modCal f).time = s.time := rfl
@[simp] theorem State.modCal_ring (f : Cal → Cal) : (s.modCal f).ring = s.ring := rfl
@[simp] theorem State.modCal_plc (f : Cal → Cal) : (s.modCal f).plc = s.plc := rfl
@[simp] theorem State.modCal_aux (f : Cal → Cal) : (s.modCal f).aux = s.aux := rfl
@[simp] theorem State.modCal_s0 (f : Cal → Cal) : (s.modCal f).s0 = s.s0 := rfl
@[simp] theorem State.modCal_disp (f : Cal → Cal) : (s.modCal f).disp = s.disp := rfl
@[simp] theorem State.modCal_cdc (f : Cal → Cal) : (s.modCal f).cdc = s.cdc := rfl

/-! ### modFirn -/

@[simp] theorem State.modFirn_firn (f : Firn → Firn) : (s.modFirn f).firn = f s.firn := rfl
@[simp] theorem State.modFirn_pending (f : Firn → Firn) : (s.modFirn f).pending = s.pending := rfl
@[simp] theorem State.modFirn_fresh (f : Firn → Firn) : (s.modFirn f).fresh = s.fresh := rfl
@[simp] theorem State.modFirn_power (f : Firn → Firn) : (s.modFirn f).power = s.power := rfl
@[simp] theorem State.modFirn_sec (f : Firn → Firn) : (s.modFirn f).sec = s.sec := rfl
@[simp] theorem State.modFirn_mp (f : Firn → Firn) : (s.modFirn f).mp = s.mp := rfl
@[simp] theorem State.modFirn_hw (f : Firn → Firn) : (s.modFirn f).hw = s.hw := rfl
@[simp] theorem State.modFirn_mb (f : Firn → Firn) : (s.modFirn f).mb = s.mb := rfl
@[simp] theorem State.modFirn_ports (f : Firn → Firn) : (s.modFirn f).ports = s.ports := rfl
@[simp] theorem State.modFirn_volts (f : Firn → Firn) : (s.modFirn f).volts = s.volts := rfl
@[simp] theorem State.modFirn_cal (f : Firn → Firn) : (s.modFirn f).cal = s.cal := rfl
@[simp] theorem State.modFirn_circuits (f : Firn → Firn) : (s.modFirn f).circuits = s.circuits := rfl
@[simp] theorem State.modFirn_cfs (f : Firn → Firn) : (s.modFirn f).cfs = s.cfs := rfl
@[simp] theorem State.modFirn_energy (f : Firn → Firn) : (s.modFirn f).energy = s.energy := rfl
@[simp] theorem State.modFirn_pqSets (f : Firn → Firn) : (s.modFirn f).pqSets = s.pqSets := rfl
@[simp] theorem State.modFirn_pq (f : Firn → Firn) : (s.modFirn f).pq = s.pq := rfl
@[simp] theorem State.modFirn_clk (f : Firn → Firn) : (s.modFirn f).clk = s.clk := rfl
@[simp] theorem State.modFirn_time (f : Firn → Firn) : (s.modFirn f).time = s.time := rfl
@[simp] theorem State.modFirn_ring (f : Firn → Firn) : (s.modFirn f).ring = s.ring := rfl
@[simp] theorem State.modFirn_plc (f : Firn → Firn) : (s.modFirn f).plc = s.plc := rfl
@[simp] theorem State.modFirn_aux (f : Firn → Firn) : (s.modFirn f).aux = s.aux := rfl
@[simp] theorem State.modFirn_s0 (f : Firn → Firn) : (s.modFirn f).s0 = s.s0 := rfl
@[simp] theorem State.modFirn_disp (f : Firn → Firn) : (s.modFirn f).disp = s.disp := rfl
@[simp] theorem State.modFirn_cdc (f : Firn → Firn) : (s.modFirn f).cdc = s.cdc := rfl

/-! ### modClk -/

@[simp] theorem State.modClk_clk (f : Clocks → Clocks) : (s.modClk f).clk = f s.clk := rfl
@[simp] theorem State.modClk_pending (f : Clocks → Clocks) : (s.modClk f).pending = s.pending := rfl
@[simp] theorem State.modClk_fresh (f : Clocks → Clocks) : (s.modClk f).fresh = s.fresh := rfl
@[simp] theorem State.modClk_power (f : Clocks → Clocks) : (s.modClk f).power = s.power := rfl
@[simp] theorem State.modClk_sec (f : Clocks → Clocks) : (s.modClk f).sec = s.sec := rfl
@[simp] theorem State.modClk_mp (f : Clocks → Clocks) : (s.modClk f).mp = s.mp := rfl
@[simp] theorem State.modClk_hw (f : Clocks → Clocks) : (s.modClk f).hw = s.hw := rfl
@[simp] theorem State.modClk_mb (f : Clocks → Clocks) : (s.modClk f).mb = s.mb := rfl
@[simp] theorem State.modClk_ports (f : Clocks → Clocks) : (s.modClk f).ports = s.ports := rfl
@[simp] theorem State.modClk_volts (f : Clocks → Clocks) : (s.modClk f).volts = s.volts := rfl
@[simp] theorem State.modClk_cal (f : Clocks → Clocks) : (s.modClk f).cal = s.cal := rfl
@[simp] theorem State.modClk_circuits (f : Clocks → Clocks) : (s.modClk f).circuits = s.circuits := rfl
@[simp] theorem State.modClk_cfs (f : Clocks → Clocks) : (s.modClk f).cfs = s.cfs := rfl
@[simp] theorem State.modClk_energy (f : Clocks → Clocks) : (s.modClk f).energy = s.energy := rfl
@[simp] theorem State.modClk_pqSets (f : Clocks → Clocks) : (s.modClk f).pqSets = s.pqSets := rfl
@[simp] theorem State.modClk_pq (f : Clocks → Clocks) : (s.modClk f).pq = s.pq := rfl
@[simp] theorem State.modClk_firn (f : Clocks → Clocks) : (s.modClk f).firn = s.firn := rfl
@[simp] theorem State.modClk_time (f : Clocks → Clocks) : (s.modClk f).time = s.time := rfl
@[simp] theorem State.modClk_ring (f : Clocks → Clocks) : (s.modClk f).ring = s.ring := rfl
@[simp] theorem State.modClk_plc (f : Clocks → Clocks) : (s.modClk f).plc = s.plc := rfl
@[simp] theorem State.modClk_aux (f : Clocks → Clocks) : (s.modClk f).aux = s.aux := rfl
@[simp] theorem State.modClk_s0 (f : Clocks → Clocks) : (s.modClk f).s0 = s.s0 := rfl
@[simp] theorem State.modClk_disp (f : Clocks → Clocks) : (s.modClk f).disp = s.disp := rfl
@[simp] theorem State.modClk_cdc (f : Clocks → Clocks) : (s.modClk f).cdc = s.cdc := rfl

/-! ### modTime -/

@[simp] theorem State.modTime_time (f : Time → Time) : (s.modTime f).time = f s.time := rfl
@[simp] theorem State.modTime_pending (f : Time → Time) : (s.modTime f).pending = s.pending := rfl
@[simp] theorem State.modTime_fresh (f : Time → Time) : (s.modTime f).fresh = s.fresh := rfl
@[simp] theorem State.modTime_power (f : Time → Time) : (s.modTime f).power = s.power := rfl
@[simp] theorem State.modTime_sec (f : Time → Time) : (s.modTime f).sec = s.sec := rfl
@[simp] theorem State.modTime_mp (f : Time → Time) : (s.modTime f).mp = s.mp := rfl
@[simp] theorem State.modTime_hw (f : Time → Time) : (s.modTime f).hw = s.hw := rfl
@[simp] theorem State.modTime_mb (f : Time → Time) : (s.modTime f).mb = s.mb := rfl
@[simp] theorem State.modTime_ports (f : Time → Time) : (s.modTime f).ports = s.ports := rfl
@[simp] theorem State.modTime_volts (f : Time → Time) : (s.modTime f).volts = s.volts := rfl
@[simp] theorem State.modTime_cal (f : Time → Time) : (s.modTime f).cal = s.cal := rfl
@[simp] theorem State.modTime_circuits (f : Time → Time) : (s.modTime f).circuits = s.circuits := rfl
@[simp] theorem State.modTime_cfs (f : Time → Time) : (s.modTime f).cfs = s.cfs := rfl
@[simp] theorem State.modTime_energy (f : Time → Time) : (s.modTime f).energy = s.energy := rfl
@[simp] theorem State.modTime_pqSets (f : Time → Time) : (s.modTime f).pqSets = s.pqSets := rfl
@[simp] theorem State.modTime_pq (f : Time → Time) : (s.modTime f).pq = s.pq := rfl
@[simp] theorem State.modTime_firn (f : Time → Time) : (s.modTime f).firn = s.firn := rfl
@[simp] theorem State.modTime_clk (f : Time → Time) : (s.modTime f).clk = s.clk := rfl
@[simp] theorem State.modTime_ring (f : Time → Time) : (s.modTime f).ring = s.ring := rfl
@[simp] theorem State.modTime_plc (f : Time → Time) : (s.modTime f).plc = s.plc := rfl
@[simp] theorem State.modTime_aux (f : Time → Time) : (s.modTime f).aux = s.aux := rfl
@[simp] theorem State.modTime_s0 (f : Time → Time) : (s.modTime f).s0 = s.s0 := rfl
@[simp] theorem State.modTime_disp (f : Time → Time) : (s.modTime f).disp = s.disp := rfl
@[simp] theorem State.modTime_cdc (f : Time → Time) : (s.modTime f).cdc = s.cdc := rfl

/-! ### modTout -/

@[simp] theorem State.modTout_time (n : Fin 4) (f : Tout → Tout) : (s.modTout n f).time = { s.time with outs := vmod s.time.outs n f } := rfl
@[simp] theorem State.modTout_pending (n : Fin 4) (f : Tout → Tout) : (s.modTout n f).pending = s.pending := rfl
@[simp] theorem State.modTout_fresh (n : Fin 4) (f : Tout → Tout) : (s.modTout n f).fresh = s.fresh := rfl
@[simp] theorem State.modTout_power (n : Fin 4) (f : Tout → Tout) : (s.modTout n f).power = s.power := rfl
@[simp] theorem State.modTout_sec (n : Fin 4) (f : Tout → Tout) : (s.modTout n f).sec = s.sec := rfl
@[simp] theorem State.modTout_mp (n : Fin 4) (f : Tout → Tout) : (s.modTout n f).mp = s.mp := rfl
@[simp] theorem State.modTout_hw (n : Fin 4) (f : Tout → Tout) : (s.modTout n f).hw = s.hw := rfl
@[simp] theorem State.modTout_mb (n : Fin 4) (f : Tout → Tout) : (s.modTout n f).mb = s.mb := rfl
@[simp] theorem State.modTout_ports (n : Fin 4) (f : Tout → Tout) : (s.modTout n f).ports = s.ports := rfl
@[simp] theorem State.modTout_volts (n : Fin 4) (f : Tout → Tout) : (s.modTout n f).volts = s.volts := rfl
@[simp] theorem State.modTout_cal (n : Fin 4) (f : Tout → Tout) : (s.modTout n f).cal = s.cal := rfl
@[simp] theorem State.modTout_circuits (n : Fin 4) (f : Tout → Tout) : (s.modTout n f).circuits = s.circuits := rfl
@[simp] theorem State.modTout_cfs (n : Fin 4) (f : Tout → Tout) : (s.modTout n f).cfs = s.cfs := rfl
@[simp] theorem State.modTout_energy (n : Fin 4) (f : Tout → Tout) : (s.modTout n f).energy = s.energy := rfl
@[simp] theorem State.modTout_pqSets (n : Fin 4) (f : Tout → Tout) : (s.modTout n f).pqSets = s.pqSets := rfl
@[simp] theorem State.modTout_pq (n : Fin 4) (f : Tout → Tout) : (s.modTout n f).pq = s.pq := rfl
@[simp] theorem State.modTout_firn (n : Fin 4) (f : Tout → Tout) : (s.modTout n f).firn = s.firn := rfl
@[simp] theorem State.modTout_clk (n : Fin 4) (f : Tout → Tout) : (s.modTout n f).clk = s.clk := rfl
@[simp] theorem State.modTout_ring (n : Fin 4) (f : Tout → Tout) : (s.modTout n f).ring = s.ring := rfl
@[simp] theorem State.modTout_plc (n : Fin 4) (f : Tout → Tout) : (s.modTout n f).plc = s.plc := rfl
@[simp] theorem State.modTout_aux (n : Fin 4) (f : Tout → Tout) : (s.modTout n f).aux = s.aux := rfl
@[simp] theorem State.modTout_s0 (n : Fin 4) (f : Tout → Tout) : (s.modTout n f).s0 = s.s0 := rfl
@[simp] theorem State.modTout_disp (n : Fin 4) (f : Tout → Tout) : (s.modTout n f).disp = s.disp := rfl
@[simp] theorem State.modTout_cdc (n : Fin 4) (f : Tout → Tout) : (s.modTout n f).cdc = s.cdc := rfl

/-! ### modRing -/

@[simp] theorem State.modRing_ring (f : Ring → Ring) : (s.modRing f).ring = f s.ring := rfl
@[simp] theorem State.modRing_pending (f : Ring → Ring) : (s.modRing f).pending = s.pending := rfl
@[simp] theorem State.modRing_fresh (f : Ring → Ring) : (s.modRing f).fresh = s.fresh := rfl
@[simp] theorem State.modRing_power (f : Ring → Ring) : (s.modRing f).power = s.power := rfl
@[simp] theorem State.modRing_sec (f : Ring → Ring) : (s.modRing f).sec = s.sec := rfl
@[simp] theorem State.modRing_mp (f : Ring → Ring) : (s.modRing f).mp = s.mp := rfl
@[simp] theorem State.modRing_hw (f : Ring → Ring) : (s.modRing f).hw = s.hw := rfl
@[simp] theorem State.modRing_mb (f : Ring → Ring) : (s.modRing f).mb = s.mb := rfl
@[simp] theorem State.modRing_ports (f : Ring → Ring) : (s.modRing f).ports = s.ports := rfl
@[simp] theorem State.modRing_volts (f : Ring → Ring) : (s.modRing f).volts = s.volts := rfl
@[simp] theorem State.modRing_cal (f : Ring → Ring) : (s.modRing f).cal = s.cal := rfl
@[simp] theorem State.modRing_circuits (f : Ring → Ring) : (s.modRing f).circuits = s.circuits := rfl
@[simp] theorem State.modRing_cfs (f : Ring → Ring) : (s.modRing f).cfs = s.cfs := rfl
@[simp] theorem State.modRing_energy (f : Ring → Ring) : (s.modRing f).energy = s.energy := rfl
@[simp] theorem State.modRing_pqSets (f : Ring → Ring) : (s.modRing f).pqSets = s.pqSets := rfl
@[simp] theorem State.modRing_pq (f : Ring → Ring) : (s.modRing f).pq = s.pq := rfl
@[simp] theorem State.modRing_firn (f : Ring → Ring) : (s.modRing f).firn = s.firn := rfl
@[simp] theorem State.modRing_clk (f : Ring → Ring) : (s.modRing f).clk = s.clk := rfl
@[simp] theorem State.modRing_time (f : Ring → Ring) : (s.modRing f).time = s.time := rfl
@[simp] theorem State.modRing_plc (f : Ring → Ring) : (s.modRing f).plc = s.plc := rfl
@[simp] theorem State.modRing_aux (f : Ring → Ring) : (s.modRing f).aux = s.aux := rfl
@[simp] theorem State.modRing_s0 (f : Ring → Ring) : (s.modRing f).s0 = s.s0 := rfl
@[simp] theorem State.modRing_disp (f : Ring → Ring) : (s.modRing f).disp = s.disp := rfl
@[simp] theorem State.modRing_cdc (f : Ring → Ring) : (s.modRing f).cdc = s.cdc := rfl

/-! ### modPlc -/

@[simp] theorem State.modPlc_plc (f : Plc → Plc) : (s.modPlc f).plc = f s.plc := rfl
@[simp] theorem State.modPlc_pending (f : Plc → Plc) : (s.modPlc f).pending = s.pending := rfl
@[simp] theorem State.modPlc_fresh (f : Plc → Plc) : (s.modPlc f).fresh = s.fresh := rfl
@[simp] theorem State.modPlc_power (f : Plc → Plc) : (s.modPlc f).power = s.power := rfl
@[simp] theorem State.modPlc_sec (f : Plc → Plc) : (s.modPlc f).sec = s.sec := rfl
@[simp] theorem State.modPlc_mp (f : Plc → Plc) : (s.modPlc f).mp = s.mp := rfl
@[simp] theorem State.modPlc_hw (f : Plc → Plc) : (s.modPlc f).hw = s.hw := rfl
@[simp] theorem State.modPlc_mb (f : Plc → Plc) : (s.modPlc f).mb = s.mb := rfl
@[simp] theorem State.modPlc_ports (f : Plc → Plc) : (s.modPlc f).ports = s.ports := rfl
@[simp] theorem State.modPlc_volts (f : Plc → Plc) : (s.modPlc f).volts = s.volts := rfl
@[simp] theorem State.modPlc_cal (f : Plc → Plc) : (s.modPlc f).cal = s.cal := rfl
@[simp] theorem State.modPlc_circuits (f : Plc → Plc) : (s.modPlc f).circuits = s.circuits := rfl
@[simp] theorem State.modPlc_cfs (f : Plc → Plc) : (s.modPlc f).cfs = s.cfs := rfl
@[simp] theorem State.modPlc_energy (f : Plc → Plc) : (s.modPlc f).energy = s.energy := rfl
@[simp] theorem State.modPlc_pqSets (f : Plc → Plc) : (s.modPlc f).pqSets = s.pqSets := rfl
@[simp] theorem State.modPlc_pq (f : Plc → Plc) : (s.modPlc f).pq = s.pq := rfl
@[simp] theorem State.modPlc_firn (f : Plc → Plc) : (s.modPlc f).firn = s.firn := rfl
@[simp] theorem State.modPlc_clk (f : Plc → Plc) : (s.modPlc f).clk = s.clk := rfl
@[simp] theorem State.modPlc_time (f : Plc → Plc) : (s.modPlc f).time = s.time := rfl
@[simp] theorem State.modPlc_ring (f : Plc → Plc) : (s.modPlc f).ring = s.ring := rfl
@[simp] theorem State.modPlc_aux (f : Plc → Plc) : (s.modPlc f).aux = s.aux := rfl
@[simp] theorem State.modPlc_s0 (f : Plc → Plc) : (s.modPlc f).s0 = s.s0 := rfl
@[simp] theorem State.modPlc_disp (f : Plc → Plc) : (s.modPlc f).disp = s.disp := rfl
@[simp] theorem State.modPlc_cdc (f : Plc → Plc) : (s.modPlc f).cdc = s.cdc := rfl

/-! ### modNode -/

@[simp] theorem State.modNode_plc (i : Fin 240) (f : Node → Node) : (s.modNode i f).plc = { s.plc with nodes := vmod s.plc.nodes i f } := rfl
@[simp] theorem State.modNode_pending (i : Fin 240) (f : Node → Node) : (s.modNode i f).pending = s.pending := rfl
@[simp] theorem State.modNode_fresh (i : Fin 240) (f : Node → Node) : (s.modNode i f).fresh = s.fresh := rfl
@[simp] theorem State.modNode_power (i : Fin 240) (f : Node → Node) : (s.modNode i f).power = s.power := rfl
@[simp] theorem State.modNode_sec (i : Fin 240) (f : Node → Node) : (s.modNode i f).sec = s.sec := rfl
@[simp] theorem State.modNode_mp (i : Fin 240) (f : Node → Node) : (s.modNode i f).mp = s.mp := rfl
@[simp] theorem State.modNode_hw (i : Fin 240) (f : Node → Node) : (s.modNode i f).hw = s.hw := rfl
@[simp] theorem State.modNode_mb (i : Fin 240) (f : Node → Node) : (s.modNode i f).mb = s.mb := rfl
@[simp] theorem State.modNode_ports (i : Fin 240) (f : Node → Node) : (s.modNode i f).ports = s.ports := rfl
@[simp] theorem State.modNode_volts (i : Fin 240) (f : Node → Node) : (s.modNode i f).volts = s.volts := rfl
@[simp] theorem State.modNode_cal (i : Fin 240) (f : Node → Node) : (s.modNode i f).cal = s.cal := rfl
@[simp] theorem State.modNode_circuits (i : Fin 240) (f : Node → Node) : (s.modNode i f).circuits = s.circuits := rfl
@[simp] theorem State.modNode_cfs (i : Fin 240) (f : Node → Node) : (s.modNode i f).cfs = s.cfs := rfl
@[simp] theorem State.modNode_energy (i : Fin 240) (f : Node → Node) : (s.modNode i f).energy = s.energy := rfl
@[simp] theorem State.modNode_pqSets (i : Fin 240) (f : Node → Node) : (s.modNode i f).pqSets = s.pqSets := rfl
@[simp] theorem State.modNode_pq (i : Fin 240) (f : Node → Node) : (s.modNode i f).pq = s.pq := rfl
@[simp] theorem State.modNode_firn (i : Fin 240) (f : Node → Node) : (s.modNode i f).firn = s.firn := rfl
@[simp] theorem State.modNode_clk (i : Fin 240) (f : Node → Node) : (s.modNode i f).clk = s.clk := rfl
@[simp] theorem State.modNode_time (i : Fin 240) (f : Node → Node) : (s.modNode i f).time = s.time := rfl
@[simp] theorem State.modNode_ring (i : Fin 240) (f : Node → Node) : (s.modNode i f).ring = s.ring := rfl
@[simp] theorem State.modNode_aux (i : Fin 240) (f : Node → Node) : (s.modNode i f).aux = s.aux := rfl
@[simp] theorem State.modNode_s0 (i : Fin 240) (f : Node → Node) : (s.modNode i f).s0 = s.s0 := rfl
@[simp] theorem State.modNode_disp (i : Fin 240) (f : Node → Node) : (s.modNode i f).disp = s.disp := rfl
@[simp] theorem State.modNode_cdc (i : Fin 240) (f : Node → Node) : (s.modNode i f).cdc = s.cdc := rfl

/-! ### modAux -/

@[simp] theorem State.modAux_aux (f : Aux → Aux) : (s.modAux f).aux = f s.aux := rfl
@[simp] theorem State.modAux_pending (f : Aux → Aux) : (s.modAux f).pending = s.pending := rfl
@[simp] theorem State.modAux_fresh (f : Aux → Aux) : (s.modAux f).fresh = s.fresh := rfl
@[simp] theorem State.modAux_power (f : Aux → Aux) : (s.modAux f).power = s.power := rfl
@[simp] theorem State.modAux_sec (f : Aux → Aux) : (s.modAux f).sec = s.sec := rfl
@[simp] theorem State.modAux_mp (f : Aux → Aux) : (s.modAux f).mp = s.mp := rfl
@[simp] theorem State.modAux_hw (f : Aux → Aux) : (s.modAux f).hw = s.hw := rfl
@[simp] theorem State.modAux_mb (f : Aux → Aux) : (s.modAux f).mb = s.mb := rfl
@[simp] theorem State.modAux_ports (f : Aux → Aux) : (s.modAux f).ports = s.ports := rfl
@[simp] theorem State.modAux_volts (f : Aux → Aux) : (s.modAux f).volts = s.volts := rfl
@[simp] theorem State.modAux_cal (f : Aux → Aux) : (s.modAux f).cal = s.cal := rfl
@[simp] theorem State.modAux_circuits (f : Aux → Aux) : (s.modAux f).circuits = s.circuits := rfl
@[simp] theorem State.modAux_cfs (f : Aux → Aux) : (s.modAux f).cfs = s.cfs := rfl
@[simp] theorem State.modAux_energy (f : Aux → Aux) : (s.modAux f).energy = s.energy := rfl
@[simp] theorem State.modAux_pqSets (f : Aux → Aux) : (s.modAux f).pqSets = s.pqSets := rfl
@[simp] theorem State.modAux_pq (f : Aux → Aux) : (s.modAux f).pq = s.pq := rfl
@[simp] theorem State.modAux_firn (f : Aux → Aux) : (s.modAux f).firn = s.firn := rfl
@[simp] theorem State.modAux_clk (f : Aux → Aux) : (s.modAux f).clk = s.clk := rfl
@[simp] theorem State.modAux_time (f : Aux → Aux) : (s.modAux f).time = s.time := rfl
@[simp] theorem State.modAux_ring (f : Aux → Aux) : (s.modAux f).ring = s.ring := rfl
@[simp] theorem State.modAux_plc (f : Aux → Aux) : (s.modAux f).plc = s.plc := rfl
@[simp] theorem State.modAux_s0 (f : Aux → Aux) : (s.modAux f).s0 = s.s0 := rfl
@[simp] theorem State.modAux_disp (f : Aux → Aux) : (s.modAux f).disp = s.disp := rfl
@[simp] theorem State.modAux_cdc (f : Aux → Aux) : (s.modAux f).cdc = s.cdc := rfl

/-! ### modAuxIn -/

@[simp] theorem State.modAuxIn_aux (i : Fin 16) (f : AuxInput → AuxInput) : (s.modAuxIn i f).aux = { s.aux with inputs := vmod s.aux.inputs i f } := rfl
@[simp] theorem State.modAuxIn_pending (i : Fin 16) (f : AuxInput → AuxInput) : (s.modAuxIn i f).pending = s.pending := rfl
@[simp] theorem State.modAuxIn_fresh (i : Fin 16) (f : AuxInput → AuxInput) : (s.modAuxIn i f).fresh = s.fresh := rfl
@[simp] theorem State.modAuxIn_power (i : Fin 16) (f : AuxInput → AuxInput) : (s.modAuxIn i f).power = s.power := rfl
@[simp] theorem State.modAuxIn_sec (i : Fin 16) (f : AuxInput → AuxInput) : (s.modAuxIn i f).sec = s.sec := rfl
@[simp] theorem State.modAuxIn_mp (i : Fin 16) (f : AuxInput → AuxInput) : (s.modAuxIn i f).mp = s.mp := rfl
@[simp] theorem State.modAuxIn_hw (i : Fin 16) (f : AuxInput → AuxInput) : (s.modAuxIn i f).hw = s.hw := rfl
@[simp] theorem State.modAuxIn_mb (i : Fin 16) (f : AuxInput → AuxInput) : (s.modAuxIn i f).mb = s.mb := rfl
@[simp] theorem State.modAuxIn_ports (i : Fin 16) (f : AuxInput → AuxInput) : (s.modAuxIn i f).ports = s.ports := rfl
@[simp] theorem State.modAuxIn_volts (i : Fin 16) (f : AuxInput → AuxInput) : (s.modAuxIn i f).volts = s.volts := rfl
@[simp] theorem State.modAuxIn_cal (i : Fin 16) (f : AuxInput → AuxInput) : (s.modAuxIn i f).cal = s.cal := rfl
@[simp] theorem State.modAuxIn_circuits (i : Fin 16) (f : AuxInput → AuxInput) : (s.modAuxIn i f).circuits = s.circuits := rfl
@[simp] theorem State.modAuxIn_cfs (i : Fin 16) (f : AuxInput → AuxInput) : (s.modAuxIn i f).cfs = s.cfs := rfl
@[simp] theorem State.modAuxIn_energy (i : Fin 16) (f : AuxInput → AuxInput) : (s.modAuxIn i f).energy = s.energy := rfl
@[simp] theorem State.modAuxIn_pqSets (i : Fin 16) (f : AuxInput → AuxInput) : (s.modAuxIn i f).pqSets = s.pqSets := rfl
@[simp] theorem State.modAuxIn_pq (i : Fin 16) (f : AuxInput → AuxInput) : (s.modAuxIn i f).pq = s.pq := rfl
@[simp] theorem State.modAuxIn_firn (i : Fin 16) (f : AuxInput → AuxInput) : (s.modAuxIn i f).firn = s.firn := rfl
@[simp] theorem State.modAuxIn_clk (i : Fin 16) (f : AuxInput → AuxInput) : (s.modAuxIn i f).clk = s.clk := rfl
@[simp] theorem State.modAuxIn_time (i : Fin 16) (f : AuxInput → AuxInput) : (s.modAuxIn i f).time = s.time := rfl
@[simp] theorem State.modAuxIn_ring (i : Fin 16) (f : AuxInput → AuxInput) : (s.modAuxIn i f).ring = s.ring := rfl
@[simp] theorem State.modAuxIn_plc (i : Fin 16) (f : AuxInput → AuxInput) : (s.modAuxIn i f).plc = s.plc := rfl
@[simp] theorem State.modAuxIn_s0 (i : Fin 16) (f : AuxInput → AuxInput) : (s.modAuxIn i f).s0 = s.s0 := rfl
@[simp] theorem State.modAuxIn_disp (i : Fin 16) (f : AuxInput → AuxInput) : (s.modAuxIn i f).disp = s.disp := rfl
@[simp] theorem State.modAuxIn_cdc (i : Fin 16) (f : AuxInput → AuxInput) : (s.modAuxIn i f).cdc = s.cdc := rfl

/-! ### modS0 -/

@[simp] theorem State.modS0_s0 (i : Fin 8) (f : S0In → S0In) : (s.modS0 i f).s0 = vmod s.s0 i f := rfl
@[simp] theorem State.modS0_pending (i : Fin 8) (f : S0In → S0In) : (s.modS0 i f).pending = s.pending := rfl
@[simp] theorem State.modS0_fresh (i : Fin 8) (f : S0In → S0In) : (s.modS0 i f).fresh = s.fresh := rfl
@[simp] theorem State.modS0_power (i : Fin 8) (f : S0In → S0In) : (s.modS0 i f).power = s.power := rfl
@[simp] theorem State.modS0_sec (i : Fin 8) (f : S0In → S0In) : (s.modS0 i f).sec = s.sec := rfl
@[simp] theorem State.modS0_mp (i : Fin 8) (f : S0In → S0In) : (s.modS0 i f).mp = s.mp := rfl
@[simp] theorem State.modS0_hw (i : Fin 8) (f : S0In → S0In) : (s.modS0 i f).hw = s.hw := rfl
@[simp] theorem State.modS0_mb (i : Fin 8) (f : S0In → S0In) : (s.modS0 i f).mb = s.mb := rfl
@[simp] theorem State.modS0_ports (i : Fin 8) (f : S0In → S0In) : (s.modS0 i f).ports = s.ports := rfl
@[simp] theorem State.modS0_volts (i : Fin 8) (f : S0In → S0In) : (s.modS0 i f).volts = s.volts := rfl
@[simp] theorem State.modS0_cal (i : Fin 8) (f : S0In → S0In) : (s.modS0 i f).cal = s.cal := rfl
@[simp] theorem State.modS0_circuits (i : Fin 8) (f : S0In → S0In) : (s.modS0 i f).circuits = s.circuits := rfl
@[simp] theorem State.modS0_cfs (i : Fin 8) (f : S0In → S0In) : (s.modS0 i f).cfs = s.cfs := rfl
@[simp] theorem State.modS0_energy (i : Fin 8) (f : S0In → S0In) : (s.modS0 i f).energy = s.energy := rfl
@[simp] theorem State.modS0_pqSets (i : Fin 8) (f : S0In → S0In) : (s.modS0 i f).pqSets = s.pqSets := rfl
@[simp] theorem State.modS0_pq (i : Fin 8) (f : S0In → S0In) : (s.modS0 i f).pq = s.pq := rfl
@[simp] theorem State.modS0_firn (i : Fin 8) (f : S0In → S0In) : (s.modS0 i f).firn = s.firn := rfl
@[simp] theorem State.modS0_clk (i : Fin 8) (f : S0In → S0In) : (s.modS0 i f).clk = s.clk := rfl
@[simp] theorem State.modS0_time (i : Fin 8) (f : S0In → S0In) : (s.modS0 i f).time = s.time := rfl
@[simp] theorem State.modS0_ring (i : Fin 8) (f : S0In → S0In) : (s.modS0 i f).ring = s.ring := rfl
@[simp] theorem State.modS0_plc (i : Fin 8) (f : S0In → S0In) : (s.modS0 i f).plc = s.plc := rfl
@[simp] theorem State.modS0_aux (i : Fin 8) (f : S0In → S0In) : (s.modS0 i f).aux = s.aux := rfl
@[simp] theorem State.modS0_disp (i : Fin 8) (f : S0In → S0In) : (s.modS0 i f).disp = s.disp := rfl
@[simp] theorem State.modS0_cdc (i : Fin 8) (f : S0In → S0In) : (s.modS0 i f).cdc = s.cdc := rfl

/-! ### modDisp -/

@[simp] theorem State.modDisp_disp (f : Display → Display) : (s.modDisp f).disp = f s.disp := rfl
@[simp] theorem State.modDisp_pending (f : Display → Display) : (s.modDisp f).pending = s.pending := rfl
@[simp] theorem State.modDisp_fresh (f : Display → Display) : (s.modDisp f).fresh = s.fresh := rfl
@[simp] theorem State.modDisp_power (f : Display → Display) : (s.modDisp f).power = s.power := rfl
@[simp] theorem State.modDisp_sec (f : Display → Display) : (s.modDisp f).sec = s.sec := rfl
@[simp] theorem State.modDisp_mp (f : Display → Display) : (s.modDisp f).mp = s.mp := rfl
@[simp] theorem State.modDisp_hw (f : Display → Display) : (s.modDisp f).hw = s.hw := rfl
@[simp] theorem State.modDisp_mb (f : Display → Display) : (s.modDisp f).mb = s.mb := rfl
@[simp] theorem State.modDisp_ports (f : Display → Display) : (s.modDisp f).ports = s.ports := rfl
@[simp] theorem State.modDisp_volts (f : Display → Display) : (s.modDisp f).volts = s.volts := rfl
@[simp] theorem State.modDisp_cal (f : Display → Display) : (s.modDisp f).cal = s.cal := rfl
@[simp] theorem State.modDisp_circuits (f : Display → Display) : (s.modDisp f).circuits = s.circuits := rfl
@[simp] theorem State.modDisp_cfs (f : Display → Display) : (s.modDisp f).cfs = s.cfs := rfl
@[simp] theorem State.modDisp_energy (f : Display → Display) : (s.modDisp f).energy = s.energy := rfl
@[simp] theorem State.modDisp_pqSets (f : Display → Display) : (s.modDisp f).pqSets = s.pqSets := rfl
@[simp] theorem State.modDisp_pq (f : Display → Display) : (s.modDisp f).pq = s.pq := rfl
@[simp] theorem State.modDisp_firn (f : Display → Display) : (s.modDisp f).firn = s.firn := rfl
@[simp] theorem State.modDisp_clk (f : Display → Display) : (s.modDisp f).clk = s.clk := rfl
@[simp] theorem State.modDisp_time (f : Display → Display) : (s.modDisp f).time = s.time := rfl
@[simp] theorem State.modDisp_ring (f : Display → Display) : (s.modDisp f).ring = s.ring := rfl
@[simp] theorem State.modDisp_plc (f : Display → Display) : (s.modDisp f).plc = s.plc := rfl
@[simp] theorem State.modDisp_aux (f : Display → Display) : (s.modDisp f).aux = s.aux := rfl
@[simp] theorem State.modDisp_s0 (f : Display → Display) : (s.modDisp f).s0 = s.s0 := rfl
@[simp] theorem State.modDisp_cdc (f : Display → Display) : (s.modDisp f).cdc = s.cdc := rfl

/-! ### modCdc -/

@[simp] theorem State.modCdc_cdc (f : Cdc → Cdc) : (s.modCdc f).cdc = f s.cdc := rfl
@[simp] theorem State.modCdc_pending (f : Cdc → Cdc) : (s.modCdc f).pending = s.pending := rfl
@[simp] theorem State.modCdc_fresh (f : Cdc → Cdc) : (s.modCdc f).fresh = s.fresh := rfl
@[simp] theorem State.modCdc_power (f : Cdc → Cdc) : (s.modCdc f).power = s.power := rfl
@[simp] theorem State.modCdc_sec (f : Cdc → Cdc) : (s.modCdc f).sec = s.sec := rfl
@[simp] theorem State.modCdc_mp (f : Cdc → Cdc) : (s.modCdc f).mp = s.mp := rfl
@[simp] theorem State.modCdc_hw (f : Cdc → Cdc) : (s.modCdc f).hw = s.hw := rfl
@[simp] theorem State.modCdc_mb (f : Cdc → Cdc) : (s.modCdc f).mb = s.mb := rfl
@[simp] theorem State.modCdc_ports (f : Cdc → Cdc) : (s.modCdc f).ports = s.ports := rfl
@[simp] theorem State.modCdc_volts (f : Cdc → Cdc) : (s.modCdc f).volts = s.volts := rfl
@[simp] theorem State.modCdc_cal (f : Cdc → Cdc) : (s.modCdc f).cal = s.cal := rfl
@[simp] theorem State.modCdc_circuits (f : Cdc → Cdc) : (s.modCdc f).circuits = s.circuits := rfl
@[simp] theorem State.modCdc_cfs (f : Cdc → Cdc) : (s.modCdc f).cfs = s.cfs := rfl
@[simp] theorem State.modCdc_energy (f : Cdc → Cdc) : (s.modCdc f).energy = s.energy := rfl
@[simp] theorem State.modCdc_pqSets (f : Cdc → Cdc) : (s.modCdc f).pqSets = s.pqSets := rfl
@[simp] theorem State.modCdc_pq (f : Cdc → Cdc) : (s.modCdc f).pq = s.pq := rfl
@[simp] theorem State.modCdc_firn (f : Cdc → Cdc) : (s.modCdc f).firn = s.firn := rfl
@[simp] theorem State.modCdc_clk (f : Cdc → Cdc) : (s.modCdc f).clk = s.clk := rfl
@[simp] theorem State.modCdc_time (f : Cdc → Cdc) : (s.modCdc f).time = s.time := rfl
@[simp] theorem State.modCdc_ring (f : Cdc → Cdc) : (s.modCdc f).ring = s.ring := rfl
@[simp] theorem State.modCdc_plc (f : Cdc → Cdc) : (s.modCdc f).plc = s.plc := rfl
@[simp] theorem State.modCdc_aux (f : Cdc → Cdc) : (s.modCdc f).aux = s.aux := rfl
@[simp] theorem State.modCdc_s0 (f : Cdc → Cdc) : (s.modCdc f).s0 = s.s0 := rfl
@[simp] theorem State.modCdc_disp (f : Cdc → Cdc) : (s.modCdc f).disp = s.disp := rfl

/-! ### modPower -/

@[simp] theorem State.modPower_power (f : Power → Power) : (s.modPower f).power = f s.power := rfl
@[simp] theorem State.modPower_pending (f : Power → Power) : (s.modPower f).pending = s.pending := rfl
@[simp] theorem State.modPower_fresh (f : Power → Power) : (s.modPower f).fresh = s.fresh := rfl
@[simp] theorem State.modPower_sec (f : Power → Power) : (s.modPower f).sec = s.sec := rfl
@[simp] theorem State.modPower_mp (f : Power → Power) : (s.modPower f).mp = s.mp := rfl
@[simp] theorem State.modPower_hw (f : Power → Power) : (s.modPower f).hw = s.hw := rfl
@[simp] theorem State.modPower_mb (f : Power → Power) : (s.modPower f).mb = s.mb := rfl
@[simp] theorem State.modPower_ports (f : Power → Power) : (s.modPower f).ports = s.ports := rfl
@[simp] theorem State.modPower_volts (f : Power → Power) : (s.modPower f).volts = s.volts := rfl
@[simp] theorem State.modPower_cal (f : Power → Power) : (s.modPower f).cal = s.cal := rfl
@[simp] theorem State.modPower_circuits (f : Power → Power) : (s.modPower f).circuits = s.circuits := rfl
@[simp] theorem State.modPower_cfs (f : Power → Power) : (s.modPower f).cfs = s.cfs := rfl
@[simp] theorem State.modPower_energy (f : Power → Power) : (s.modPower f).energy = s.energy := rfl
@[simp] theorem State.modPower_pqSets (f : Power → Power) : (s.modPower f).pqSets = s.pqSets := rfl
@[simp] theorem State.modPower_pq (f : Power → Power) : (s.modPower f).pq = s.pq := rfl
@[simp] theorem State.modPower_firn (f : Power → Power) : (s.modPower f).firn = s.firn := rfl
@[simp] theorem State.modPower_clk (f : Power → Power) : (s.modPower f).clk = s.clk := rfl
@[simp] theorem State.modPower_time (f : Power → Power) : (s.modPower f).time = s.time := rfl
@[simp] theorem State.modPower_ring (f : Power → Power) : (s.modPower f).ring = s.ring := rfl
@[simp] theorem State.modPower_plc (f : Power → Power) : (s.modPower f).plc = s.plc := rfl
@[simp] theorem State.modPower_aux (f : Power → Power) : (s.modPower f).aux = s.aux := rfl
@[simp] theorem State.modPower_s0 (f : Power → Power) : (s.modPower f).s0 = s.s0 := rfl
@[simp] theorem State.modPower_disp (f : Power → Power) : (s.modPower f).disp = s.disp := rfl
@[simp] theorem State.modPower_cdc (f : Power → Power) : (s.modPower f).cdc = s.cdc := rfl

/-! ### Interrupt flags, events and free values -/

@[simp] theorem State.raise_hw (k : Nat) : (s.raise k).hw = { s.hw with irq := s.hw.irq ||| BitVec.ofNat 9 (2 ^ k) } := rfl
@[simp] theorem State.raise_pending (k : Nat) : (s.raise k).pending = s.pending := rfl
@[simp] theorem State.raise_fresh (k : Nat) : (s.raise k).fresh = s.fresh := rfl
@[simp] theorem State.raise_power (k : Nat) : (s.raise k).power = s.power := rfl
@[simp] theorem State.raise_sec (k : Nat) : (s.raise k).sec = s.sec := rfl
@[simp] theorem State.raise_mp (k : Nat) : (s.raise k).mp = s.mp := rfl
@[simp] theorem State.raise_mb (k : Nat) : (s.raise k).mb = s.mb := rfl
@[simp] theorem State.raise_ports (k : Nat) : (s.raise k).ports = s.ports := rfl
@[simp] theorem State.raise_volts (k : Nat) : (s.raise k).volts = s.volts := rfl
@[simp] theorem State.raise_cal (k : Nat) : (s.raise k).cal = s.cal := rfl
@[simp] theorem State.raise_circuits (k : Nat) : (s.raise k).circuits = s.circuits := rfl
@[simp] theorem State.raise_cfs (k : Nat) : (s.raise k).cfs = s.cfs := rfl
@[simp] theorem State.raise_energy (k : Nat) : (s.raise k).energy = s.energy := rfl
@[simp] theorem State.raise_pqSets (k : Nat) : (s.raise k).pqSets = s.pqSets := rfl
@[simp] theorem State.raise_pq (k : Nat) : (s.raise k).pq = s.pq := rfl
@[simp] theorem State.raise_firn (k : Nat) : (s.raise k).firn = s.firn := rfl
@[simp] theorem State.raise_clk (k : Nat) : (s.raise k).clk = s.clk := rfl
@[simp] theorem State.raise_time (k : Nat) : (s.raise k).time = s.time := rfl
@[simp] theorem State.raise_ring (k : Nat) : (s.raise k).ring = s.ring := rfl
@[simp] theorem State.raise_plc (k : Nat) : (s.raise k).plc = s.plc := rfl
@[simp] theorem State.raise_aux (k : Nat) : (s.raise k).aux = s.aux := rfl
@[simp] theorem State.raise_s0 (k : Nat) : (s.raise k).s0 = s.s0 := rfl
@[simp] theorem State.raise_disp (k : Nat) : (s.raise k).disp = s.disp := rfl
@[simp] theorem State.raise_cdc (k : Nat) : (s.raise k).cdc = s.cdc := rfl

@[simp] theorem State.postEvent_mp : s.postEvent.mp = { s.mp with events := s.mp.events + 1 } := rfl
@[simp] theorem State.postEvent_pending : s.postEvent.pending = s.pending := rfl
@[simp] theorem State.postEvent_fresh : s.postEvent.fresh = s.fresh := rfl
@[simp] theorem State.postEvent_power : s.postEvent.power = s.power := rfl
@[simp] theorem State.postEvent_sec : s.postEvent.sec = s.sec := rfl
@[simp] theorem State.postEvent_hw : s.postEvent.hw = s.hw := rfl
@[simp] theorem State.postEvent_mb : s.postEvent.mb = s.mb := rfl
@[simp] theorem State.postEvent_ports : s.postEvent.ports = s.ports := rfl
@[simp] theorem State.postEvent_volts : s.postEvent.volts = s.volts := rfl
@[simp] theorem State.postEvent_cal : s.postEvent.cal = s.cal := rfl
@[simp] theorem State.postEvent_circuits : s.postEvent.circuits = s.circuits := rfl
@[simp] theorem State.postEvent_cfs : s.postEvent.cfs = s.cfs := rfl
@[simp] theorem State.postEvent_energy : s.postEvent.energy = s.energy := rfl
@[simp] theorem State.postEvent_pqSets : s.postEvent.pqSets = s.pqSets := rfl
@[simp] theorem State.postEvent_pq : s.postEvent.pq = s.pq := rfl
@[simp] theorem State.postEvent_firn : s.postEvent.firn = s.firn := rfl
@[simp] theorem State.postEvent_clk : s.postEvent.clk = s.clk := rfl
@[simp] theorem State.postEvent_time : s.postEvent.time = s.time := rfl
@[simp] theorem State.postEvent_ring : s.postEvent.ring = s.ring := rfl
@[simp] theorem State.postEvent_plc : s.postEvent.plc = s.plc := rfl
@[simp] theorem State.postEvent_aux : s.postEvent.aux = s.aux := rfl
@[simp] theorem State.postEvent_s0 : s.postEvent.s0 = s.s0 := rfl
@[simp] theorem State.postEvent_disp : s.postEvent.disp = s.disp := rfl
@[simp] theorem State.postEvent_cdc : s.postEvent.cdc = s.cdc := rfl

@[simp] theorem State.draw_fst : s.draw.1 = s.fresh := rfl
@[simp] theorem State.draw_fresh : s.draw.2.fresh = s.fresh + 1 := rfl
@[simp] theorem State.draw_pending : s.draw.2.pending = s.pending := rfl
@[simp] theorem State.draw_power : s.draw.2.power = s.power := rfl
@[simp] theorem State.draw_sec : s.draw.2.sec = s.sec := rfl
@[simp] theorem State.draw_mp : s.draw.2.mp = s.mp := rfl
@[simp] theorem State.draw_hw : s.draw.2.hw = s.hw := rfl
@[simp] theorem State.draw_mb : s.draw.2.mb = s.mb := rfl
@[simp] theorem State.draw_ports : s.draw.2.ports = s.ports := rfl
@[simp] theorem State.draw_volts : s.draw.2.volts = s.volts := rfl
@[simp] theorem State.draw_cal : s.draw.2.cal = s.cal := rfl
@[simp] theorem State.draw_circuits : s.draw.2.circuits = s.circuits := rfl
@[simp] theorem State.draw_cfs : s.draw.2.cfs = s.cfs := rfl
@[simp] theorem State.draw_energy : s.draw.2.energy = s.energy := rfl
@[simp] theorem State.draw_pqSets : s.draw.2.pqSets = s.pqSets := rfl
@[simp] theorem State.draw_pq : s.draw.2.pq = s.pq := rfl
@[simp] theorem State.draw_firn : s.draw.2.firn = s.firn := rfl
@[simp] theorem State.draw_clk : s.draw.2.clk = s.clk := rfl
@[simp] theorem State.draw_time : s.draw.2.time = s.time := rfl
@[simp] theorem State.draw_ring : s.draw.2.ring = s.ring := rfl
@[simp] theorem State.draw_plc : s.draw.2.plc = s.plc := rfl
@[simp] theorem State.draw_aux : s.draw.2.aux = s.aux := rfl
@[simp] theorem State.draw_s0 : s.draw.2.s0 = s.s0 := rfl
@[simp] theorem State.draw_disp : s.draw.2.disp = s.disp := rfl
@[simp] theorem State.draw_cdc : s.draw.2.cdc = s.cdc := rfl

/-! ### Banks and lists of indexes -/

theorem vmod_get_self {α : Type} {n : Nat} (v : Vector α n) (i : Fin n) (f : α → α) : (vmod v i f)[i] = f v[i] := by
  simp [vmod]

theorem vmod_get_other {α : Type} {n : Nat} (v : Vector α n) (i j : Fin n) (f : α → α) (h : i ≠ j) : (vmod v i f)[j] = v[j] := by
  have : i.val ≠ j.val := fun e => h (Fin.ext e)
  simp [vmod, this]

/-- What every step of a fold keeps, the fold keeps. -/
theorem State.forEach_keeps {α β : Type} (g : State → β) (l : List α) (f : α → State → State) (h : ∀ a t, g (f a t) = g t) :
    g (s.forEach l f) = g s := by
  induction l generalizing s with
  | nil => rfl
  | cons a l ih => exact (ih (f a s)).trans (h a s)

@[simp] theorem State.forEach_pending {α : Type} (l : List α) (f : α → State → State) (h : ∀ a t, (f a t).pending = t.pending) :
    (s.forEach l f).pending = s.pending := s.forEach_keeps State.pending l f h
@[simp] theorem State.forEach_fresh {α : Type} (l : List α) (f : α → State → State) (h : ∀ a t, (f a t).fresh = t.fresh) :
    (s.forEach l f).fresh = s.fresh := s.forEach_keeps State.fresh l f h
@[simp] theorem State.forEach_power {α : Type} (l : List α) (f : α → State → State) (h : ∀ a t, (f a t).power = t.power) :
    (s.forEach l f).power = s.power := s.forEach_keeps State.power l f h
@[simp] theorem State.forEach_sec {α : Type} (l : List α) (f : α → State → State) (h : ∀ a t, (f a t).sec = t.sec) :
    (s.forEach l f).sec = s.sec := s.forEach_keeps State.sec l f h
@[simp] theorem State.forEach_mp {α : Type} (l : List α) (f : α → State → State) (h : ∀ a t, (f a t).mp = t.mp) :
    (s.forEach l f).mp = s.mp := s.forEach_keeps State.mp l f h
@[simp] theorem State.forEach_hw {α : Type} (l : List α) (f : α → State → State) (h : ∀ a t, (f a t).hw = t.hw) :
    (s.forEach l f).hw = s.hw := s.forEach_keeps State.hw l f h
@[simp] theorem State.forEach_mb {α : Type} (l : List α) (f : α → State → State) (h : ∀ a t, (f a t).mb = t.mb) :
    (s.forEach l f).mb = s.mb := s.forEach_keeps State.mb l f h
@[simp] theorem State.forEach_ports {α : Type} (l : List α) (f : α → State → State) (h : ∀ a t, (f a t).ports = t.ports) :
    (s.forEach l f).ports = s.ports := s.forEach_keeps State.ports l f h
@[simp] theorem State.forEach_volts {α : Type} (l : List α) (f : α → State → State) (h : ∀ a t, (f a t).volts = t.volts) :
    (s.forEach l f).volts = s.volts := s.forEach_keeps State.volts l f h
@[simp] theorem State.forEach_cal {α : Type} (l : List α) (f : α → State → State) (h : ∀ a t, (f a t).cal = t.cal) :
    (s.forEach l f).cal = s.cal := s.forEach_keeps State.cal l f h
@[simp] theorem State.forEach_circuits {α : Type} (l : List α) (f : α → State → State) (h : ∀ a t, (f a t).circuits = t.circuits) :
    (s.forEach l f).circuits = s.circuits := s.forEach_keeps State.circuits l f h
@[simp] theorem State.forEach_cfs {α : Type} (l : List α) (f : α → State → State) (h : ∀ a t, (f a t).cfs = t.cfs) :
    (s.forEach l f).cfs = s.cfs := s.forEach_keeps State.cfs l f h
@[simp] theorem State.forEach_energy {α : Type} (l : List α) (f : α → State → State) (h : ∀ a t, (f a t).energy = t.energy) :
    (s.forEach l f).energy = s.energy := s.forEach_keeps State.energy l f h
@[simp] theorem State.forEach_pqSets {α : Type} (l : List α) (f : α → State → State) (h : ∀ a t, (f a t).pqSets = t.pqSets) :
    (s.forEach l f).pqSets = s.pqSets := s.forEach_keeps State.pqSets l f h
@[simp] theorem State.forEach_pq {α : Type} (l : List α) (f : α → State → State) (h : ∀ a t, (f a t).pq = t.pq) :
    (s.forEach l f).pq = s.pq := s.forEach_keeps State.pq l f h
@[simp] theorem State.forEach_firn {α : Type} (l : List α) (f : α → State → State) (h : ∀ a t, (f a t).firn = t.firn) :
    (s.forEach l f).firn = s.firn := s.forEach_keeps State.firn l f h
@[simp] theorem State.forEach_clk {α : Type} (l : List α) (f : α → State → State) (h : ∀ a t, (f a t).clk = t.clk) :
    (s.forEach l f).clk = s.clk := s.forEach_keeps State.clk l f h
@[simp] theorem State.forEach_time {α : Type} (l : List α) (f : α → State → State) (h : ∀ a t, (f a t).time = t.time) :
    (s.forEach l f).time = s.time := s.forEach_keeps State.time l f h
@[simp] theorem State.forEach_ring {α : Type} (l : List α) (f : α → State → State) (h : ∀ a t, (f a t).ring = t.ring) :
    (s.forEach l f).ring = s.ring := s.forEach_keeps State.ring l f h
@[simp] theorem State.forEach_plc {α : Type} (l : List α) (f : α → State → State) (h : ∀ a t, (f a t).plc = t.plc) :
    (s.forEach l f).plc = s.plc := s.forEach_keeps State.plc l f h
@[simp] theorem State.forEach_aux {α : Type} (l : List α) (f : α → State → State) (h : ∀ a t, (f a t).aux = t.aux) :
    (s.forEach l f).aux = s.aux := s.forEach_keeps State.aux l f h
@[simp] theorem State.forEach_s0 {α : Type} (l : List α) (f : α → State → State) (h : ∀ a t, (f a t).s0 = t.s0) :
    (s.forEach l f).s0 = s.s0 := s.forEach_keeps State.s0 l f h
@[simp] theorem State.forEach_disp {α : Type} (l : List α) (f : α → State → State) (h : ∀ a t, (f a t).disp = t.disp) :
    (s.forEach l f).disp = s.disp := s.forEach_keeps State.disp l f h
@[simp] theorem State.forEach_cdc {α : Type} (l : List α) (f : α → State → State) (h : ∀ a t, (f a t).cdc = t.cdc) :
    (s.forEach l f).cdc = s.cdc := s.forEach_keeps State.cdc l f h

/-- A property that every step of a fold keeps holds after it. -/
theorem State.forEach_inv {α : Type} (P : State → Prop) (l : List α) (f : α → State → State) (h : ∀ a t, P t → P (f a t)) (hs : P s) :
    P (s.forEach l f) := by
  induction l generalizing s with
  | nil => exact hs
  | cons a l ih => exact ih (f a s) (h a s hs)

end Sys2Proof.Machine
end

