-- ==== Sys2Proof/Laws/Frames.lean ====
section
/-! SUPPORT. What the shared operations leave unchanged: one lemma per operation, with every part of State that it does not write. -/

namespace Sys2Proof.Machine

@[simp] theorem noteFrame_keeps (f : RxFrame) (s : State) :
    (noteFrame f s).pending = s.pending ∧ (noteFrame f s).fresh = s.fresh ∧ (noteFrame f s).power = s.power ∧ (noteFrame f s).sec = s.sec ∧
    (noteFrame f s).mp = s.mp ∧ (noteFrame f s).hw = s.hw ∧ (noteFrame f s).mb = s.mb ∧ (noteFrame f s).ports = s.ports ∧
    (noteFrame f s).volts = s.volts ∧ (noteFrame f s).cal = s.cal ∧ (noteFrame f s).circuits = s.circuits ∧ (noteFrame f s).cfs = s.cfs ∧
    (noteFrame f s).energy = s.energy ∧ (noteFrame f s).pqSets = s.pqSets ∧ (noteFrame f s).pq = s.pq ∧ (noteFrame f s).firn = s.firn ∧
    (noteFrame f s).clk = s.clk ∧ (noteFrame f s).time = s.time ∧ (noteFrame f s).plc = s.plc ∧ (noteFrame f s).aux = s.aux ∧
    (noteFrame f s).s0 = s.s0 ∧ (noteFrame f s).disp = s.disp ∧ (noteFrame f s).cdc = s.cdc := by
  refine ⟨?_, ?_, ?_, ?_, ?_, ?_, ?_, ?_, ?_, ?_, ?_, ?_, ?_, ?_, ?_, ?_, ?_, ?_, ?_, ?_, ?_, ?_, ?_⟩ <;>
    first | (simp [noteFrame]; done) | (unfold noteFrame; (repeat' split) <;> simp; done) | rfl

@[simp] theorem countFrameErr_keeps (s : State) :
    (countFrameErr s).pending = s.pending ∧ (countFrameErr s).fresh = s.fresh ∧ (countFrameErr s).power = s.power ∧
    (countFrameErr s).sec = s.sec ∧ (countFrameErr s).mp = s.mp ∧ (countFrameErr s).hw = s.hw ∧ (countFrameErr s).mb = s.mb ∧
    (countFrameErr s).ports = s.ports ∧ (countFrameErr s).volts = s.volts ∧ (countFrameErr s).cal = s.cal ∧
    (countFrameErr s).circuits = s.circuits ∧ (countFrameErr s).cfs = s.cfs ∧ (countFrameErr s).energy = s.energy ∧
    (countFrameErr s).pqSets = s.pqSets ∧ (countFrameErr s).pq = s.pq ∧ (countFrameErr s).firn = s.firn ∧ (countFrameErr s).clk = s.clk ∧
    (countFrameErr s).time = s.time ∧ (countFrameErr s).plc = s.plc ∧ (countFrameErr s).aux = s.aux ∧ (countFrameErr s).s0 = s.s0 ∧
    (countFrameErr s).disp = s.disp ∧ (countFrameErr s).cdc = s.cdc := by
  refine ⟨?_, ?_, ?_, ?_, ?_, ?_, ?_, ?_, ?_, ?_, ?_, ?_, ?_, ?_, ?_, ?_, ?_, ?_, ?_, ?_, ?_, ?_, ?_⟩ <;>
    first | (simp [countFrameErr]; done) | (unfold countFrameErr; (repeat' split) <;> simp; done) | rfl

@[simp] theorem sendFrame_keeps (ty : BitVec 4) (dst : BitVec 6) (payload : List Byte) (tag : Option (Fin 64)) (s : State) :
    (sendFrame ty dst payload tag s).pending = s.pending ∧ (sendFrame ty dst payload tag s).fresh = s.fresh ∧
    (sendFrame ty dst payload tag s).power = s.power ∧ (sendFrame ty dst payload tag s).sec = s.sec ∧
    (sendFrame ty dst payload tag s).mp = s.mp ∧ (sendFrame ty dst payload tag s).hw = s.hw ∧ (sendFrame ty dst payload tag s).mb = s.mb ∧
    (sendFrame ty dst payload tag s).ports = s.ports ∧ (sendFrame ty dst payload tag s).volts = s.volts ∧
    (sendFrame ty dst payload tag s).cal = s.cal ∧ (sendFrame ty dst payload tag s).circuits = s.circuits ∧
    (sendFrame ty dst payload tag s).cfs = s.cfs ∧ (sendFrame ty dst payload tag s).energy = s.energy ∧
    (sendFrame ty dst payload tag s).pqSets = s.pqSets ∧ (sendFrame ty dst payload tag s).pq = s.pq ∧
    (sendFrame ty dst payload tag s).firn = s.firn ∧ (sendFrame ty dst payload tag s).clk = s.clk ∧
    (sendFrame ty dst payload tag s).time = s.time ∧ (sendFrame ty dst payload tag s).plc = s.plc ∧
    (sendFrame ty dst payload tag s).aux = s.aux ∧ (sendFrame ty dst payload tag s).s0 = s.s0 ∧
    (sendFrame ty dst payload tag s).disp = s.disp ∧ (sendFrame ty dst payload tag s).cdc = s.cdc := by
  refine ⟨?_, ?_, ?_, ?_, ?_, ?_, ?_, ?_, ?_, ?_, ?_, ?_, ?_, ?_, ?_, ?_, ?_, ?_, ?_, ?_, ?_, ?_, ?_⟩ <;>
    first | (simp [sendFrame]; done) | (unfold sendFrame; (repeat' split) <;> simp; done) | rfl

@[simp] theorem sendOn_keeps (g : RingSel) (ty : BitVec 4) (dst : BitVec 6) (payload : List Byte) (s : State) :
    (sendOn g ty dst payload s).pending = s.pending ∧ (sendOn g ty dst payload s).fresh = s.fresh ∧
    (sendOn g ty dst payload s).power = s.power ∧ (sendOn g ty dst payload s).sec = s.sec ∧ (sendOn g ty dst payload s).mp = s.mp ∧
    (sendOn g ty dst payload s).hw = s.hw ∧ (sendOn g ty dst payload s).mb = s.mb ∧ (sendOn g ty dst payload s).ports = s.ports ∧
    (sendOn g ty dst payload s).volts = s.volts ∧ (sendOn g ty dst payload s).cal = s.cal ∧
    (sendOn g ty dst payload s).circuits = s.circuits ∧ (sendOn g ty dst payload s).cfs = s.cfs ∧
    (sendOn g ty dst payload s).energy = s.energy ∧ (sendOn g ty dst payload s).pqSets = s.pqSets ∧ (sendOn g ty dst payload s).pq = s.pq ∧
    (sendOn g ty dst payload s).firn = s.firn ∧ (sendOn g ty dst payload s).clk = s.clk ∧ (sendOn g ty dst payload s).time = s.time ∧
    (sendOn g ty dst payload s).plc = s.plc ∧ (sendOn g ty dst payload s).aux = s.aux ∧ (sendOn g ty dst payload s).s0 = s.s0 ∧
    (sendOn g ty dst payload s).disp = s.disp ∧ (sendOn g ty dst payload s).cdc = s.cdc := by
  refine ⟨?_, ?_, ?_, ?_, ?_, ?_, ?_, ?_, ?_, ?_, ?_, ?_, ?_, ?_, ?_, ?_, ?_, ?_, ?_, ?_, ?_, ?_, ?_⟩ <;>
    first | (simp [sendOn]; done) | (unfold sendOn; (repeat' split) <;> simp; done) | rfl

@[simp] theorem sendBulk_keeps (dst origin : BitVec 6) (bs : List Byte) (s : State) :
    (sendBulk dst origin bs s).pending = s.pending ∧ (sendBulk dst origin bs s).fresh = s.fresh ∧ (sendBulk dst origin bs s).power = s.power
    ∧ (sendBulk dst origin bs s).sec = s.sec ∧ (sendBulk dst origin bs s).mp = s.mp ∧ (sendBulk dst origin bs s).hw = s.hw ∧
    (sendBulk dst origin bs s).mb = s.mb ∧ (sendBulk dst origin bs s).ports = s.ports ∧ (sendBulk dst origin bs s).volts = s.volts ∧
    (sendBulk dst origin bs s).cal = s.cal ∧ (sendBulk dst origin bs s).circuits = s.circuits ∧ (sendBulk dst origin bs s).cfs = s.cfs ∧
    (sendBulk dst origin bs s).energy = s.energy ∧ (sendBulk dst origin bs s).pqSets = s.pqSets ∧ (sendBulk dst origin bs s).pq = s.pq ∧
    (sendBulk dst origin bs s).firn = s.firn ∧ (sendBulk dst origin bs s).clk = s.clk ∧ (sendBulk dst origin bs s).time = s.time ∧
    (sendBulk dst origin bs s).plc = s.plc ∧ (sendBulk dst origin bs s).aux = s.aux ∧ (sendBulk dst origin bs s).s0 = s.s0 ∧
    (sendBulk dst origin bs s).disp = s.disp ∧ (sendBulk dst origin bs s).cdc = s.cdc := by
  refine ⟨?_, ?_, ?_, ?_, ?_, ?_, ?_, ?_, ?_, ?_, ?_, ?_, ?_, ?_, ?_, ?_, ?_, ?_, ?_, ?_, ?_, ?_, ?_⟩ <;>
    first | (simp [sendBulk]; done) | (unfold sendBulk; (repeat' split) <;> simp; done) | rfl

@[simp] theorem hear_keeps (f : RxFrame) (s : State) :
    (hear f s).pending = s.pending ∧ (hear f s).fresh = s.fresh ∧ (hear f s).power = s.power ∧
    (hear f s).sec = s.sec ∧ (hear f s).mp = s.mp ∧ (hear f s).hw = s.hw ∧ (hear f s).mb = s.mb ∧
    (hear f s).ports = s.ports ∧ (hear f s).volts = s.volts ∧ (hear f s).cal = s.cal ∧
    (hear f s).circuits = s.circuits ∧ (hear f s).cfs = s.cfs ∧ (hear f s).energy = s.energy ∧
    (hear f s).pqSets = s.pqSets ∧ (hear f s).pq = s.pq ∧ (hear f s).firn = s.firn ∧ (hear f s).clk = s.clk ∧
    (hear f s).time = s.time ∧ (hear f s).plc = s.plc ∧ (hear f s).aux = s.aux ∧ (hear f s).s0 = s.s0 ∧
    (hear f s).disp = s.disp ∧ (hear f s).cdc = s.cdc := by
  refine ⟨?_, ?_, ?_, ?_, ?_, ?_, ?_, ?_, ?_, ?_, ?_, ?_, ?_, ?_, ?_, ?_, ?_, ?_, ?_, ?_, ?_, ?_, ?_⟩ <;>
    first | (simp [hear]; done) | (unfold hear; (repeat' split) <;> simp; done) | rfl

@[simp] theorem setMirror_keeps (i : Fin 61) (bs : List Byte) (s : State) :
    (setMirror i bs s).pending = s.pending ∧ (setMirror i bs s).fresh = s.fresh ∧ (setMirror i bs s).power = s.power ∧
    (setMirror i bs s).sec = s.sec ∧ (setMirror i bs s).mp = s.mp ∧ (setMirror i bs s).hw = s.hw ∧ (setMirror i bs s).mb = s.mb ∧
    (setMirror i bs s).ports = s.ports ∧ (setMirror i bs s).volts = s.volts ∧ (setMirror i bs s).cal = s.cal ∧
    (setMirror i bs s).circuits = s.circuits ∧ (setMirror i bs s).cfs = s.cfs ∧ (setMirror i bs s).energy = s.energy ∧
    (setMirror i bs s).pqSets = s.pqSets ∧ (setMirror i bs s).pq = s.pq ∧ (setMirror i bs s).firn = s.firn ∧ (setMirror i bs s).clk = s.clk
    ∧ (setMirror i bs s).time = s.time ∧ (setMirror i bs s).plc = s.plc ∧ (setMirror i bs s).aux = s.aux ∧ (setMirror i bs s).s0 = s.s0 ∧
    (setMirror i bs s).disp = s.disp ∧ (setMirror i bs s).cdc = s.cdc := by
  refine ⟨?_, ?_, ?_, ?_, ?_, ?_, ?_, ?_, ?_, ?_, ?_, ?_, ?_, ?_, ?_, ?_, ?_, ?_, ?_, ?_, ?_, ?_, ?_⟩ <;>
    first | (simp [setMirror]; done) | (unfold setMirror; (repeat' split) <;> simp; done) | rfl

@[simp] theorem place_keeps (r : List Byte) (s : State) :
    (place r s).pending = s.pending ∧ (place r s).fresh = s.fresh ∧ (place r s).power = s.power ∧ (place r s).sec = s.sec ∧
    (place r s).mp = s.mp ∧ (place r s).ports = s.ports ∧ (place r s).volts = s.volts ∧ (place r s).cal = s.cal ∧
    (place r s).circuits = s.circuits ∧ (place r s).cfs = s.cfs ∧ (place r s).energy = s.energy ∧ (place r s).pqSets = s.pqSets ∧
    (place r s).pq = s.pq ∧ (place r s).firn = s.firn ∧ (place r s).clk = s.clk ∧ (place r s).time = s.time ∧ (place r s).ring = s.ring ∧
    (place r s).plc = s.plc ∧ (place r s).aux = s.aux ∧ (place r s).s0 = s.s0 ∧ (place r s).disp = s.disp ∧ (place r s).cdc = s.cdc := by
  refine ⟨?_, ?_, ?_, ?_, ?_, ?_, ?_, ?_, ?_, ?_, ?_, ?_, ?_, ?_, ?_, ?_, ?_, ?_, ?_, ?_, ?_, ?_⟩ <;>
    first | (simp [place]; done) | (unfold place; (repeat' split) <;> simp; done) | rfl

@[simp] theorem refuse_keeps (d : List Byte) (st : Status) (s : State) :
    (refuse d st s).pending = s.pending ∧ (refuse d st s).fresh = s.fresh ∧ (refuse d st s).power = s.power ∧ (refuse d st s).sec = s.sec ∧
    (refuse d st s).mp = s.mp ∧ (refuse d st s).ports = s.ports ∧ (refuse d st s).volts = s.volts ∧ (refuse d st s).cal = s.cal ∧
    (refuse d st s).circuits = s.circuits ∧ (refuse d st s).cfs = s.cfs ∧ (refuse d st s).energy = s.energy ∧
    (refuse d st s).pqSets = s.pqSets ∧ (refuse d st s).pq = s.pq ∧ (refuse d st s).firn = s.firn ∧ (refuse d st s).clk = s.clk ∧
    (refuse d st s).time = s.time ∧ (refuse d st s).ring = s.ring ∧ (refuse d st s).plc = s.plc ∧ (refuse d st s).aux = s.aux ∧
    (refuse d st s).s0 = s.s0 ∧ (refuse d st s).disp = s.disp ∧ (refuse d st s).cdc = s.cdc := by
  refine ⟨?_, ?_, ?_, ?_, ?_, ?_, ?_, ?_, ?_, ?_, ?_, ?_, ?_, ?_, ?_, ?_, ?_, ?_, ?_, ?_, ?_, ?_⟩ <;>
    first | (simp [refuse]; done) | (unfold refuse; (repeat' split) <;> simp; done) | rfl

@[simp] theorem freeTag_keeps (t : Fin 64) (s : State) :
    (freeTag t s).pending = s.pending ∧ (freeTag t s).fresh = s.fresh ∧ (freeTag t s).power = s.power ∧ (freeTag t s).sec = s.sec ∧
    (freeTag t s).mp = s.mp ∧ (freeTag t s).hw = s.hw ∧ (freeTag t s).ports = s.ports ∧ (freeTag t s).volts = s.volts ∧
    (freeTag t s).cal = s.cal ∧ (freeTag t s).circuits = s.circuits ∧ (freeTag t s).cfs = s.cfs ∧ (freeTag t s).energy = s.energy ∧
    (freeTag t s).pqSets = s.pqSets ∧ (freeTag t s).pq = s.pq ∧ (freeTag t s).firn = s.firn ∧ (freeTag t s).clk = s.clk ∧
    (freeTag t s).time = s.time ∧ (freeTag t s).ring = s.ring ∧ (freeTag t s).plc = s.plc ∧ (freeTag t s).aux = s.aux ∧
    (freeTag t s).s0 = s.s0 ∧ (freeTag t s).disp = s.disp ∧ (freeTag t s).cdc = s.cdc := by
  refine ⟨?_, ?_, ?_, ?_, ?_, ?_, ?_, ?_, ?_, ?_, ?_, ?_, ?_, ?_, ?_, ?_, ?_, ?_, ?_, ?_, ?_, ?_, ?_⟩ <;>
    first | (simp [freeTag]; done) | (unfold freeTag; (repeat' split) <;> simp; done) | rfl

@[simp] theorem addYield_keeps (t : Fin 64) (y : Byte) (s : State) :
    (addYield t y s).pending = s.pending ∧ (addYield t y s).fresh = s.fresh ∧ (addYield t y s).power = s.power ∧
    (addYield t y s).sec = s.sec ∧ (addYield t y s).mp = s.mp ∧ (addYield t y s).hw = s.hw ∧ (addYield t y s).ports = s.ports ∧
    (addYield t y s).volts = s.volts ∧ (addYield t y s).cal = s.cal ∧ (addYield t y s).circuits = s.circuits ∧ (addYield t y s).cfs = s.cfs
    ∧ (addYield t y s).energy = s.energy ∧ (addYield t y s).pqSets = s.pqSets ∧ (addYield t y s).pq = s.pq ∧ (addYield t y s).firn = s.firn
    ∧ (addYield t y s).clk = s.clk ∧ (addYield t y s).time = s.time ∧ (addYield t y s).ring = s.ring ∧ (addYield t y s).plc = s.plc ∧
    (addYield t y s).aux = s.aux ∧ (addYield t y s).s0 = s.s0 ∧ (addYield t y s).disp = s.disp ∧ (addYield t y s).cdc = s.cdc := by
  refine ⟨?_, ?_, ?_, ?_, ?_, ?_, ?_, ?_, ?_, ?_, ?_, ?_, ?_, ?_, ?_, ?_, ?_, ?_, ?_, ?_, ?_, ?_, ?_⟩ <;>
    first | (simp [addYield]; done) | (unfold addYield; (repeat' split) <;> simp; done) | rfl

@[simp] theorem setCmd_keeps (t : Fin 64) (f : Cmd → Cmd) (s : State) :
    (setCmd t f s).pending = s.pending ∧ (setCmd t f s).fresh = s.fresh ∧ (setCmd t f s).power = s.power ∧ (setCmd t f s).sec = s.sec ∧
    (setCmd t f s).mp = s.mp ∧ (setCmd t f s).hw = s.hw ∧ (setCmd t f s).ports = s.ports ∧ (setCmd t f s).volts = s.volts ∧
    (setCmd t f s).cal = s.cal ∧ (setCmd t f s).circuits = s.circuits ∧ (setCmd t f s).cfs = s.cfs ∧ (setCmd t f s).energy = s.energy ∧
    (setCmd t f s).pqSets = s.pqSets ∧ (setCmd t f s).pq = s.pq ∧ (setCmd t f s).firn = s.firn ∧ (setCmd t f s).clk = s.clk ∧
    (setCmd t f s).time = s.time ∧ (setCmd t f s).ring = s.ring ∧ (setCmd t f s).plc = s.plc ∧ (setCmd t f s).aux = s.aux ∧
    (setCmd t f s).s0 = s.s0 ∧ (setCmd t f s).disp = s.disp ∧ (setCmd t f s).cdc = s.cdc := by
  refine ⟨?_, ?_, ?_, ?_, ?_, ?_, ?_, ?_, ?_, ?_, ?_, ?_, ?_, ?_, ?_, ?_, ?_, ?_, ?_, ?_, ?_, ?_, ?_⟩ <;>
    first | (simp [setCmd]; done) | (unfold setCmd; (repeat' split) <;> simp; done) | rfl

@[simp] theorem setBulk_keeps (b : BulkState) (s : State) :
    (setBulk b s).pending = s.pending ∧ (setBulk b s).fresh = s.fresh ∧ (setBulk b s).power = s.power ∧ (setBulk b s).sec = s.sec ∧
    (setBulk b s).mp = s.mp ∧ (setBulk b s).hw = s.hw ∧ (setBulk b s).ports = s.ports ∧ (setBulk b s).volts = s.volts ∧
    (setBulk b s).cal = s.cal ∧ (setBulk b s).circuits = s.circuits ∧ (setBulk b s).cfs = s.cfs ∧ (setBulk b s).energy = s.energy ∧
    (setBulk b s).pqSets = s.pqSets ∧ (setBulk b s).pq = s.pq ∧ (setBulk b s).firn = s.firn ∧ (setBulk b s).clk = s.clk ∧
    (setBulk b s).time = s.time ∧ (setBulk b s).ring = s.ring ∧ (setBulk b s).plc = s.plc ∧ (setBulk b s).aux = s.aux ∧
    (setBulk b s).s0 = s.s0 ∧ (setBulk b s).disp = s.disp ∧ (setBulk b s).cdc = s.cdc := by
  refine ⟨?_, ?_, ?_, ?_, ?_, ?_, ?_, ?_, ?_, ?_, ?_, ?_, ?_, ?_, ?_, ?_, ?_, ?_, ?_, ?_, ?_, ?_, ?_⟩ <;>
    first | (simp [setBulk]; done) | (unfold setBulk; (repeat' split) <;> simp; done) | rfl

@[simp] theorem bulkAnswered_keeps (t : Fin 64) (s : State) :
    (bulkAnswered t s).pending = s.pending ∧ (bulkAnswered t s).fresh = s.fresh ∧ (bulkAnswered t s).power = s.power ∧
    (bulkAnswered t s).sec = s.sec ∧ (bulkAnswered t s).mp = s.mp ∧ (bulkAnswered t s).hw = s.hw ∧ (bulkAnswered t s).ports = s.ports ∧
    (bulkAnswered t s).volts = s.volts ∧ (bulkAnswered t s).cal = s.cal ∧ (bulkAnswered t s).circuits = s.circuits ∧
    (bulkAnswered t s).cfs = s.cfs ∧ (bulkAnswered t s).energy = s.energy ∧ (bulkAnswered t s).pqSets = s.pqSets ∧
    (bulkAnswered t s).pq = s.pq ∧ (bulkAnswered t s).firn = s.firn ∧ (bulkAnswered t s).clk = s.clk ∧ (bulkAnswered t s).time = s.time ∧
    (bulkAnswered t s).ring = s.ring ∧ (bulkAnswered t s).plc = s.plc ∧ (bulkAnswered t s).aux = s.aux ∧ (bulkAnswered t s).s0 = s.s0 ∧
    (bulkAnswered t s).disp = s.disp ∧ (bulkAnswered t s).cdc = s.cdc := by
  refine ⟨?_, ?_, ?_, ?_, ?_, ?_, ?_, ?_, ?_, ?_, ?_, ?_, ?_, ?_, ?_, ?_, ?_, ?_, ?_, ?_, ?_, ?_, ?_⟩ <;>
    first | (simp [bulkAnswered]; done) | (unfold bulkAnswered; (repeat' split) <;> simp; done) | rfl

@[simp] theorem putBulk_keeps (bs : List Byte) (s : State) :
    (putBulk bs s).pending = s.pending ∧ (putBulk bs s).fresh = s.fresh ∧ (putBulk bs s).power = s.power ∧ (putBulk bs s).sec = s.sec ∧
    (putBulk bs s).mp = s.mp ∧ (putBulk bs s).hw = s.hw ∧ (putBulk bs s).ports = s.ports ∧ (putBulk bs s).volts = s.volts ∧
    (putBulk bs s).cal = s.cal ∧ (putBulk bs s).circuits = s.circuits ∧ (putBulk bs s).cfs = s.cfs ∧ (putBulk bs s).energy = s.energy ∧
    (putBulk bs s).pqSets = s.pqSets ∧ (putBulk bs s).pq = s.pq ∧ (putBulk bs s).firn = s.firn ∧ (putBulk bs s).clk = s.clk ∧
    (putBulk bs s).time = s.time ∧ (putBulk bs s).ring = s.ring ∧ (putBulk bs s).plc = s.plc ∧ (putBulk bs s).aux = s.aux ∧
    (putBulk bs s).s0 = s.s0 ∧ (putBulk bs s).disp = s.disp ∧ (putBulk bs s).cdc = s.cdc := by
  refine ⟨?_, ?_, ?_, ?_, ?_, ?_, ?_, ?_, ?_, ?_, ?_, ?_, ?_, ?_, ?_, ?_, ?_, ?_, ?_, ?_, ?_, ?_, ?_⟩ <;>
    first | (simp [putBulk]; done) | (unfold putBulk; (repeat' split) <;> simp; done) | rfl

@[simp] theorem answer_keeps (t : Fin 64) (st : Status) (payload bulk : List Byte) (s : State) :
    (answer t st payload bulk s).pending = s.pending ∧ (answer t st payload bulk s).power = s.power ∧
    (answer t st payload bulk s).sec = s.sec ∧ (answer t st payload bulk s).mp = s.mp ∧ (answer t st payload bulk s).ports = s.ports ∧
    (answer t st payload bulk s).volts = s.volts ∧ (answer t st payload bulk s).cal = s.cal ∧
    (answer t st payload bulk s).circuits = s.circuits ∧ (answer t st payload bulk s).cfs = s.cfs ∧
    (answer t st payload bulk s).energy = s.energy ∧ (answer t st payload bulk s).pqSets = s.pqSets ∧ (answer t st payload bulk s).pq = s.pq
    ∧ (answer t st payload bulk s).firn = s.firn ∧ (answer t st payload bulk s).clk = s.clk ∧ (answer t st payload bulk s).time = s.time ∧
    (answer t st payload bulk s).plc = s.plc ∧ (answer t st payload bulk s).aux = s.aux ∧ (answer t st payload bulk s).s0 = s.s0 ∧
    (answer t st payload bulk s).disp = s.disp ∧ (answer t st payload bulk s).cdc = s.cdc := by
  refine ⟨?_, ?_, ?_, ?_, ?_, ?_, ?_, ?_, ?_, ?_, ?_, ?_, ?_, ?_, ?_, ?_, ?_, ?_, ?_, ?_⟩ <;>
    first | (simp [answer]; done) | (unfold answer; (repeat' split) <;> simp; done) | rfl

@[simp] theorem answerHw_keeps (t : Fin 64) (st : Status) (s : State) :
    (answerHw t st s).pending = s.pending ∧ (answerHw t st s).power = s.power ∧ (answerHw t st s).sec = s.sec ∧ (answerHw t st s).mp = s.mp
    ∧ (answerHw t st s).ports = s.ports ∧ (answerHw t st s).volts = s.volts ∧ (answerHw t st s).cal = s.cal ∧
    (answerHw t st s).circuits = s.circuits ∧ (answerHw t st s).cfs = s.cfs ∧ (answerHw t st s).energy = s.energy ∧
    (answerHw t st s).pqSets = s.pqSets ∧ (answerHw t st s).pq = s.pq ∧ (answerHw t st s).firn = s.firn ∧ (answerHw t st s).clk = s.clk ∧
    (answerHw t st s).time = s.time ∧ (answerHw t st s).plc = s.plc ∧ (answerHw t st s).aux = s.aux ∧ (answerHw t st s).s0 = s.s0 ∧
    (answerHw t st s).disp = s.disp ∧ (answerHw t st s).cdc = s.cdc := by
  refine ⟨?_, ?_, ?_, ?_, ?_, ?_, ?_, ?_, ?_, ?_, ?_, ?_, ?_, ?_, ?_, ?_, ?_, ?_, ?_, ?_⟩ <;>
    first | (simp [answerHw]; done) | (unfold answerHw; (repeat' split) <;> simp; done) | rfl

@[simp] theorem releaseSent_keeps (t : Fin 64) (s : State) :
    (releaseSent t s).pending = s.pending ∧ (releaseSent t s).fresh = s.fresh ∧ (releaseSent t s).power = s.power ∧
    (releaseSent t s).sec = s.sec ∧ (releaseSent t s).mp = s.mp ∧ (releaseSent t s).hw = s.hw ∧ (releaseSent t s).ports = s.ports ∧
    (releaseSent t s).volts = s.volts ∧ (releaseSent t s).cal = s.cal ∧ (releaseSent t s).circuits = s.circuits ∧
    (releaseSent t s).cfs = s.cfs ∧ (releaseSent t s).energy = s.energy ∧ (releaseSent t s).pqSets = s.pqSets ∧ (releaseSent t s).pq = s.pq
    ∧ (releaseSent t s).firn = s.firn ∧ (releaseSent t s).clk = s.clk ∧ (releaseSent t s).time = s.time ∧ (releaseSent t s).ring = s.ring ∧
    (releaseSent t s).plc = s.plc ∧ (releaseSent t s).aux = s.aux ∧ (releaseSent t s).s0 = s.s0 ∧ (releaseSent t s).disp = s.disp ∧
    (releaseSent t s).cdc = s.cdc := by
  refine ⟨?_, ?_, ?_, ?_, ?_, ?_, ?_, ?_, ?_, ?_, ?_, ?_, ?_, ?_, ?_, ?_, ?_, ?_, ?_, ?_, ?_, ?_, ?_⟩ <;>
    first | (simp [releaseSent]; done) | (unfold releaseSent; (repeat' split) <;> simp; done) | rfl

@[simp] theorem slotTaken_keeps (s : State) :
    (slotTaken s).pending = s.pending ∧ (slotTaken s).fresh = s.fresh ∧ (slotTaken s).power = s.power ∧ (slotTaken s).sec = s.sec ∧
    (slotTaken s).mp = s.mp ∧ (slotTaken s).mb = s.mb ∧ (slotTaken s).ports = s.ports ∧ (slotTaken s).volts = s.volts ∧
    (slotTaken s).cal = s.cal ∧ (slotTaken s).circuits = s.circuits ∧ (slotTaken s).cfs = s.cfs ∧ (slotTaken s).energy = s.energy ∧
    (slotTaken s).pqSets = s.pqSets ∧ (slotTaken s).pq = s.pq ∧ (slotTaken s).firn = s.firn ∧ (slotTaken s).clk = s.clk ∧
    (slotTaken s).time = s.time ∧ (slotTaken s).ring = s.ring ∧ (slotTaken s).plc = s.plc ∧ (slotTaken s).aux = s.aux ∧
    (slotTaken s).s0 = s.s0 ∧ (slotTaken s).disp = s.disp ∧ (slotTaken s).cdc = s.cdc := by
  refine ⟨?_, ?_, ?_, ?_, ?_, ?_, ?_, ?_, ?_, ?_, ?_, ?_, ?_, ?_, ?_, ?_, ?_, ?_, ?_, ?_, ?_, ?_, ?_⟩ <;>
    first | (simp [slotTaken]; done) | (unfold slotTaken; (repeat' split) <;> simp; done) | rfl

@[simp] theorem sendCommand_keeps (t : Fin 64) (d : List Byte) (s : State) :
    (sendCommand t d s).pending = s.pending ∧ (sendCommand t d s).fresh = s.fresh ∧ (sendCommand t d s).power = s.power ∧
    (sendCommand t d s).sec = s.sec ∧ (sendCommand t d s).mp = s.mp ∧ (sendCommand t d s).hw = s.hw ∧ (sendCommand t d s).mb = s.mb ∧
    (sendCommand t d s).ports = s.ports ∧ (sendCommand t d s).volts = s.volts ∧ (sendCommand t d s).cal = s.cal ∧
    (sendCommand t d s).circuits = s.circuits ∧ (sendCommand t d s).cfs = s.cfs ∧ (sendCommand t d s).energy = s.energy ∧
    (sendCommand t d s).pqSets = s.pqSets ∧ (sendCommand t d s).pq = s.pq ∧ (sendCommand t d s).firn = s.firn ∧
    (sendCommand t d s).clk = s.clk ∧ (sendCommand t d s).time = s.time ∧ (sendCommand t d s).plc = s.plc ∧ (sendCommand t d s).aux = s.aux
    ∧ (sendCommand t d s).s0 = s.s0 ∧ (sendCommand t d s).disp = s.disp ∧ (sendCommand t d s).cdc = s.cdc := by
  refine ⟨?_, ?_, ?_, ?_, ?_, ?_, ?_, ?_, ?_, ?_, ?_, ?_, ?_, ?_, ?_, ?_, ?_, ?_, ?_, ?_, ?_, ?_, ?_⟩ <;>
    first | (simp [sendCommand]; done) | (unfold sendCommand; (repeat' split) <;> simp; done) | rfl

@[simp] theorem dbErr_keeps (s : State) :
    (dbErr s).pending = s.pending ∧ (dbErr s).fresh = s.fresh ∧ (dbErr s).power = s.power ∧ (dbErr s).sec = s.sec ∧ (dbErr s).mp = s.mp ∧
    (dbErr s).mb = s.mb ∧ (dbErr s).ports = s.ports ∧ (dbErr s).volts = s.volts ∧ (dbErr s).cal = s.cal ∧ (dbErr s).circuits = s.circuits ∧
    (dbErr s).cfs = s.cfs ∧ (dbErr s).energy = s.energy ∧ (dbErr s).pqSets = s.pqSets ∧ (dbErr s).pq = s.pq ∧ (dbErr s).firn = s.firn ∧
    (dbErr s).clk = s.clk ∧ (dbErr s).time = s.time ∧ (dbErr s).ring = s.ring ∧ (dbErr s).plc = s.plc ∧ (dbErr s).aux = s.aux ∧
    (dbErr s).s0 = s.s0 ∧ (dbErr s).disp = s.disp ∧ (dbErr s).cdc = s.cdc := by
  refine ⟨?_, ?_, ?_, ?_, ?_, ?_, ?_, ?_, ?_, ?_, ?_, ?_, ?_, ?_, ?_, ?_, ?_, ?_, ?_, ?_, ?_, ?_, ?_⟩ <;>
    first | (simp [dbErr]; done) | (unfold dbErr; (repeat' split) <;> simp; done) | rfl

@[simp] theorem writeCmdPi_keeps (v : Byte) (s : State) :
    (writeCmdPi v s).pending = s.pending ∧ (writeCmdPi v s).fresh = s.fresh ∧ (writeCmdPi v s).power = s.power ∧
    (writeCmdPi v s).sec = s.sec ∧ (writeCmdPi v s).mp = s.mp ∧ (writeCmdPi v s).mb = s.mb ∧ (writeCmdPi v s).ports = s.ports ∧
    (writeCmdPi v s).volts = s.volts ∧ (writeCmdPi v s).cal = s.cal ∧ (writeCmdPi v s).circuits = s.circuits ∧ (writeCmdPi v s).cfs = s.cfs
    ∧ (writeCmdPi v s).energy = s.energy ∧ (writeCmdPi v s).pqSets = s.pqSets ∧ (writeCmdPi v s).pq = s.pq ∧ (writeCmdPi v s).firn = s.firn
    ∧ (writeCmdPi v s).clk = s.clk ∧ (writeCmdPi v s).time = s.time ∧ (writeCmdPi v s).ring = s.ring ∧ (writeCmdPi v s).plc = s.plc ∧
    (writeCmdPi v s).aux = s.aux ∧ (writeCmdPi v s).s0 = s.s0 ∧ (writeCmdPi v s).disp = s.disp ∧ (writeCmdPi v s).cdc = s.cdc := by
  refine ⟨?_, ?_, ?_, ?_, ?_, ?_, ?_, ?_, ?_, ?_, ?_, ?_, ?_, ?_, ?_, ?_, ?_, ?_, ?_, ?_, ?_, ?_, ?_⟩ <;>
    first | (simp [writeCmdPi]; done) | (unfold writeCmdPi; (repeat' split) <;> simp; done) | rfl

@[simp] theorem flushTag_keeps (started queued : Status) (t : Fin 64) (s : State) :
    (flushTag started queued t s).pending = s.pending ∧ (flushTag started queued t s).power = s.power ∧
    (flushTag started queued t s).sec = s.sec ∧ (flushTag started queued t s).mp = s.mp ∧ (flushTag started queued t s).ports = s.ports ∧
    (flushTag started queued t s).volts = s.volts ∧ (flushTag started queued t s).cal = s.cal ∧
    (flushTag started queued t s).circuits = s.circuits ∧ (flushTag started queued t s).cfs = s.cfs ∧
    (flushTag started queued t s).energy = s.energy ∧ (flushTag started queued t s).pqSets = s.pqSets ∧
    (flushTag started queued t s).pq = s.pq ∧ (flushTag started queued t s).firn = s.firn ∧ (flushTag started queued t s).clk = s.clk ∧
    (flushTag started queued t s).time = s.time ∧ (flushTag started queued t s).plc = s.plc ∧ (flushTag started queued t s).aux = s.aux ∧
    (flushTag started queued t s).s0 = s.s0 ∧ (flushTag started queued t s).disp = s.disp ∧ (flushTag started queued t s).cdc = s.cdc := by
  refine ⟨?_, ?_, ?_, ?_, ?_, ?_, ?_, ?_, ?_, ?_, ?_, ?_, ?_, ?_, ?_, ?_, ?_, ?_, ?_, ?_⟩ <;>
    first | (simp [flushTag]; done) | (unfold flushTag; (repeat' split) <;> simp; done) | rfl

@[simp] theorem flushTags_keeps (started queued : Status) (keep : Option (Fin 64)) (s : State) :
    (flushTags started queued keep s).pending = s.pending ∧ (flushTags started queued keep s).power = s.power ∧
    (flushTags started queued keep s).sec = s.sec ∧ (flushTags started queued keep s).mp = s.mp ∧
    (flushTags started queued keep s).ports = s.ports ∧ (flushTags started queued keep s).volts = s.volts ∧
    (flushTags started queued keep s).cal = s.cal ∧ (flushTags started queued keep s).circuits = s.circuits ∧
    (flushTags started queued keep s).cfs = s.cfs ∧ (flushTags started queued keep s).energy = s.energy ∧
    (flushTags started queued keep s).pqSets = s.pqSets ∧ (flushTags started queued keep s).pq = s.pq ∧
    (flushTags started queued keep s).clk = s.clk ∧ (flushTags started queued keep s).time = s.time ∧
    (flushTags started queued keep s).plc = s.plc ∧ (flushTags started queued keep s).aux = s.aux ∧
    (flushTags started queued keep s).s0 = s.s0 ∧ (flushTags started queued keep s).disp = s.disp ∧
    (flushTags started queued keep s).cdc = s.cdc := by
  refine ⟨?_, ?_, ?_, ?_, ?_, ?_, ?_, ?_, ?_, ?_, ?_, ?_, ?_, ?_, ?_, ?_, ?_, ?_, ?_⟩ <;>
    first | (simp [flushTags]; done) | (unfold flushTags; (repeat' split) <;> simp; done) | rfl

@[simp] theorem voidNonces_keeps (s : State) :
    (voidNonces s).pending = s.pending ∧ (voidNonces s).fresh = s.fresh ∧ (voidNonces s).power = s.power ∧ (voidNonces s).mp = s.mp ∧
    (voidNonces s).hw = s.hw ∧ (voidNonces s).mb = s.mb ∧ (voidNonces s).ports = s.ports ∧ (voidNonces s).volts = s.volts ∧
    (voidNonces s).cal = s.cal ∧ (voidNonces s).circuits = s.circuits ∧ (voidNonces s).cfs = s.cfs ∧ (voidNonces s).energy = s.energy ∧
    (voidNonces s).pqSets = s.pqSets ∧ (voidNonces s).pq = s.pq ∧ (voidNonces s).firn = s.firn ∧ (voidNonces s).clk = s.clk ∧
    (voidNonces s).time = s.time ∧ (voidNonces s).ring = s.ring ∧ (voidNonces s).plc = s.plc ∧ (voidNonces s).aux = s.aux ∧
    (voidNonces s).s0 = s.s0 ∧ (voidNonces s).disp = s.disp ∧ (voidNonces s).cdc = s.cdc := by
  refine ⟨?_, ?_, ?_, ?_, ?_, ?_, ?_, ?_, ?_, ?_, ?_, ?_, ?_, ?_, ?_, ?_, ?_, ?_, ?_, ?_, ?_, ?_, ?_⟩ <;>
    first | (simp [voidNonces]; done) | (unfold voidNonces; (repeat' split) <;> simp; done) | rfl

@[simp] theorem dropDebug_keeps (s : State) :
    (dropDebug s).pending = s.pending ∧ (dropDebug s).fresh = s.fresh ∧ (dropDebug s).power = s.power ∧ (dropDebug s).mp = s.mp ∧
    (dropDebug s).mb = s.mb ∧ (dropDebug s).ports = s.ports ∧ (dropDebug s).volts = s.volts ∧ (dropDebug s).cal = s.cal ∧
    (dropDebug s).circuits = s.circuits ∧ (dropDebug s).cfs = s.cfs ∧ (dropDebug s).energy = s.energy ∧ (dropDebug s).pqSets = s.pqSets ∧
    (dropDebug s).pq = s.pq ∧ (dropDebug s).firn = s.firn ∧ (dropDebug s).clk = s.clk ∧ (dropDebug s).time = s.time ∧
    (dropDebug s).ring = s.ring ∧ (dropDebug s).plc = s.plc ∧ (dropDebug s).aux = s.aux ∧ (dropDebug s).s0 = s.s0 ∧
    (dropDebug s).disp = s.disp ∧ (dropDebug s).cdc = s.cdc := by
  refine ⟨?_, ?_, ?_, ?_, ?_, ?_, ?_, ?_, ?_, ?_, ?_, ?_, ?_, ?_, ?_, ?_, ?_, ?_, ?_, ?_, ?_, ?_⟩ <;>
    first | (simp [dropDebug]; done) | (unfold dropDebug; (repeat' split) <;> simp; done) | rfl

@[simp] theorem mpResetTxns_keeps (s : State) :
    (mpResetTxns s).pending = s.pending ∧ (mpResetTxns s).fresh = s.fresh ∧ (mpResetTxns s).power = s.power ∧ (mpResetTxns s).sec = s.sec ∧
    (mpResetTxns s).mp = s.mp ∧ (mpResetTxns s).hw = s.hw ∧ (mpResetTxns s).mb = s.mb ∧ (mpResetTxns s).ports = s.ports ∧
    (mpResetTxns s).volts = s.volts ∧ (mpResetTxns s).circuits = s.circuits ∧ (mpResetTxns s).cfs = s.cfs ∧
    (mpResetTxns s).energy = s.energy ∧ (mpResetTxns s).pqSets = s.pqSets ∧ (mpResetTxns s).pq = s.pq ∧ (mpResetTxns s).firn = s.firn ∧
    (mpResetTxns s).clk = s.clk ∧ (mpResetTxns s).time = s.time ∧ (mpResetTxns s).ring = s.ring ∧ (mpResetTxns s).plc = s.plc ∧
    (mpResetTxns s).aux = s.aux ∧ (mpResetTxns s).s0 = s.s0 ∧ (mpResetTxns s).disp = s.disp ∧ (mpResetTxns s).cdc = s.cdc := by
  refine ⟨?_, ?_, ?_, ?_, ?_, ?_, ?_, ?_, ?_, ?_, ?_, ?_, ?_, ?_, ?_, ?_, ?_, ?_, ?_, ?_, ?_, ?_, ?_⟩ <;>
    first | (simp [mpResetTxns]; done) | (unfold mpResetTxns; (repeat' split) <;> simp; done) | rfl

@[simp] theorem clearSwap_keeps (s : State) :
    (clearSwap s).pending = s.pending ∧ (clearSwap s).fresh = s.fresh ∧ (clearSwap s).power = s.power ∧ (clearSwap s).sec = s.sec ∧
    (clearSwap s).mb = s.mb ∧ (clearSwap s).ports = s.ports ∧ (clearSwap s).volts = s.volts ∧ (clearSwap s).cal = s.cal ∧
    (clearSwap s).circuits = s.circuits ∧ (clearSwap s).cfs = s.cfs ∧ (clearSwap s).energy = s.energy ∧ (clearSwap s).pqSets = s.pqSets ∧
    (clearSwap s).pq = s.pq ∧ (clearSwap s).firn = s.firn ∧ (clearSwap s).clk = s.clk ∧ (clearSwap s).time = s.time ∧
    (clearSwap s).ring = s.ring ∧ (clearSwap s).plc = s.plc ∧ (clearSwap s).aux = s.aux ∧ (clearSwap s).s0 = s.s0 ∧
    (clearSwap s).disp = s.disp ∧ (clearSwap s).cdc = s.cdc := by
  refine ⟨?_, ?_, ?_, ?_, ?_, ?_, ?_, ?_, ?_, ?_, ?_, ?_, ?_, ?_, ?_, ?_, ?_, ?_, ?_, ?_, ?_, ?_⟩ <;>
    first | (simp [clearSwap]; done) | (unfold clearSwap; (repeat' split) <;> simp; done) | rfl

@[simp] theorem modReq_keeps (id : Nat) (f : StoreReq → StoreReq) (s : State) :
    (modReq id f s).pending = s.pending ∧ (modReq id f s).fresh = s.fresh ∧ (modReq id f s).power = s.power ∧ (modReq id f s).sec = s.sec ∧
    (modReq id f s).mp = s.mp ∧ (modReq id f s).hw = s.hw ∧ (modReq id f s).mb = s.mb ∧ (modReq id f s).ports = s.ports ∧
    (modReq id f s).volts = s.volts ∧ (modReq id f s).cal = s.cal ∧ (modReq id f s).circuits = s.circuits ∧ (modReq id f s).cfs = s.cfs ∧
    (modReq id f s).energy = s.energy ∧ (modReq id f s).pqSets = s.pqSets ∧ (modReq id f s).pq = s.pq ∧ (modReq id f s).clk = s.clk ∧
    (modReq id f s).time = s.time ∧ (modReq id f s).ring = s.ring ∧ (modReq id f s).plc = s.plc ∧ (modReq id f s).aux = s.aux ∧
    (modReq id f s).s0 = s.s0 ∧ (modReq id f s).disp = s.disp ∧ (modReq id f s).cdc = s.cdc := by
  refine ⟨?_, ?_, ?_, ?_, ?_, ?_, ?_, ?_, ?_, ?_, ?_, ?_, ?_, ?_, ?_, ?_, ?_, ?_, ?_, ?_, ?_, ?_, ?_⟩ <;>
    first | (simp [modReq]; done) | (unfold modReq; (repeat' split) <;> simp; done) | rfl

@[simp] theorem dropReq_keeps (id : Nat) (s : State) :
    (dropReq id s).pending = s.pending ∧ (dropReq id s).fresh = s.fresh ∧ (dropReq id s).power = s.power ∧ (dropReq id s).sec = s.sec ∧
    (dropReq id s).mp = s.mp ∧ (dropReq id s).hw = s.hw ∧ (dropReq id s).mb = s.mb ∧ (dropReq id s).ports = s.ports ∧
    (dropReq id s).volts = s.volts ∧ (dropReq id s).cal = s.cal ∧ (dropReq id s).circuits = s.circuits ∧ (dropReq id s).cfs = s.cfs ∧
    (dropReq id s).energy = s.energy ∧ (dropReq id s).pqSets = s.pqSets ∧ (dropReq id s).pq = s.pq ∧ (dropReq id s).clk = s.clk ∧
    (dropReq id s).time = s.time ∧ (dropReq id s).ring = s.ring ∧ (dropReq id s).plc = s.plc ∧ (dropReq id s).aux = s.aux ∧
    (dropReq id s).s0 = s.s0 ∧ (dropReq id s).disp = s.disp ∧ (dropReq id s).cdc = s.cdc := by
  refine ⟨?_, ?_, ?_, ?_, ?_, ?_, ?_, ?_, ?_, ?_, ?_, ?_, ?_, ?_, ?_, ?_, ?_, ?_, ?_, ?_, ?_, ?_, ?_⟩ <;>
    first | (simp [dropReq]; done) | (unfold dropReq; (repeat' split) <;> simp; done) | rfl

@[simp] theorem answerReq_keeps (r : StoreReq) (st : Status) (payload : List Byte) (s : State) :
    (answerReq r st payload s).pending = s.pending ∧ (answerReq r st payload s).power = s.power ∧ (answerReq r st payload s).sec = s.sec ∧
    (answerReq r st payload s).mp = s.mp ∧ (answerReq r st payload s).ports = s.ports ∧ (answerReq r st payload s).volts = s.volts ∧
    (answerReq r st payload s).cal = s.cal ∧ (answerReq r st payload s).circuits = s.circuits ∧ (answerReq r st payload s).cfs = s.cfs ∧
    (answerReq r st payload s).energy = s.energy ∧ (answerReq r st payload s).pqSets = s.pqSets ∧ (answerReq r st payload s).pq = s.pq ∧
    (answerReq r st payload s).firn = s.firn ∧ (answerReq r st payload s).clk = s.clk ∧ (answerReq r st payload s).time = s.time ∧
    (answerReq r st payload s).plc = s.plc ∧ (answerReq r st payload s).aux = s.aux ∧ (answerReq r st payload s).s0 = s.s0 ∧
    (answerReq r st payload s).disp = s.disp ∧ (answerReq r st payload s).cdc = s.cdc := by
  refine ⟨?_, ?_, ?_, ?_, ?_, ?_, ?_, ?_, ?_, ?_, ?_, ?_, ?_, ?_, ?_, ?_, ?_, ?_, ?_, ?_⟩ <;>
    first | (simp [answerReq]; done) | (unfold answerReq; (repeat' split) <;> simp; done) | rfl

@[simp] theorem pushReply_keeps (st : Status) (s : State) :
    (pushReply st s).pending = s.pending ∧ (pushReply st s).fresh = s.fresh ∧ (pushReply st s).power = s.power ∧
    (pushReply st s).sec = s.sec ∧ (pushReply st s).mp = s.mp ∧ (pushReply st s).hw = s.hw ∧ (pushReply st s).mb = s.mb ∧
    (pushReply st s).ports = s.ports ∧ (pushReply st s).volts = s.volts ∧ (pushReply st s).cal = s.cal ∧
    (pushReply st s).circuits = s.circuits ∧ (pushReply st s).cfs = s.cfs ∧ (pushReply st s).energy = s.energy ∧
    (pushReply st s).pqSets = s.pqSets ∧ (pushReply st s).pq = s.pq ∧ (pushReply st s).firn = s.firn ∧ (pushReply st s).clk = s.clk ∧
    (pushReply st s).time = s.time ∧ (pushReply st s).plc = s.plc ∧ (pushReply st s).aux = s.aux ∧ (pushReply st s).s0 = s.s0 ∧
    (pushReply st s).disp = s.disp ∧ (pushReply st s).cdc = s.cdc := by
  refine ⟨?_, ?_, ?_, ?_, ?_, ?_, ?_, ?_, ?_, ?_, ?_, ?_, ?_, ?_, ?_, ?_, ?_, ?_, ?_, ?_, ?_, ?_, ?_⟩ <;>
    first | (simp [pushReply]; done) | (unfold pushReply; (repeat' split) <;> simp; done) | rfl

@[simp] theorem modMember_keeps (id page : Nat) (f : Member → Member) (s : State) :
    (modMember id page f s).pending = s.pending ∧ (modMember id page f s).fresh = s.fresh ∧ (modMember id page f s).power = s.power ∧
    (modMember id page f s).sec = s.sec ∧ (modMember id page f s).mp = s.mp ∧ (modMember id page f s).hw = s.hw ∧
    (modMember id page f s).mb = s.mb ∧ (modMember id page f s).ports = s.ports ∧ (modMember id page f s).volts = s.volts ∧
    (modMember id page f s).cal = s.cal ∧ (modMember id page f s).circuits = s.circuits ∧ (modMember id page f s).cfs = s.cfs ∧
    (modMember id page f s).energy = s.energy ∧ (modMember id page f s).pqSets = s.pqSets ∧ (modMember id page f s).pq = s.pq ∧
    (modMember id page f s).clk = s.clk ∧ (modMember id page f s).time = s.time ∧ (modMember id page f s).ring = s.ring ∧
    (modMember id page f s).plc = s.plc ∧ (modMember id page f s).aux = s.aux ∧ (modMember id page f s).s0 = s.s0 ∧
    (modMember id page f s).disp = s.disp ∧ (modMember id page f s).cdc = s.cdc := by
  refine ⟨?_, ?_, ?_, ?_, ?_, ?_, ?_, ?_, ?_, ?_, ?_, ?_, ?_, ?_, ?_, ?_, ?_, ?_, ?_, ?_, ?_, ?_, ?_⟩ <;>
    first | (simp [modMember]; done) | (unfold modMember; (repeat' split) <;> simp; done) | rfl

@[simp] theorem countStall_keeps (r : StoreReq) (s : State) :
    (countStall r s).pending = s.pending ∧ (countStall r s).power = s.power ∧ (countStall r s).sec = s.sec ∧ (countStall r s).mp = s.mp ∧
    (countStall r s).hw = s.hw ∧ (countStall r s).ports = s.ports ∧ (countStall r s).volts = s.volts ∧ (countStall r s).cal = s.cal ∧
    (countStall r s).circuits = s.circuits ∧ (countStall r s).cfs = s.cfs ∧ (countStall r s).energy = s.energy ∧
    (countStall r s).pqSets = s.pqSets ∧ (countStall r s).pq = s.pq ∧ (countStall r s).clk = s.clk ∧ (countStall r s).time = s.time ∧
    (countStall r s).ring = s.ring ∧ (countStall r s).plc = s.plc ∧ (countStall r s).aux = s.aux ∧ (countStall r s).s0 = s.s0 ∧
    (countStall r s).disp = s.disp ∧ (countStall r s).cdc = s.cdc := by
  refine ⟨?_, ?_, ?_, ?_, ?_, ?_, ?_, ?_, ?_, ?_, ?_, ?_, ?_, ?_, ?_, ?_, ?_, ?_, ?_, ?_, ?_⟩ <;>
    first | (simp [countStall]; done) | (unfold countStall; (repeat' split) <;> simp; done) | rfl

@[simp] theorem beginWait_keeps (r : StoreReq) (m : Member) (s : State) :
    (beginWait r m s).pending = s.pending ∧ (beginWait r m s).fresh = s.fresh ∧ (beginWait r m s).power = s.power ∧
    (beginWait r m s).sec = s.sec ∧ (beginWait r m s).mp = s.mp ∧ (beginWait r m s).hw = s.hw ∧ (beginWait r m s).ports = s.ports ∧
    (beginWait r m s).volts = s.volts ∧ (beginWait r m s).cal = s.cal ∧ (beginWait r m s).circuits = s.circuits ∧
    (beginWait r m s).cfs = s.cfs ∧ (beginWait r m s).energy = s.energy ∧ (beginWait r m s).pqSets = s.pqSets ∧
    (beginWait r m s).pq = s.pq ∧ (beginWait r m s).clk = s.clk ∧ (beginWait r m s).time = s.time ∧ (beginWait r m s).ring = s.ring ∧
    (beginWait r m s).plc = s.plc ∧ (beginWait r m s).aux = s.aux ∧ (beginWait r m s).s0 = s.s0 ∧ (beginWait r m s).disp = s.disp ∧
    (beginWait r m s).cdc = s.cdc := by
  refine ⟨?_, ?_, ?_, ?_, ?_, ?_, ?_, ?_, ?_, ?_, ?_, ?_, ?_, ?_, ?_, ?_, ?_, ?_, ?_, ?_, ?_, ?_⟩ <;>
    first | (simp [beginWait]; done) | (unfold beginWait; (repeat' split) <;> simp; done) | rfl

@[simp] theorem endWait_keeps (r : StoreReq) (m : Member) (s : State) :
    (endWait r m s).pending = s.pending ∧ (endWait r m s).power = s.power ∧ (endWait r m s).sec = s.sec ∧ (endWait r m s).mp = s.mp ∧
    (endWait r m s).hw = s.hw ∧ (endWait r m s).mb = s.mb ∧ (endWait r m s).ports = s.ports ∧ (endWait r m s).volts = s.volts ∧
    (endWait r m s).cal = s.cal ∧ (endWait r m s).circuits = s.circuits ∧ (endWait r m s).cfs = s.cfs ∧ (endWait r m s).energy = s.energy ∧
    (endWait r m s).pqSets = s.pqSets ∧ (endWait r m s).pq = s.pq ∧ (endWait r m s).clk = s.clk ∧ (endWait r m s).time = s.time ∧
    (endWait r m s).ring = s.ring ∧ (endWait r m s).plc = s.plc ∧ (endWait r m s).aux = s.aux ∧ (endWait r m s).s0 = s.s0 ∧
    (endWait r m s).disp = s.disp ∧ (endWait r m s).cdc = s.cdc := by
  refine ⟨?_, ?_, ?_, ?_, ?_, ?_, ?_, ?_, ?_, ?_, ?_, ?_, ?_, ?_, ?_, ?_, ?_, ?_, ?_, ?_, ?_, ?_⟩ <;>
    first | (simp [endWait]; done) | (unfold endWait; (repeat' split) <;> simp; done) | rfl

@[simp] theorem countDispStall_keeps (r : StoreReq) (p : Nat) (s : State) :
    (countDispStall r p s).pending = s.pending ∧ (countDispStall r p s).fresh = s.fresh ∧ (countDispStall r p s).power = s.power ∧
    (countDispStall r p s).sec = s.sec ∧ (countDispStall r p s).mp = s.mp ∧ (countDispStall r p s).hw = s.hw ∧
    (countDispStall r p s).mb = s.mb ∧ (countDispStall r p s).ports = s.ports ∧ (countDispStall r p s).volts = s.volts ∧
    (countDispStall r p s).cal = s.cal ∧ (countDispStall r p s).circuits = s.circuits ∧ (countDispStall r p s).cfs = s.cfs ∧
    (countDispStall r p s).energy = s.energy ∧ (countDispStall r p s).pqSets = s.pqSets ∧ (countDispStall r p s).pq = s.pq ∧
    (countDispStall r p s).clk = s.clk ∧ (countDispStall r p s).time = s.time ∧ (countDispStall r p s).ring = s.ring ∧
    (countDispStall r p s).plc = s.plc ∧ (countDispStall r p s).aux = s.aux ∧ (countDispStall r p s).s0 = s.s0 ∧
    (countDispStall r p s).disp = s.disp ∧ (countDispStall r p s).cdc = s.cdc := by
  refine ⟨?_, ?_, ?_, ?_, ?_, ?_, ?_, ?_, ?_, ?_, ?_, ?_, ?_, ?_, ?_, ?_, ?_, ?_, ?_, ?_, ?_, ?_, ?_⟩ <;>
    first | (simp [countDispStall]; done) | (unfold countDispStall; (repeat' split) <;> simp; done) | rfl

@[simp] theorem takeAsym_keeps (s : State) :
    (takeAsym s).pending = s.pending ∧ (takeAsym s).fresh = s.fresh ∧ (takeAsym s).power = s.power ∧ (takeAsym s).sec = s.sec ∧
    (takeAsym s).mp = s.mp ∧ (takeAsym s).hw = s.hw ∧ (takeAsym s).mb = s.mb ∧ (takeAsym s).ports = s.ports ∧
    (takeAsym s).volts = s.volts ∧ (takeAsym s).cal = s.cal ∧ (takeAsym s).circuits = s.circuits ∧ (takeAsym s).cfs = s.cfs ∧
    (takeAsym s).energy = s.energy ∧ (takeAsym s).pqSets = s.pqSets ∧ (takeAsym s).pq = s.pq ∧ (takeAsym s).firn = s.firn ∧
    (takeAsym s).clk = s.clk ∧ (takeAsym s).time = s.time ∧ (takeAsym s).plc = s.plc ∧ (takeAsym s).aux = s.aux ∧ (takeAsym s).s0 = s.s0 ∧
    (takeAsym s).disp = s.disp ∧ (takeAsym s).cdc = s.cdc := by
  refine ⟨?_, ?_, ?_, ?_, ?_, ?_, ?_, ?_, ?_, ?_, ?_, ?_, ?_, ?_, ?_, ?_, ?_, ?_, ?_, ?_, ?_, ?_, ?_⟩ <;>
    first | (simp [takeAsym]; done) | (unfold takeAsym; (repeat' split) <;> simp; done) | rfl

@[simp] theorem takeGrant_keeps (ms : Nat) (s : State) :
    (takeGrant ms s).pending = s.pending ∧ (takeGrant ms s).fresh = s.fresh ∧ (takeGrant ms s).power = s.power ∧
    (takeGrant ms s).sec = s.sec ∧ (takeGrant ms s).mp = s.mp ∧ (takeGrant ms s).hw = s.hw ∧ (takeGrant ms s).mb = s.mb ∧
    (takeGrant ms s).ports = s.ports ∧ (takeGrant ms s).volts = s.volts ∧ (takeGrant ms s).cal = s.cal ∧
    (takeGrant ms s).circuits = s.circuits ∧ (takeGrant ms s).cfs = s.cfs ∧ (takeGrant ms s).energy = s.energy ∧
    (takeGrant ms s).pqSets = s.pqSets ∧ (takeGrant ms s).pq = s.pq ∧ (takeGrant ms s).firn = s.firn ∧ (takeGrant ms s).clk = s.clk ∧
    (takeGrant ms s).time = s.time ∧ (takeGrant ms s).plc = s.plc ∧ (takeGrant ms s).aux = s.aux ∧ (takeGrant ms s).s0 = s.s0 ∧
    (takeGrant ms s).disp = s.disp ∧ (takeGrant ms s).cdc = s.cdc := by
  refine ⟨?_, ?_, ?_, ?_, ?_, ?_, ?_, ?_, ?_, ?_, ?_, ?_, ?_, ?_, ?_, ?_, ?_, ?_, ?_, ?_, ?_, ?_, ?_⟩ <;>
    first | (simp [takeGrant]; done) | (unfold takeGrant; (repeat' split) <;> simp; done) | rfl

@[simp] theorem stopBulk_keeps (s : State) :
    (stopBulk s).pending = s.pending ∧ (stopBulk s).power = s.power ∧ (stopBulk s).sec = s.sec ∧ (stopBulk s).mp = s.mp ∧
    (stopBulk s).ports = s.ports ∧ (stopBulk s).volts = s.volts ∧ (stopBulk s).cal = s.cal ∧ (stopBulk s).circuits = s.circuits ∧
    (stopBulk s).cfs = s.cfs ∧ (stopBulk s).energy = s.energy ∧ (stopBulk s).pqSets = s.pqSets ∧ (stopBulk s).pq = s.pq ∧
    (stopBulk s).clk = s.clk ∧ (stopBulk s).time = s.time ∧ (stopBulk s).plc = s.plc ∧ (stopBulk s).aux = s.aux ∧ (stopBulk s).s0 = s.s0 ∧
    (stopBulk s).disp = s.disp ∧ (stopBulk s).cdc = s.cdc := by
  refine ⟨?_, ?_, ?_, ?_, ?_, ?_, ?_, ?_, ?_, ?_, ?_, ?_, ?_, ?_, ?_, ?_, ?_, ?_, ?_⟩ <;>
    first | (simp [stopBulk]; done) | (unfold stopBulk; (repeat' split) <;> simp; done) | rfl

@[simp] theorem regReadEffect_keeps (addr n : Nat) (s : State) :
    (regReadEffect addr n s).pending = s.pending ∧ (regReadEffect addr n s).fresh = s.fresh ∧ (regReadEffect addr n s).power = s.power ∧
    (regReadEffect addr n s).sec = s.sec ∧ (regReadEffect addr n s).mp = s.mp ∧ (regReadEffect addr n s).mb = s.mb ∧
    (regReadEffect addr n s).ports = s.ports ∧ (regReadEffect addr n s).volts = s.volts ∧ (regReadEffect addr n s).cal = s.cal ∧
    (regReadEffect addr n s).circuits = s.circuits ∧ (regReadEffect addr n s).cfs = s.cfs ∧ (regReadEffect addr n s).energy = s.energy ∧
    (regReadEffect addr n s).pqSets = s.pqSets ∧ (regReadEffect addr n s).pq = s.pq ∧ (regReadEffect addr n s).firn = s.firn ∧
    (regReadEffect addr n s).clk = s.clk ∧ (regReadEffect addr n s).time = s.time ∧ (regReadEffect addr n s).ring = s.ring ∧
    (regReadEffect addr n s).plc = s.plc ∧ (regReadEffect addr n s).aux = s.aux ∧ (regReadEffect addr n s).s0 = s.s0 ∧
    (regReadEffect addr n s).disp = s.disp ∧ (regReadEffect addr n s).cdc = s.cdc := by
  refine ⟨?_, ?_, ?_, ?_, ?_, ?_, ?_, ?_, ?_, ?_, ?_, ?_, ?_, ?_, ?_, ?_, ?_, ?_, ?_, ?_, ?_, ?_, ?_⟩ <;>
    first | (simp [regReadEffect]; done) | (unfold regReadEffect; (repeat' split) <;> simp; done) | rfl

@[simp] theorem sendData_keeps (hdr : List Byte) (form : ReadForm) (data : List Byte) (s : State) :
    (sendData hdr form data s).pending = s.pending ∧ (sendData hdr form data s).fresh = s.fresh ∧ (sendData hdr form data s).power = s.power
    ∧ (sendData hdr form data s).sec = s.sec ∧ (sendData hdr form data s).mp = s.mp ∧ (sendData hdr form data s).mb = s.mb ∧
    (sendData hdr form data s).ports = s.ports ∧ (sendData hdr form data s).volts = s.volts ∧ (sendData hdr form data s).cal = s.cal ∧
    (sendData hdr form data s).circuits = s.circuits ∧ (sendData hdr form data s).cfs = s.cfs ∧ (sendData hdr form data s).energy = s.energy
    ∧ (sendData hdr form data s).pqSets = s.pqSets ∧ (sendData hdr form data s).pq = s.pq ∧ (sendData hdr form data s).firn = s.firn ∧
    (sendData hdr form data s).clk = s.clk ∧ (sendData hdr form data s).time = s.time ∧ (sendData hdr form data s).ring = s.ring ∧
    (sendData hdr form data s).plc = s.plc ∧ (sendData hdr form data s).aux = s.aux ∧ (sendData hdr form data s).s0 = s.s0 ∧
    (sendData hdr form data s).disp = s.disp ∧ (sendData hdr form data s).cdc = s.cdc := by
  refine ⟨?_, ?_, ?_, ?_, ?_, ?_, ?_, ?_, ?_, ?_, ?_, ?_, ?_, ?_, ?_, ?_, ?_, ?_, ?_, ?_, ?_, ?_, ?_⟩ <;>
    first | (simp [sendData]; done) | (unfold sendData; (repeat' split) <;> simp; done) | rfl

@[simp] theorem sendNothing_keeps (s : State) :
    (sendNothing s).pending = s.pending ∧ (sendNothing s).fresh = s.fresh ∧ (sendNothing s).power = s.power ∧ (sendNothing s).sec = s.sec ∧
    (sendNothing s).mp = s.mp ∧ (sendNothing s).mb = s.mb ∧ (sendNothing s).ports = s.ports ∧ (sendNothing s).volts = s.volts ∧
    (sendNothing s).cal = s.cal ∧ (sendNothing s).circuits = s.circuits ∧ (sendNothing s).cfs = s.cfs ∧ (sendNothing s).energy = s.energy ∧
    (sendNothing s).pqSets = s.pqSets ∧ (sendNothing s).pq = s.pq ∧ (sendNothing s).firn = s.firn ∧ (sendNothing s).clk = s.clk ∧
    (sendNothing s).time = s.time ∧ (sendNothing s).ring = s.ring ∧ (sendNothing s).plc = s.plc ∧ (sendNothing s).aux = s.aux ∧
    (sendNothing s).s0 = s.s0 ∧ (sendNothing s).disp = s.disp ∧ (sendNothing s).cdc = s.cdc := by
  refine ⟨?_, ?_, ?_, ?_, ?_, ?_, ?_, ?_, ?_, ?_, ?_, ?_, ?_, ?_, ?_, ?_, ?_, ?_, ?_, ?_, ?_, ?_, ?_⟩ <;>
    first | (simp [sendNothing]; done) | (unfold sendNothing; (repeat' split) <;> simp; done) | rfl

@[simp] theorem crcFail_keeps (s : State) :
    (crcFail s).pending = s.pending ∧ (crcFail s).fresh = s.fresh ∧ (crcFail s).power = s.power ∧ (crcFail s).sec = s.sec ∧
    (crcFail s).mp = s.mp ∧ (crcFail s).mb = s.mb ∧ (crcFail s).ports = s.ports ∧ (crcFail s).volts = s.volts ∧ (crcFail s).cal = s.cal ∧
    (crcFail s).circuits = s.circuits ∧ (crcFail s).cfs = s.cfs ∧ (crcFail s).energy = s.energy ∧ (crcFail s).pqSets = s.pqSets ∧
    (crcFail s).pq = s.pq ∧ (crcFail s).firn = s.firn ∧ (crcFail s).clk = s.clk ∧ (crcFail s).time = s.time ∧ (crcFail s).ring = s.ring ∧
    (crcFail s).plc = s.plc ∧ (crcFail s).aux = s.aux ∧ (crcFail s).s0 = s.s0 ∧ (crcFail s).disp = s.disp ∧ (crcFail s).cdc = s.cdc := by
  refine ⟨?_, ?_, ?_, ?_, ?_, ?_, ?_, ?_, ?_, ?_, ?_, ?_, ?_, ?_, ?_, ?_, ?_, ?_, ?_, ?_, ?_, ?_, ?_⟩ <;>
    first | (simp [crcFail]; done) | (unfold crcFail; (repeat' split) <;> simp; done) | rfl

@[simp] theorem snapHost_keeps (s : State) :
    (snapHost s).pending = s.pending ∧ (snapHost s).fresh = s.fresh ∧ (snapHost s).power = s.power ∧ (snapHost s).sec = s.sec ∧
    (snapHost s).mp = s.mp ∧ (snapHost s).hw = s.hw ∧ (snapHost s).mb = s.mb ∧ (snapHost s).ports = s.ports ∧ (snapHost s).volts = s.volts ∧
    (snapHost s).cal = s.cal ∧ (snapHost s).circuits = s.circuits ∧ (snapHost s).cfs = s.cfs ∧ (snapHost s).pqSets = s.pqSets ∧
    (snapHost s).pq = s.pq ∧ (snapHost s).firn = s.firn ∧ (snapHost s).clk = s.clk ∧ (snapHost s).time = s.time ∧ (snapHost s).ring = s.ring
    ∧ (snapHost s).plc = s.plc ∧ (snapHost s).aux = s.aux ∧ (snapHost s).s0 = s.s0 ∧ (snapHost s).disp = s.disp ∧ (snapHost s).cdc = s.cdc := by
  refine ⟨?_, ?_, ?_, ?_, ?_, ?_, ?_, ?_, ?_, ?_, ?_, ?_, ?_, ?_, ?_, ?_, ?_, ?_, ?_, ?_, ?_, ?_, ?_⟩ <;>
    first | (simp [snapHost]; done) | (unfold snapHost; (repeat' split) <;> simp; done) | rfl

@[simp] theorem notAvail_keeps (s : State) :
    (notAvail s).pending = s.pending ∧ (notAvail s).fresh = s.fresh ∧ (notAvail s).power = s.power ∧ (notAvail s).sec = s.sec ∧
    (notAvail s).mp = s.mp ∧ (notAvail s).mb = s.mb ∧ (notAvail s).ports = s.ports ∧ (notAvail s).volts = s.volts ∧ (notAvail s).cal = s.cal
    ∧ (notAvail s).circuits = s.circuits ∧ (notAvail s).cfs = s.cfs ∧ (notAvail s).energy = s.energy ∧ (notAvail s).pqSets = s.pqSets ∧
    (notAvail s).pq = s.pq ∧ (notAvail s).firn = s.firn ∧ (notAvail s).clk = s.clk ∧ (notAvail s).time = s.time ∧ (notAvail s).ring = s.ring
    ∧ (notAvail s).plc = s.plc ∧ (notAvail s).aux = s.aux ∧ (notAvail s).s0 = s.s0 ∧ (notAvail s).disp = s.disp ∧ (notAvail s).cdc = s.cdc := by
  refine ⟨?_, ?_, ?_, ?_, ?_, ?_, ?_, ?_, ?_, ?_, ?_, ?_, ?_, ?_, ?_, ?_, ?_, ?_, ?_, ?_, ?_, ?_, ?_⟩ <;>
    first | (simp [notAvail]; done) | (unfold notAvail; (repeat' split) <;> simp; done) | rfl

@[simp] theorem triggerSnap_keeps (s : State) :
    (triggerSnap s).pending = s.pending ∧ (triggerSnap s).fresh = s.fresh ∧ (triggerSnap s).power = s.power ∧ (triggerSnap s).sec = s.sec ∧
    (triggerSnap s).mp = s.mp ∧ (triggerSnap s).mb = s.mb ∧ (triggerSnap s).ports = s.ports ∧ (triggerSnap s).volts = s.volts ∧
    (triggerSnap s).cal = s.cal ∧ (triggerSnap s).circuits = s.circuits ∧ (triggerSnap s).cfs = s.cfs ∧ (triggerSnap s).pqSets = s.pqSets ∧
    (triggerSnap s).pq = s.pq ∧ (triggerSnap s).firn = s.firn ∧ (triggerSnap s).clk = s.clk ∧ (triggerSnap s).time = s.time ∧
    (triggerSnap s).ring = s.ring ∧ (triggerSnap s).plc = s.plc ∧ (triggerSnap s).aux = s.aux ∧ (triggerSnap s).s0 = s.s0 ∧
    (triggerSnap s).disp = s.disp ∧ (triggerSnap s).cdc = s.cdc := by
  refine ⟨?_, ?_, ?_, ?_, ?_, ?_, ?_, ?_, ?_, ?_, ?_, ?_, ?_, ?_, ?_, ?_, ?_, ?_, ?_, ?_, ?_, ?_⟩ <;>
    first | (simp [triggerSnap]; done) | (unfold triggerSnap; (repeat' split) <;> simp; done) | rfl

@[simp] theorem winViol_keeps (s : State) :
    (winViol s).pending = s.pending ∧ (winViol s).fresh = s.fresh ∧ (winViol s).power = s.power ∧ (winViol s).sec = s.sec ∧
    (winViol s).mp = s.mp ∧ (winViol s).mb = s.mb ∧ (winViol s).ports = s.ports ∧ (winViol s).volts = s.volts ∧ (winViol s).cal = s.cal ∧
    (winViol s).circuits = s.circuits ∧ (winViol s).cfs = s.cfs ∧ (winViol s).energy = s.energy ∧ (winViol s).pqSets = s.pqSets ∧
    (winViol s).pq = s.pq ∧ (winViol s).firn = s.firn ∧ (winViol s).clk = s.clk ∧ (winViol s).time = s.time ∧ (winViol s).ring = s.ring ∧
    (winViol s).plc = s.plc ∧ (winViol s).aux = s.aux ∧ (winViol s).s0 = s.s0 ∧ (winViol s).disp = s.disp ∧ (winViol s).cdc = s.cdc := by
  refine ⟨?_, ?_, ?_, ?_, ?_, ?_, ?_, ?_, ?_, ?_, ?_, ?_, ?_, ?_, ?_, ?_, ?_, ?_, ?_, ?_, ?_, ?_, ?_⟩ <;>
    first | (simp [winViol]; done) | (unfold winViol; (repeat' split) <;> simp; done) | rfl

@[simp] theorem writeWinByte_keeps (a : Nat) (b : Byte) (s : State) :
    (writeWinByte a b s).pending = s.pending ∧ (writeWinByte a b s).fresh = s.fresh ∧ (writeWinByte a b s).power = s.power ∧
    (writeWinByte a b s).sec = s.sec ∧ (writeWinByte a b s).mp = s.mp ∧ (writeWinByte a b s).ports = s.ports ∧
    (writeWinByte a b s).volts = s.volts ∧ (writeWinByte a b s).cal = s.cal ∧ (writeWinByte a b s).circuits = s.circuits ∧
    (writeWinByte a b s).cfs = s.cfs ∧ (writeWinByte a b s).energy = s.energy ∧ (writeWinByte a b s).pqSets = s.pqSets ∧
    (writeWinByte a b s).pq = s.pq ∧ (writeWinByte a b s).firn = s.firn ∧ (writeWinByte a b s).clk = s.clk ∧
    (writeWinByte a b s).time = s.time ∧ (writeWinByte a b s).ring = s.ring ∧ (writeWinByte a b s).plc = s.plc ∧
    (writeWinByte a b s).aux = s.aux ∧ (writeWinByte a b s).s0 = s.s0 ∧ (writeWinByte a b s).disp = s.disp ∧
    (writeWinByte a b s).cdc = s.cdc := by
  refine ⟨?_, ?_, ?_, ?_, ?_, ?_, ?_, ?_, ?_, ?_, ?_, ?_, ?_, ?_, ?_, ?_, ?_, ?_, ?_, ?_, ?_, ?_⟩ <;>
    first | (simp [writeWinByte]; done) | (unfold writeWinByte; (repeat' split) <;> simp; done) | rfl

end Sys2Proof.Machine
end

