-- ==== Sys2Proof/Laws/Memory.lean ====
section
/-! SUPPORT. Laws of the byte memories: every operation keeps the canonical form, a read of a written byte gives it, and every other
byte reads as before. -/

namespace Sys2Proof.Laws

open Machine

/-- The canonical form, said with quantifiers. -/
theorem memory_wf_iff (d : Byte) (m : Memory) :
    Memory.wf d m = true ↔ m.Pairwise (fun c c' => c.1 < c'.1) ∧ ∀ c ∈ m, c.2 ≠ d := by
  induction m with
  | nil => simp [Memory.wf]
  | cons c m ih =>
    cases m with
    | nil => simp [Memory.wf]
    | cons c' m =>
      simp only [Memory.wf, Bool.and_eq_true, ih, bne_iff_ne, decide_eq_true_eq]
      constructor
      · rintro ⟨⟨h1, h2⟩, h3, h4⟩
        refine ⟨List.pairwise_cons.2 ⟨fun x hx => ?_, h3⟩, List.forall_mem_cons.2 ⟨h1, h4⟩⟩
        rcases List.mem_cons.1 hx with rfl | hx
        · exact h2
        · exact h2.trans ((List.pairwise_cons.1 h3).1 x hx)
      · rintro ⟨h1, h2⟩
        obtain ⟨h3, h4⟩ := List.pairwise_cons.1 h1
        exact ⟨⟨h2 c (by simp), h3 c' (by simp)⟩, h4, (List.forall_mem_cons.1 h2).2⟩

theorem memory_wf_nil (d : Byte) : Memory.wf d [] = true := rfl

/-- The cells of written bytes lie at their addresses and never hold the unlisted byte. -/
theorem memCells_mem {d : Byte} {a : Nat} {bs : List Byte} {c : Nat × Byte} (h : c ∈ memCells d a bs) :
    a ≤ c.1 ∧ c.1 < a + bs.length ∧ c.2 ≠ d := by
  induction bs generalizing a with
  | nil => simp [memCells] at h
  | cons b bs ih =>
    simp only [memCells] at h
    split at h
    · have := ih h; simp only [List.length_cons]; exact ⟨by omega, by omega, this.2.2⟩
    · rename_i hb
      rcases List.mem_cons.1 h with rfl | h
      · simp [hb]
      · have := ih h; simp only [List.length_cons]; exact ⟨by omega, by omega, this.2.2⟩

theorem memCells_sorted (d : Byte) (a : Nat) (bs : List Byte) : (memCells d a bs).Pairwise (fun c c' => c.1 < c'.1) := by
  induction bs generalizing a with
  | nil => simp [memCells]
  | cons b bs ih =>
    simp only [memCells]
    split
    · exact ih _
    · refine List.pairwise_cons.2 ⟨fun c hc => ?_, ih _⟩
      have := memCells_mem hc
      show a < c.1
      omega

/-- A write keeps the canonical form. -/
theorem memPuts_wf {d : Byte} {m : Memory} (a : Nat) (bs : List Byte) (h : Memory.wf d m = true) :
    Memory.wf d (memPuts d m a bs) = true := by
  obtain ⟨h1, h2⟩ := (memory_wf_iff d m).1 h
  refine (memory_wf_iff d _).2 ⟨?_, fun c hc => ?_⟩
  · refine List.pairwise_append.2 ⟨List.pairwise_append.2 ⟨h1.filter _, memCells_sorted d a bs, fun x hx y hy => ?_⟩,
      h1.filter _, fun x hx y hy => ?_⟩
    · have := memCells_mem hy
      have hx := (List.mem_filter.1 hx).2
      simp only [decide_eq_true_eq] at hx
      omega
    · have hy := (List.mem_filter.1 hy).2
      simp only [decide_eq_true_eq] at hy
      rcases List.mem_append.1 hx with hx | hx
      · have hx := (List.mem_filter.1 hx).2
        simp only [decide_eq_true_eq] at hx
        omega
      · have := memCells_mem hx
        omega
  · rcases List.mem_append.1 hc with hc | hc
    · rcases List.mem_append.1 hc with hc | hc
      · exact h2 c (List.mem_filter.1 hc).1
      · exact (memCells_mem hc).2.2
    · exact h2 c (List.mem_filter.1 hc).1

theorem memPut_wf {d : Byte} {m : Memory} (a : Nat) (b : Byte) (h : Memory.wf d m = true) : Memory.wf d (memPut d m a b) = true :=
  memPuts_wf a [b] h

/-- A read sees only the cells at its address. -/
theorem memGet_congr {d : Byte} {m m' : Memory} {a : Nat}
    (h : m.filter (fun c => c.1 == a) = m'.filter (fun c => c.1 == a)) : memGet d m a = memGet d m' a := by
  have : ∀ l : Memory, l.find? (fun c => c.1 == a) = (l.filter (fun c => c.1 == a)).head? := fun l => by
    rw [List.head?_filter]
  simp only [memGet, this, h]

/-- A byte outside those written reads as before. -/
theorem memGet_memPuts_out {d : Byte} {m : Memory} {a : Nat} {bs : List Byte} {x : Nat} (h : x < a ∨ a + bs.length ≤ x) :
    memGet d (memPuts d m a bs) x = memGet d m x := by
  apply memGet_congr
  have hc : (memCells d a bs).filter (fun c => c.1 == x) = [] := by
    refine List.filter_eq_nil_iff.2 fun c hc => ?_
    have := memCells_mem hc
    simp only [beq_iff_eq]
    omega
  simp only [memPuts, List.filter_append, hc, List.append_nil, List.filter_filter]
  rcases h with h | h
  · have h1 : m.filter (fun c => c.1 == x && decide (c.1 < a)) = m.filter (fun c => c.1 == x) :=
      List.filter_congr fun c _ => by by_cases e : c.1 = x <;> simp [e, h]
    have h2 : m.filter (fun c => c.1 == x && decide (a + bs.length ≤ c.1)) = [] :=
      List.filter_eq_nil_iff.2 fun c _ => by
        simp only [Bool.and_eq_true, beq_iff_eq, decide_eq_true_eq]; omega
    rw [h1, h2, List.append_nil]
  · have h1 : m.filter (fun c => c.1 == x && decide (a + bs.length ≤ c.1)) = m.filter (fun c => c.1 == x) :=
      List.filter_congr fun c _ => by by_cases e : c.1 = x <;> simp [e, h]
    have h2 : m.filter (fun c => c.1 == x && decide (c.1 < a)) = [] :=
      List.filter_eq_nil_iff.2 fun c _ => by
        simp only [Bool.and_eq_true, beq_iff_eq, decide_eq_true_eq]; omega
    rw [h1, h2, List.nil_append]

theorem memGet_memCells (d : Byte) (a : Nat) (bs : List Byte) (k : Nat) (h : k < bs.length) :
    memGet d (memCells d a bs) (a + k) = bs[k] := by
  induction bs generalizing a k with
  | nil => simp at h
  | cons b bs ih =>
    cases k with
    | zero =>
      simp only [memCells, List.getElem_cons_zero, Nat.add_zero]
      split
      · rename_i hb
        have : (memCells d (a + 1) bs).find? (fun c => c.1 == a) = none :=
          List.find?_eq_none.2 fun c hc => by have := memCells_mem hc; simp only [beq_iff_eq]; omega
        simp [memGet, this, hb]
      · simp [memGet]
    | succ k =>
      have hk : k < bs.length := by simpa using h
      have e : a + (k + 1) = a + 1 + k := by omega
      simp only [memCells, List.getElem_cons_succ, e]
      split
      · exact ih (a + 1) k hk
      · have hne : (a == a + 1 + k) = false := by simp only [beq_eq_false_iff_ne]; omega
        have := ih (a + 1) k hk
        simpa only [memGet, List.find?_cons, hne] using this

/-- A written byte reads as it was written. -/
theorem memGet_memPuts_in {d : Byte} {m : Memory} {a : Nat} {bs : List Byte} {k : Nat} (h : k < bs.length) :
    memGet d (memPuts d m a bs) (a + k) = bs[k] := by
  rw [← memGet_memCells d a bs k h]
  apply memGet_congr
  have h1 : m.filter (fun c => c.1 == a + k && decide (c.1 < a)) = [] :=
    List.filter_eq_nil_iff.2 fun c _ => by simp only [Bool.and_eq_true, beq_iff_eq, decide_eq_true_eq]; omega
  have h2 : m.filter (fun c => c.1 == a + k && decide (a + bs.length ≤ c.1)) = [] :=
    List.filter_eq_nil_iff.2 fun c _ => by simp only [Bool.and_eq_true, beq_iff_eq, decide_eq_true_eq]; omega
  simp only [memPuts, List.filter_append, List.filter_filter, h1, h2, List.nil_append, List.append_nil]

@[simp] theorem memSlice_length (d : Byte) (m : Memory) (a n : Nat) : (memSlice d m a n).length = n := by simp [memSlice]

/-- A slice reads byte by byte. -/
theorem memSlice_get (d : Byte) (m : Memory) (a n k : Nat) (h : k < n) :
    (memSlice d m a n)[k]'(by simpa using h) = memGet d m (a + k) := by
  simp only [memSlice, List.getElem_map, List.getElem_range]
  apply memGet_congr
  rw [List.filter_filter]
  refine List.filter_congr fun c _ => ?_
  by_cases e : c.1 = a + k <;> simp [e, h]

/-- Reading back what was written. -/
theorem memSlice_memPuts (d : Byte) (m : Memory) (a : Nat) (bs : List Byte) :
    memSlice d (memPuts d m a bs) a bs.length = bs := by
  apply List.ext_getElem (by simp)
  intro k h1 h2
  rw [memSlice_get _ _ _ _ _ h2, memGet_memPuts_in h2]

/-- A slice apart from a write reads as before. -/
theorem memSlice_memPuts_out (d : Byte) (m : Memory) (a : Nat) (bs : List Byte) (x n : Nat) (h : x + n ≤ a ∨ a + bs.length ≤ x) :
    memSlice d (memPuts d m a bs) x n = memSlice d m x n := by
  apply List.ext_getElem (by simp)
  intro k h1 h2
  have hk : k < n := by simpa using h1
  rw [memSlice_get _ _ _ _ _ hk, memSlice_get _ _ _ _ _ hk, memGet_memPuts_out (by omega)]

end Sys2Proof.Laws
end

