-- ==== Sys2Proof/Laws/Commands.lean ====
section
/-! SUPPORT. What happens to a command: how the MP takes it, what an answer writes, what a store request leaves, and how the consumer
decides. Each lemma says once everything that its operation can do. -/

namespace Sys2Proof.Machine

variable {row : CmdRow} {t : Fin 64} {c : Cmd} {s : State}

/-! ### The MP takes a command -/

/-- No command under the tag, or none of this row that may start: nothing happens. -/
theorem runCmd_idle (body : CmdIn → State → Reply)
    (h : ∀ c, s.mb.tags[t] = some c → dOpcode c.desc ≠ row.op ∨ startable t c s = false) : runCmd row body t s = s := by
  unfold runCmd
  cases e : s.mb.tags[t] with
  | none => rfl
  | some c => rcases h c e with h | h <;> simp [h]

/-- A common check refuses the command with its status. -/
theorem runCmd_refuses (body : CmdIn → State → Reply) {st : Status} (h1 : s.mb.tags[t] = some c) (h2 : dOpcode c.desc = row.op)
    (h3 : startable t c s = true) (h4 : rowCheck row c (bulkOf c s) s = some st) : runCmd row body t s = answer t st [] [] s := by
  simp [runCmd, h1, h2, h3, h4]

/-- A command that passes the common checks runs its body. -/
theorem runCmd_takes (body : CmdIn → State → Reply) (h : Takes row t c s) :
    runCmd row body t s =
      settleReply t (clockBusy row s (body { tag := t, org := c.origin, pay := dPayload c.desc, bulk := bulkOf c s } s)) := by
  obtain ⟨h1, h2, h3, h4⟩ := h
  simp [runCmd, h1, h2, h3, h4]

/-- A row that needs no clock is never BUSY for a stalled crossing. -/
theorem clockBusy_free (h : row.clocks = false) (r : Reply) : clockBusy row s r = r := by simp [clockBusy, h]

theorem clockBusy_going (h : s.stalled 8 = false) (r : Reply) : clockBusy row s r = r := by simp [clockBusy, h]

@[simp] theorem settleReply_done (st : Status) (p b : List Byte) : settleReply t (.done st p b s) = answer t st p b s := rfl
@[simp] theorem settleReply_store (ch : Change) : settleReply t (.store ch s) = storeFor t ch s := rfl
@[simp] theorem settleReply_fail (st : Status) : settleReply t (fail st s) = answer t st [] [] s := rfl
@[simp] theorem settleReply_okWith (p : List Byte) : settleReply t (okWith p s) = answer t .ok p [] s := rfl

/-! ### Answers -/

/-- Without a command there is no answer. -/
theorem answer_none (h : s.mb.tags[t] = none) (st : Status) (p b : List Byte) : answer t st p b s = s := by
  simp only [answer, h]

/-- The answer of a local command: a response in the ring, the bulk data in the window, and a free tag. -/
theorem answer_local (h : s.mb.tags[t] = some c) (hl : isLocal c = true) (st : Status) (p b : List Byte) :
    answer t st p b s =
      freeTag t (place (respBytes c.desc st.code s.unitByte t.val p b.length (yieldByte c s.fresh s.time.ticks) (latencyUs c s.fresh s.time.ticks))
        (bulkAnswered t (putBulk b s.draw.2))) := by
  simp only [answer, h]
  cases e : c.origin <;> first | rfl | (simp [isLocal, e] at hl)

/-- What a response changes: its slot and RSP_PI. -/
theorem place_rspPi (r : List Byte) (s : State) : (place r s).hw = { s.hw with rspPi := s.hw.rspPi + 1 } := rfl

theorem place_mb (r : List Byte) (s : State) :
    (place r s).mb = { s.mb with win := memPuts 0 s.mb.win (rspBase + 64 * (s.hw.rspPi.toNat % 64)) (padTo 64 r) } := rfl

@[simp] theorem padTo_length (n : Nat) (bs : List Byte) : (padTo n bs).length = n := by
  simp only [padTo, List.length_append, List.length_take, List.length_replicate]
  omega

/-- The slot reads back as the response that was placed. -/
theorem place_slot (r : List Byte) (s : State) : rspSlot (place r s) s.hw.rspPi = padTo 64 r := by
  have := Laws.memSlice_memPuts 0 s.mb.win (0x0400 + 64 * (s.hw.rspPi.toNat % 64)) (padTo 64 r)
  rw [padTo_length] at this
  exact this

/-! ### Stores -/

/-- During a power-fail freeze a command that asks for a store hears RETRY. -/
theorem storeFor_frozen (h : s.hw.frozen = true) (ch : Change) : storeFor t ch s = answer t .retry [] [] s := by
  simp [storeFor, h]

theorem storeFor_asks (h : s.hw.frozen = false) (ch : Change) : storeFor t ch s = openStore ch (some t) s := by
  simp [storeFor, h]

/-! ### The consumer -/

/-- A claim takes the lowest free tag; nothing but the mailbox changes. -/
theorem claimTag_spec {d : List Byte} {o : Origin} {remote : Bool} {got : Nat} {s' : State} (h : claimTag d o remote got s = some (t, s')) :
    (freeTags s.mb).head? = some t ∧ s' = s.modMb (fun m =>
      { m with claims := m.claims + 1,
               tags := vmod m.tags t (fun _ => some { desc := d, origin := o, order := m.claims, remote := remote, started := false,
                                                      waiting := false, got := got, yielded := if s.hw.frozen then 2 else 0,
                                                      claimed := s.time.ticks }) }) := by
  simp only [claimTag, Option.map_eq_some_iff, Prod.mk.injEq] at h
  obtain ⟨u, hu, rfl, rfl⟩ := h
  exact ⟨hu, rfl⟩

/-- No tag is free: none is claimed. -/
theorem claimTag_none {d : List Byte} {o : Origin} {remote : Bool} {got : Nat} (h : freeTags s.mb = []) :
    claimTag d o remote got s = none := by
  simp [claimTag, h]

/-- A tag that `freeTags` lists holds no command. -/
theorem mem_freeTags (m : Mailbox) (t : Fin 64) : t ∈ freeTags m ↔ m.tags[t] = none := by
  simp [freeTags, fins]

end Sys2Proof.Machine
end

