-- ==== Sys2Proof/Machine/Pins.lean ====
section
/-! DEFINITION. The digital output pins, in the states that R439 gives them. -/

namespace Sys2Proof.Machine

/-- What a digital output shows: a level, high impedance, or the raw crystal of LCK_OUT. -/
inductive Pin where
  | low
  | high
  | z
  | crystal
  deriving DecidableEq, Repr

def Pin.ofLevel (b : Bool) : Pin := if b then .high else .low

/-- The outputs on the VSUP rail are as in running: from LOADED until VSUP valid ends. -/
def outputsUp (s : State) : Bool := s.coreOn && s.hw.loaded

/-- A VSUP-rail output: low before LOADED and while RESET_N is low, high impedance in HOLD and OFF. -/
def vsupPin (up : Pin) (s : State) : Pin := if !s.firnOn then .z else if outputsUp s then up else .low

/-- TOUTn (R243, R439). -/
def toutPin (n : Fin 4) (s : State) : Pin := vsupPin (.ofLevel (s.time.outs[n]).level) s

/-- CFn (R86, R88, R90, R439): the level from the restore of CFn_CFG on, high impedance before. -/
def cfPin (n : Fin 8) (s : State) : Pin := if s.coreOn then .ofLevel (s.cfs[n]).level else .z

/-- DPWR_EN (R371, R383, R439). -/
def dpwrPin (s : State) : Pin := vsupPin (.ofLevel s.disp.dpwrEn) s

/-- DOE (R371): low while DPWR_EN is low (R372). -/
def doePin (s : State) : Pin := vsupPin (.ofLevel (s.disp.dpwrEn && s.disp.doe)) s

/-- HIRQ_N, open drain (R287, R439): released before LOADED and while RESET_N is low. -/
def hirqPin (s : State) : Pin :=
  if s.power.state = .off ∨ (s.firnOn ∧ !outputsUp s) ∨ !s.power.resetN then .z
  else if s.hw.irqAsserted then .low else .z

/-- PWR_WAKE_N, open drain (R413, R439). -/
def pwrWakePin (s : State) : Pin := if s.power.pwrWake && decide (s.power.state = .hold) then .low else .z

/-- LCK_OUT (R198, R439): low before LOADED and while RESET_N is low, per TEST_SEL in HOLD. -/
def lckPin (s : State) : Pin :=
  if s.power.state = .off then .z
  else if (s.firnOn ∧ !outputsUp s) ∨ !s.power.resetN then .low
  else match lckOut s.clk with
    | .level b => .ofLevel b
    | .crystal => .crystal

end Sys2Proof.Machine
end

