-- ==== Sys2Proof/Tests/Slice0.lean ====
section
/-! SUPPORT. Tests: an ill-formed command for each check of WellFormed, single steps with results worked out from the spec, and, for
every clause of every statement that has hypotheses, a state and operands that meet them. -/

-- Theorems are checked one after another, so that few threads hold a stack at once.
set_option Elab.async false

namespace Sys2Proof.Tests

open Machine

/-! ### States to test on -/

/-- A unit in RUN with its firmware ready. -/
def on : State :=
  { State.reset with
    power := { State.reset.power with state := .run, vsupValid := true, vsupHeld := true, supply := .vsup },
    hw := { State.reset.hw with loaded := true, mpReady := true, mpRun := true } }

/-- The 64 bytes of a descriptor: opcode, flags, payload and BULK_LEN. -/
def desc (op fl : Nat) (pay : List Byte) (bulkLen : Nat) : List Byte :=
  leBytes 2 op ++ leBytes 1 fl ++ leBytes 2 0 ++ leBytes 1 pay.length ++ leBytes 2 0x1234 ++ leBytes 2 bulkLen ++ leBytes 2 (0xFFFF - op) ++
    leBytes 4 0 ++ padTo 48 pay

def cmdOf (d : List Byte) (n : Nat) : Cmd :=
  { desc := d, origin := .host, order := 0, remote := false, started := false, waiting := false, got := n, yielded := 0 }

def request (op fl : Nat) (pay : List Byte) (n : Nat) : Cmd := cmdOf (desc op fl pay n) n

/-- Tag 0 holds a command. -/
def given (op fl : Nat) (pay : List Byte) (s : State) : State :=
  s.modMb (fun m => { m with tags := m.tags.set 0 (some (request op fl pay 0)), claims := 1 })

/-- Tag 0 holds a command with bulk-in data. -/
def givenBulk (op fl : Nat) (pay bulk : List Byte) (s : State) : State :=
  s.modMb (fun m => { m with
    tags := m.tags.set 0 (some (request op fl pay bulk.length)), claims := 1, bulk := .claimed 0, win := memPuts 0 m.win 0x2000 bulk })

def cmdIn (s : State) : Cmd := (s.mb.tags[0]).getD (cmdOf [] 0)

/-- The state that an outcome gives. -/
def after (o : Host.Outcome State Fault Refusal) : State := match o with | .next t => t | _ => State.reset

def goesOn (o : Host.Outcome State Fault Refusal) : Bool := match o with | .next _ => true | _ => false

theorem next_after (o : Host.Outcome State Fault Refusal) (h : goesOn o = true) : o = .next (after o) := by
  cases o <;> first | rfl | cases h

/-- A state of a unit in lifecycle `l` with debug level `d`. -/
def lifeOf (l : Lifecycle) (d : BitVec 2) (s : State) : State := s.modSec (fun k => { k with state := l, debug := d })

def headOf (s : State) : State := s.modRing (fun r => { r with isHead := true })

def txn (g : CalTarget) (ch ld : BitVec 32) (st : TxnState) : Txn :=
  { target := g, chans := ch, loaded := ld, st := st, cnt := 0, left := 0, pqLeft := false }

def withTxns (l : List Txn) : State := on.modCal (fun c => { c with txns := l })

def ev (n : Byte) : DirEvent := { circuit := n, kind := 0, time := .zero }

def er : EventRec :=
  { seq := 1, typ := 1, chan := 1, start := .zero, duration := 0, extreme := 0, second := 0, worst := 1, flags := 0, unit := 0 }

def rec0 : BillRec :=
  { seq := 1, flags := 0, start := 0, stop := 5, time := .zero, snap := 0, image := on.circuits.map (fun c => c.totals) }

/-- A waveform table: temperature and frame count, one drive and one release frame. -/
def lut1 : List Byte := [8, 10, 1] ++ List.replicate 141 0 ++ [1] ++ List.replicate 239 0

/-- A native panel of 100 by 64 pixels. -/
def panel : State :=
  on.modDisp (fun d => { d with mode := 1, width := 100, height := 64, st := 1, luts := Vector.replicate 8 (some lut1) })

/-- A native panel of 32 by 32 pixels. -/
def panel32 : State :=
  on.modDisp (fun d => { d with mode := 1, width := 32, height := 32, st := 1, luts := Vector.replicate 8 (some lut1) })

/-- The head of a ring, at address 1. -/
def head0 : State := on.modRing (fun r => { r with isHead := true, addr := 1 })

def kettled (v : BitVec 16) (s : State) : State := s.modAuxIn kettleIn (fun i => { i with tick := some 0, result := v })

def reqOf (id : Nat) (ch : Change) (st : ReqStage) (ms : List Member) (tag : Option (Fin 64)) : StoreReq :=
  { id := id, rank := 3, change := ch, tag := tag, stage := st, members := ms }

def mem (p : Nat) (slot : Bool) (tries : Nat) (st : MemberState) : Member :=
  { page := p, data := List.replicate 64 1, slot := slot, group := 0, tries := tries, st := st }

def withReqs (l : List StoreReq) (s : State) : State := s.modFirn (fun f => { f with reqs := l, issued := 9 })

/-- A store of a display ledger waits. -/
def waiting (s : State) : State :=
  s.modFirn (fun f => { f with
    reqs := [{ id := 0, rank := 3, change := .ledger 0 [] 0, tag := none, stage := .ask, members := [] }] })

/-- A received frame with the CRC that its fields give. -/
def frame (ty : BitVec 4) (dst src : BitVec 6) (pl : List Byte) : RxFrame :=
  let f : RxFrame :=
    { typ := ty, sec := false, relay := false, dst := dst, src := src, seq := 1, len := BitVec.ofNat 9 pl.length, cycle := 0,
      corr := 0, payload := pl, crc := 0, violation := false }
  { f with crc := crc32 (frameBody f) }

/-- A unit at address 5 that follows the ring's time. -/
def unit5 : State :=
  (on.modRing (fun r => { r with addr := 5 })).modTime (fun t => { t with seen := true, syncOk := true, inUse := true, mode := .pull })

def headE : State := head0.modTime (fun t => { t with startStored := true, syncOk := true })

def bothUp (s : State) : State :=
  s.modRing (fun r => { r with portA := { r.portA with up := true, good := 8 }, portB := { r.portB with up := true, good := 8 } })

def stampB (ns sec : Nat) (ep : Nat) : List Byte := leBytes 4 ns ++ leBytes 6 sec ++ leBytes 1 ep ++ leBytes 1 7

def alignF (kind seq : Nat) : RxFrame :=
  frame tyAlign broadcast 2
    (leBytes 8 77 ++ leBytes 1 0 ++ leBytes 1 kind ++ leBytes 2 seq ++ stampB 100 0 0 ++ stampB 200 0 0)

def idleTx (g : RingSel) : TxFrame :=
  { ring := g, typ := tyBalance, relay := false, dst := 1, src := 0, seq := 0, payload := [1], tag := none }

def vac (k : Nat) (dst src : BitVec 6) (uid : Nat) : RxFrame :=
  frame tyVacancy dst src
    (leBytes 1 k ++ leBytes 1 9 ++ leBytes 2 0 ++ leBytes 8 uid ++ leBytes 8 0 ++ leBytes 8 0)

def mb (kind o d part : Nat) (ofs : Nat) (body : List Byte) (dst src : BitVec 6) : RxFrame :=
  frame tyMbox dst src
    ([BitVec.ofNat 8 kind, BitVec.ofNat 8 o, BitVec.ofNat 8 d, BitVec.ofNat 8 part] ++ leBytes 4 ofs ++ body)

def remoteCmd (fl : Nat) : Cmd :=
  { cmdOf ((desc 0x0100 fl [] 0).take 3 ++ [7] ++ (desc 0x0100 fl [] 0).drop 4) 0 with remote := true }

def lev : LevelEvent :=
  { start := .zero, startTick := 0, chans := 1, extreme := 5, worst := 0, unsync := false, stepped := false, hasInt := false }

def tev : TransEvent :=
  { start := .zero, startTick := 0, lastTick := 0, quiet := 0, extreme := 0, cycle := 0, unsync := false, stepped := false }

/-- A window of two samples of silence. -/
def window : WinClosed :=
  { volts := Vector.replicate 4 [0, 0], ports := Vector.replicate 24 [], len := 2, start := 0, stop := 2048, status := 1 }

/-- A power line port with node 2 active and poll 100 announced. -/
def plc1 : State :=
  (on.modPlc (fun p => { p with en := true, baseStored := true, poll := 100 })).modNode 2 (fun n => { n with st := 2, id := 5 })

def xch (wo : Bool) (d : Option (Word × BitVec 4)) : Exchange :=
  { node := 2, join := false, mac := [3, 0, 0, 0, 0x20, 0x4e, 0, 0, 0, 0x44, 0xf1], pollEnd := 100, winOpen := wo, detected := d }

/-- TYPE 2, NSYM 9, IDX 3, and the CRC over them (R337). -/
def goodFch : BitVec 42 := 240518566402

/-- Symbols of carriers that are all alike before the first, each keyed by bits (R335). -/
def keyed (bits : List (List Bool)) : List RxSym :=
  (List.replicate 48 0 :: keyRobust (List.replicate 48 0) bits).map (fun ps =>
    { bins := ps.map (fun p => { re := if p = 0 then 1 else -1, im := 0 }), blanked := 0 })

/-- The symbols of a reply of node 2 to a poll with SEQ 0, without uplink data. -/
def replySyms : List RxSym :=
  let one := keyed (robustSymbols (codeBits ((List.range 42).map goodFch.toNat.testBit)) ++
    robustSymbols (interleave (codeBits (bitsOfBytes (rsWord (withCrc [3, 0, 0, 0, 9, 9]))))))
  List.replicate 3 { bins := [], blanked := 0 } ++ one

def upd (st : UpdStage) (f n : Nat) : Update :=
  { id := 1, typ := 0, x := 0, y := 0, w := 2, h := 1, frames := n, frame := f, stage := st, band := 3, copied := [],
    groups := [0] }

def auxOn : State :=
  on.modAux (fun a => { a with
    powered := true, ready := true, regular := [1, 2], regPeriod := 1000, injected := [3], injPeriod := 1000 })

/-! ### An ill-formed command for each check of WellFormed -/

/-- A received frame with the given number of payload bytes. -/
def rxLen (n : Nat) : RxFrame :=
  { typ := 1, sec := false, relay := false, dst := 1, src := 2, seq := 0, len := 0, cycle := 0, corr := 0,
    payload := List.replicate n 0, crc := 0, violation := false }

theorem test_wf_read_of_nothing : (Instr.regRead 0 (.plain 0)).wf = false ∧ (Instr.winRead 0 (.plain 0)).wf = false ∧
    (Instr.coldRead 0 (.plain 0)).wf = false ∧ (Instr.regRead 0 (.plain 4)).wf = true := by decide

theorem test_wf_write_longer_than_count :
    (Instr.regWrite 0x08 [1, 2, 3, 4, 5] (some ⟨3, none⟩)).wf = false ∧ (Instr.winWrite 0 [1, 2] (some ⟨3, some 0⟩)).wf = false ∧
      (Instr.regWrite 0x08 [1, 2, 3, 4] (some ⟨3, some 0⟩)).wf = true := by decide

theorem test_wf_defined_code : (Instr.undefinedInstruction 0x03).wf = false ∧ (Instr.undefinedInstruction 0x8B).wf = false ∧
    (Instr.undefinedInstruction 0x04).wf = true := by decide

theorem test_wf_group_base : (Instr.groupStoreDone 3072).wf = false ∧ (Instr.groupStoreDone 3071).wf = true := by decide

theorem test_wf_instant_beyond_sample :
    (Instr.earlyWarning 31251 0).wf = false ∧ (Instr.brownOut 31251 0).wf = false ∧ (Instr.resetNLow 31251 0).wf = false ∧
      (Instr.ppsEdge { dt := 31251 }).wf = false ∧ (Instr.replyDetect ⟨31251, 1200, 1200⟩).wf = false ∧ (Instr.auxConversionDone 0 31251).wf = false ∧
      (Instr.syncReceived .primary (rxLen 0) (31251 * 65536)).wf = false ∧ (Instr.alignReceived .a (rxLen 0) (31251 * 65536)).wf = false ∧
      (Instr.unitWindow .primary (31251 * 65536)).wf = false ∧ (Instr.ppsEdge { dt := 31250 }).wf = true := by decide +kernel

theorem test_wf_numbers : (Instr.kettleCollapse [1, 2]).wf = false ∧ (Instr.chargerThreshold 5501).wf = false ∧
    (Instr.tcUpdate 32768).wf = false ∧ (Instr.tcUpdate (-32769)).wf = false ∧ (Instr.linkDown .a 65536).wf = false ∧
    (Instr.cdcRealign 0 .both 65).wf = false := by decide +kernel

theorem test_wf_long_frame :
    ([Instr.syncReceived .primary (rxLen 512) 0, .stepReceived (rxLen 512), .alignReceived .a (rxLen 512) 0,
      .frameForward .primary (rxLen 512) 0 false, .enumReceived (rxLen 512), .enumReplyReceived (rxLen 512),
      .idleReceived (rxLen 512), .claimReceived [rxLen 0, rxLen 512], .grant (rxLen 512), .revoke (rxLen 512), .full (rxLen 512),
      .wrapReportReceived (rxLen 512), .wrapAnnounceReceived (rxLen 512), .mboxCommandReceived (rxLen 512),
      .mboxResponseReceived (rxLen 512), .mboxBulkReceived (rxLen 512), .mirrorHalfReceived (rxLen 512), .relay (rxLen 512),
      .balanceReceived (rxLen 512)].all (fun i => !i.wf)) = true ∧ (Instr.grant (rxLen 511)).wf = true := by decide +kernel

theorem test_wf_reply_leads :
    (Instr.replyDetect ⟨0, 1151, 1200⟩).wf = false ∧ (Instr.replyDetect ⟨0, 1200, 2305⟩).wf = false ∧
      (Instr.replyDetect ⟨0, 1152, 2304⟩).wf = true := by decide

/-! ### Values that the spec works out -/

/-- R284: the check value of the ASCII string "123456789". -/
theorem test_crc16 : crc16 [0x31, 0x32, 0x33, 0x34, 0x35, 0x36, 0x37, 0x38, 0x39] = 0x29B1 := by decide +kernel

/-- Chapter 1, incomer 1: EN, DUAL, SENSOR 1, LEAK 4, no INV. -/
theorem test_port_word : portEn 0x47 = true ∧ portDual 0x47 = true ∧ portSensor 0x47 = 1 ∧ portLeak 0x47 = 20 ∧ portInv 0x47 = false := by
  decide

/-- Chapter 2, circuit 1: 3P4W+N on set A, ports 1 to 4, reference L1. -/
theorem test_circuit_word :
    cirEn 0x020C4107 = true ∧ cirType 0x020C4107 = 3 ∧ cirSet 0x020C4107 = 0 ∧ cirPorts 0x020C4107 = [0, 1, 2, 3] ∧
      cirRefVolt 0x020C4107 = 0 ∧ cirNv 0x020C4107 = 3 := by decide +kernel

/-- Chapter 10: the words of circuits 2 and 3, and the whole map. -/
theorem test_circuit_map :
    cirPorts 0x041CC50F = [4, 5, 6, 7] ∧ cirSet 0x041CC50F = 1 ∧ cirPorts 0x002D4905 = [8, 9, 10] ∧ cirType 0x002D4905 = 2 ∧
      cirMapOk [0x020C4107, 0x041CC50F, 0x002D4905, 0, 0, 0, 0, 0] = true := by decide +kernel

/-- Chapter 2, scaling: PFS 873,520,000 mW and a quantum of 100 µWh. -/
theorem test_energy_constant : keOf 873520000 100 = 0x4BD38E38E38E ∧ rateOk 3 873520000 100 = true := by decide +kernel

/-- Chapter 2, AP_IMP before and after the close, as bytes of the snapshot block. -/
theorem test_accumulator :
    leBytes 12 (accAdd 0x000000001F3A0C4080000000 0x44E155555555).toNat =
      ([0x55, 0x55, 0x55, 0xD5, 0x21, 0x51, 0x3A, 0x1F, 0, 0, 0, 0] : List Byte) := by decide +kernel

/-- Chapter 2: the close of one cycle of 640 samples adds 17,633 quanta and a fraction. -/
theorem test_cycle_quanta : quanta 0x4BD38E38E38E 640 (317400 / 873520) / 2 ^ 32 = 17633 := by decide +kernel

/-- Chapter 2: P of the result block. -/
theorem test_power_field : powerField (317400 / 873520) = ([0xE7, 0x4F, 0xD0, 0x05] : List Byte) := by decide +kernel

/-- Chapter 4: the record of port 1 in CAL_I. -/
theorem test_cal_record :
    calPairBytes (withComplement { gain := 0x4011EE, phase := 0xFF17, offset := 0 }) =
      ([0xEE, 0x11, 0x40, 0x11, 0xEE, 0xBF, 0x17, 0xFF, 0xE8, 0, 0, 0, 0, 0xFF, 0xFF, 0xFF] : List Byte) := by decide +kernel

/-- Chapter 5: the header of page 2 and the GROUP field of page 5 in the checkpoint with GSEQ 0x2A72. -/
theorem test_slot_header :
    (slotImage 0x1A3C5 (groupWord 0x2A72 2) []).take 12 =
        ([0xC5, 0xA3, 0x3A, 0x5C, 0xC5, 0xA3, 0x01, 0x00, 0x72, 0x2A, 0x02, 0x80] : List Byte) ∧
      groupWord 0x2A72 5 = 0xB0022A72 ∧ slotValid (slotImage 0x1A3C5 (groupWord 0x2A72 2) []) = true := by decide +kernel

/-- Chapter 8: the entry of unit 2's circuit 1 at offset 16. -/
theorem test_balance_entry :
    (balPayload .zero [(1, 0, 0x0000010366400000)]).drop 16 = ([1, 0, 0, 0, 0x40, 0x66, 3, 1, 0, 0] : List Byte) := by decide +kernel

/-- Chapter 8: 317.4 kW against branches of 316.2 kW for 1 s, TH 0.25 %, the tenth interval in a row beyond it. -/
theorem test_balance_group :
    ((computeGroup .zero false
        [{ unit := 1, start := .zero, entries := [(1, 0, 5778090666667)] }, { unit := 2, start := .zero, entries := [(1, 0, 5756245333333)] }] 0
        { desc := padTo 64 ([1, 1, 250, 0, 10, 1, 1, 1, 10, 0, 2, 1]), seq := 9, run := 9, alarm := false, result := [] }).1.result.take 8 =
        ([10, 0, 0, 0, 0x80, 0, 1, 10] : List Byte)) ∧
      leAt (computeGroup .zero false
        [{ unit := 1, start := .zero, entries := [(1, 0, 5778090666667)] }, { unit := 2, start := .zero, entries := [(1, 0, 5756245333333)] }] 0
        { desc := padTo 64 ([1, 1, 250, 0, 10, 1, 1, 1, 10, 0, 2, 1]), seq := 9, run := 9, alarm := false, result := [] }).1.result 44 4 =
        0x60C9 := by decide +kernel

/-- Chapter 11: a poll without downlink data takes 10 robust symbols and 18.0 ms. -/
theorem test_poll_length : robustSyms (List.replicate 11 0) = 10 ∧ frameNs (List.replicate 11 0) = 18000000 := by decide

/-- Chapter 11: the FCH of pod 7's reply. -/
theorem test_reply_fch :
    fchTyp 0x0000E0CD2 = 2 ∧ fchMapsel 0x0000E0CD2 = true ∧ fchMapver 0x0000E0CD2 = 6 ∧ fchIdx 0x0000E0CD2 = 7 := by decide

/-- Chapter 12: the Gray codes of 0x7E and 0x7F, and a sample that sees the counter move from one to the other. -/
theorem test_gray_sample :
    grayOf 0x7E = 0x41 ∧ grayOf 0x7F = 0x40 ∧
      (({ on.s0[(0 : Fin 8)] with gray := 0x40, sampled := 0x41, total := 5 } : S0In).sample .zero).total = 6 := by decide +kernel

/-- Chapter 12: S0_0_CFG with EN and a debounce of 5,000 µs. -/
theorem test_s0_word : s0CfgWord { on.s0[(0 : Fin 8)] with en := true, debounce := 5000 } = 0x13880001 := by decide +kernel

/-- Chapter 13: shape 4 of band 3, 24 frames of 20 ms: net DC +6, and +3 in the frames after frame 8. -/
def lutHall : List Byte :=
  [24, 20, 4] ++ List.replicate 189 0 ++ [0x66, 0x56, 0x55, 0x55, 0xAA, 0] ++ List.replicate 186 0

theorem test_shape : shapeNet lutHall 4 = 6 ∧ shapeDcFrom lutHall 4 9 = 3 := by decide +kernel

/-- Chapter 15: HW_LIFECYCLE of a SEALED unit, after its unsealing and after the next seal. -/
theorem test_lifecycle_word :
    hwLifecycle { on.sec with state := .sealed, debug := 0, sealBreaks := 2 } = 0x202 ∧
      hwLifecycle { on.sec with state := .opened, debug := 0, sealBreaks := 3 } = 0x301 ∧
      hwLifecycle { on.sec with state := .sealed, debug := 0, sealBreaks := 3 } = 0x302 := by decide +kernel

/-! ### Single steps -/

/-- R287: HW_ID on the first four bytes. -/
theorem test_step_reads_id :
    (after (step { on with pending := [.regRead 0 (.plain 4)] })).hw.hmiso = ([0x24, 0x48, 0xB0, 0x01] : List Byte) := by decide +kernel

/-- Chapter 9: unit 3 refuses the local ping, its last tag being in use. -/
def fullUnit : State :=
  ((on.modRing (fun r => { r with addr := 3 })).modMb (fun m =>
      { m with tags := Vector.replicate 64 (some (request 0x0100 0 [] 0)),
               win := memPuts 0 [] 0 [0, 1, 0, 0, 0, 0, 7, 0, 0, 0, 0xFF, 0xFE, 0, 0, 0, 0] })).modHw (fun h =>
    { h with cmdPi := 1, rspPi := 0, rspCi := 0 })

/-- The tags of `fullUnit` are held by commands of the ring, which need no room in the response ring. -/
def busyUnit : State :=
  fullUnit.modMb (fun m => { m with tags := Vector.replicate 64 (some { request 0x0100 0 [] 0 with origin := .ring 1 5 }) })

theorem test_step_refuses_ping :
    (rspSlot (after (step { busyUnit with pending := [.descriptorConsume] })) 0).take 16 =
      ([0, 1, 1, 3, 0xFF, 0, 7, 0, 0, 0, 0, 0, 0, 0, 0, 0] : List Byte) := by decide +kernel

/-- Chapter 10: the unit accepts the map; its store is asked for and the command waits for it. -/
def mapBulk : List Byte :=
  [0xFF, 0, 0, 0, 0xFF, 0xFF, 0xFF, 0, 0x07, 0x41, 0x0C, 0x02, 0x0F, 0xC5, 0x1C, 0x04, 0x05, 0x49, 0x2D, 0] ++ List.replicate 20 0 ++
    (List.replicate 11 ([0x47, 0, 0, 0] : List Byte)).flatten ++ (List.replicate 13 ([0x42, 0, 0, 0] : List Byte)).flatten

theorem test_step_accepts_map :
    let t := after (step { lifeOf .opened 0 (givenBulk 0x0301 7 [] mapBulk on) with pending := [.cirMapWrite 0] })
    t.firn.reqs.map (fun r => (r.tag, r.change)) =
        [(some 0, .cirMap (mapCirs mapBulk) (mapPorts mapBulk))] ∧
      mapBulk.length = 136 ∧ t.hw.rspPi = 0 := by decide +kernel

/-- Chapter 10: on a SEALED unit the same command is answered at once and nothing is stored, since it changes TYPE. -/
theorem test_step_sealed_map :
    let t := after (step { lifeOf .sealed 0 (givenBulk 0x0301 7 [] mapBulk on) with pending := [.cirMapWrite 0] })
    t.firn.reqs = [] ∧ t.hw.rspPi = 1 := by decide +kernel

/-- R367: one pulse moves the Gray counter from 0 to 1. -/
theorem test_step_pulse :
    ((after (step { on.modS0 0 (fun i => { i with en := true }) with aux := { on.aux with powered := true }, pending := [.s0Pulse 0] })).s0[
      (0 : Fin 8)]).gray = 1 := by decide +kernel

/-- On an empty queue the block idles. -/
theorem test_step_idles : step on = .next on := rfl

/-! ### States and operands that meet the hypotheses of the statements -/


/-- States and operands for the clauses of StepRunsFrontCommand. -/
theorem wit_StepRunsFrontCommand :
    (∃ (s : State), s.pending = []) :=
  ⟨headOf (lifeOf .factory 1 on), by decide +kernel⟩

/-- States and operands for the clauses of HostReadsReturnTheirData. -/
theorem wit_HostReadsReturnTheirData :
    (∃ (s : State) (a : ℕ), 28 ≤ a) ∧
    (∃ (s : State) (addr : Byte) (n : ℕ), s.power.state ≠ PowerState.off) ∧
    (∃ (s : State) (addr c : Byte), s.power.state ≠ PowerState.off ∧ (BitVec.toNat c + 1) % 4 = 0) ∧
    (∃ (s : State) (addr c : Byte), s.power.state ≠ PowerState.off ∧ (BitVec.toNat c + 1) % 4 ≠ 0) ∧
    (∃ (s : State) (addr : BitVec 16) (n : ℕ), s.coreOn = true) ∧
    (∃ (s : State) (addr : BitVec 16) (c : Byte), s.coreOn = true) ∧
    (∃ (s : State) (addr : BitVec 16) (n : ℕ), s.power.state ≠ PowerState.off ∧ s.coreOn = false) ∧
    (∃ (s : State) (addr : BitVec 16) (n : ℕ) (v : Vector Totals 24), s.coreOn = true ∧ s.hw.loaded = true ∧ s.energy.hostLatch.image = some v) ∧
    (∃ (s : State) (addr : BitVec 16) (c : Byte) (v : Vector Totals 24), s.coreOn = true ∧ s.hw.loaded = true ∧ s.energy.hostLatch.image = some v) ∧
    (∃ (s : State) (addr : BitVec 16) (n : ℕ), s.power.state ≠ PowerState.off ∧ (s.coreOn && s.hw.loaded) = false) ∧
    (∃ (s : State) (code : Byte), s.power.state ≠ PowerState.off) :=
  ⟨
    ⟨on, 0x1C, by decide +kernel⟩,
    ⟨on, 0, 12, by decide +kernel⟩,
    ⟨on, 0, 3, by decide +kernel⟩,
    ⟨on, 0, 0, by decide +kernel⟩,
    ⟨on, 0, 12, by decide +kernel⟩,
    ⟨on, 0, 3, by decide +kernel⟩,
    ⟨on.modPower (fun p => { p with state := .hold }), 0, 12, by decide +kernel⟩,
    ⟨{ on with energy := { on.energy with hostLatch := { image := some (on.circuits.map (fun c => c.totals)), seq := 1 } } }, 0, 12, on.circuits.map
        (fun c => c.totals), by decide +kernel⟩,
    ⟨{ on with energy := { on.energy with hostLatch := { image := some (on.circuits.map (fun c => c.totals)), seq := 1 } } }, 0, 3, on.circuits.map
        (fun c => c.totals), by decide +kernel⟩,
    ⟨on.modPower (fun p => { p with state := .hold }), 0, 12, by decide +kernel⟩,
    ⟨on, 0, by decide +kernel⟩⟩

/-- States and operands for the clauses of RegisterWritesTakeEffect. -/
theorem wit_RegisterWritesTakeEffect :
    (∃ (s : State) (data : List Byte), s.power.state ≠ PowerState.off ∧ data.length = 4) ∧
    (∃ (s : State) (data : List Byte), s.coreOn = true ∧ data.length = 4) ∧
    (∃ (s : State) (addr : Byte) (data : List Byte), s.power.state ≠ PowerState.off ∧ data.length < 4) ∧
    (∃ (s : State) (addr : Byte) (data : List Byte) (v : Option (BitVec 16)), s.power.state ≠ PowerState.off ∧ v ≠ some (crc16 ([130, addr, 3] ++
        data))) ∧
    (∃ (s : State), s.coreOn = true ∧ s.hw.loaded = true) ∧
    (∃ (s : State), s.power.state ≠ PowerState.off ∧ (s.coreOn && s.hw.loaded) = false) ∧
    (∃ (s : State) (v : Byte), v ≠ 90) ∧
    (∃ (s : State) (v : Byte), s.coreOn = true ∧ v ≠ s.hw.cmdPi ∧ BitVec.toNat (v - s.hw.cmdCi) ≤ 16 ∧ BitVec.toNat (s.hw.cmdPi - s.hw.cmdCi) ≤
        BitVec.toNat (v - s.hw.cmdCi)) ∧
    (∃ (s : State) (v : Byte), s.coreOn = true ∧ v ≠ s.hw.cmdPi ∧ (16 < BitVec.toNat (v - s.hw.cmdCi) ∨ BitVec.toNat (v - s.hw.cmdCi) < BitVec.toNat
        (s.hw.cmdPi - s.hw.cmdCi))) ∧
    (∃ (s : State), s.coreOn = true) ∧
    (∃ (s : State) (v : Byte), s.coreOn = true ∧ v ≠ s.hw.rspCi ∧ BitVec.toNat (s.hw.rspPi - v) ≤ 64 ∧ BitVec.toNat (s.hw.rspPi - v) ≤ BitVec.toNat
        (s.hw.rspPi - s.hw.rspCi)) ∧
    (∃ (s : State) (v : Byte), s.coreOn = true ∧ v ≠ s.hw.rspCi ∧ (64 < BitVec.toNat (s.hw.rspPi - v) ∨ BitVec.toNat (s.hw.rspPi - s.hw.rspCi) <
        BitVec.toNat (s.hw.rspPi - v))) :=
  ⟨
    ⟨on, [0x5A, 1, 2, 3], by decide +kernel⟩,
    ⟨on, [0x5A, 1, 2, 3], by decide +kernel⟩,
    ⟨on, 4, [1, 2, 3], by decide +kernel⟩,
    ⟨on, 4, [0x5A, 1, 2, 3], none, by decide +kernel⟩,
    ⟨on, by decide +kernel⟩,
    ⟨on.modPower (fun p => { p with state := .hold }), by decide +kernel⟩,
    ⟨on, 0, by decide +kernel⟩,
    ⟨on, 2, by decide +kernel⟩,
    ⟨on, 250, by decide +kernel⟩,
    ⟨on, by decide +kernel⟩,
    ⟨on.modHw (fun h => { h with cmdPi := 255, cmdCi := 251, rspPi := 2, rspCi := 254 }), 0, by decide +kernel⟩,
    ⟨on, 2, by decide +kernel⟩⟩

/-- States and operands for the clauses of WindowWriteStoresUnlockedBytes. -/
theorem wit_WindowWriteStoresUnlockedBytes :
    (∃ (s : State) (addr : BitVec 16) (data : List Byte), s.coreOn = true) ∧
    (∃ (s : State) (addr : BitVec 16) (data : List Byte) (f : CrcForm), s.coreOn = true ∧ f.check = some (crc16 ([138] ++ leBytes 2 addr.toNat ++
        [f.count] ++ data)) ∧ data.length = BitVec.toNat f.count + 1) ∧
    (∃ (s : State) (addr : BitVec 16) (data : List Byte) (f : CrcForm), s.coreOn = true ∧ (f.check ≠ some (crc16 ([138] ++ leBytes 2 addr.toNat ++
        [f.count] ++ data)) ∨ data.length ≠ BitVec.toNat f.count + 1)) ∧
    (∃ (s : State) (addr : BitVec 16) (data : List Byte), s.power.state ≠ PowerState.off ∧ s.coreOn = false) :=
  ⟨
    ⟨headOf (lifeOf .factory 1 on), 0, [], by decide +kernel⟩,
    ⟨on, 0x2000, [7], ⟨0, some (crc16 ([0x8A] ++ leBytes 2 0x2000 ++ [0] ++ [7]))⟩, by decide +kernel⟩,
    ⟨on, 0x2000, [7], ⟨0, some (crc16 ([0x8A] ++ leBytes 2 0x2000 ++ [0] ++ [7]) + 1)⟩, by decide +kernel⟩,
    ⟨on.modPower (fun p => { p with state := .hold }), 0, [], by decide +kernel⟩⟩

/-- Operands for the clauses within WindowWriteStoresUnlockedBytes: an open and a held command slot at their last byte, the first byte of a bulk
window that the host owns and one that a command holds, and the first byte beyond the command ring and beyond the bulk window. -/
theorem wit_WindowWriteAreas :
    (∃ (s : State) (addr : BitVec 16) (k : ℕ), s.coreOn = true ∧ addr.toNat + k = 0x03FF ∧ slotLocked s.hw ((addr.toNat + k) / 64) = false) ∧
    (∃ (s : State) (addr : BitVec 16) (k : ℕ), s.coreOn = true ∧ addr.toNat + k = 0x003F ∧ slotLocked s.hw ((addr.toNat + k) / 64) = true) ∧
    (∃ (s : State) (addr : BitVec 16) (k : ℕ), s.coreOn = true ∧ addr.toNat + k = 0x2000 ∧ (s.mb.bulk = .free ∨ s.mb.bulk = .filling)) ∧
    (∃ (s : State) (addr : BitVec 16) (k : ℕ), s.coreOn = true ∧ addr.toNat + k = 0x2000 ∧ ¬(s.mb.bulk = .free ∨ s.mb.bulk = .filling)) ∧
    (∃ (s : State) (addr : BitVec 16) (k : ℕ), s.coreOn = true ∧ addr.toNat + k = 0x0400 ∧ ¬(0x2000 ≤ addr.toNat + k ∧ addr.toNat + k < 0x3000)) ∧
    (∃ (s : State) (addr : BitVec 16) (k : ℕ), s.coreOn = true ∧ addr.toNat + k = 0x3000 ∧ ¬(0x2000 ≤ addr.toNat + k ∧ addr.toNat + k < 0x3000)) :=
  ⟨
    ⟨on, 0x03FE, 1, by decide +kernel⟩,
    ⟨on.modHw (fun h => { h with cmdPi := 1 }), 0x003E, 1, by decide +kernel⟩,
    ⟨on, 0x1FFF, 1, by decide +kernel⟩,
    ⟨givenBulk 0x0301 7 [] [1, 2] on, 0x1FFF, 1, by decide +kernel⟩,
    ⟨on, 0x03FF, 1, by decide +kernel⟩,
    ⟨on, 0x2FFF, 1, by decide +kernel⟩⟩

/-- States and operands for the clauses of ConsumerDecidesDescriptors. -/
theorem wit_ConsumerDecidesDescriptors :
    (∃ (s : State) (d : List Byte), s.coreOn = true ∧ s.hw.cmdCi ≠ s.hw.cmdPi ∧ d = memSlice 0 s.mb.win (64 * (BitVec.toNat s.hw.cmdCi % 16)) 64 ∧ 64
        ≤ BitVec.toNat (s.hw.rspPi - s.hw.rspCi) + localTags s.mb) ∧
    (∃ (s : State) (d : List Byte), s.coreOn = true ∧ s.hw.cmdCi ≠ s.hw.cmdPi ∧ d = memSlice 0 s.mb.win (64 * (BitVec.toNat s.hw.cmdCi % 16)) 64 ∧
        BitVec.toNat (s.hw.rspPi - s.hw.rspCi) + localTags s.mb < 64) :=
  ⟨
    ⟨on.modHw (fun h => { h with cmdPi := 1, rspPi := 64 }), memSlice 0 (on.modHw (fun h => { h with cmdPi := 1, rspPi := 64 })).mb.win (64 *
        (BitVec.toNat (on.modHw (fun h => { h with cmdPi := 1, rspPi := 64 })).hw.cmdCi % 16)) 64, by decide +kernel⟩,
    ⟨(on.modHw (fun h => { h with cmdPi := 1 })).modMb (fun m => { m with win := memPuts 0 [] 0 (desc 0x0100 0 [] 0) }), memSlice 0 ((on.modHw (fun h
        => { h with cmdPi := 1 })).modMb (fun m => { m with win := memPuts 0 [] 0 (desc 0x0100 0 [] 0) })).mb.win (64 * (BitVec.toNat ((on.modHw (fun
        h => { h with cmdPi := 1 })).modMb (fun m => { m with win := memPuts 0 [] 0 (desc 0x0100 0 [] 0) })).hw.cmdCi % 16)) 64, by decide +kernel⟩⟩

/-- States and operands for the clauses of AnswerPlacesResponse. -/
theorem wit_AnswerPlacesResponse :
    (∃ (t : Fin 64) (st : Status) (pay bulk : List Byte) (s : State) (c : Cmd), s.mb.tags[t] = some c ∧ pay.length ≤ 48 ∧ bulk.length ≤ 4096 ∧ isLocal
        c = true) ∧
    (∃ (t : Fin 64) (st : Status) (pay : List Byte) (bulk : List Byte) (s : State) (c : Cmd) (k : ℕ), s.mb.tags[t] = some c ∧ pay.length ≤ 48 ∧
        bulk.length ≤ 4096 ∧ isLocal c = true ∧ k < bulk.length) ∧
    (∃ (t : Fin 64) (st : Status) (pay : List Byte) (bulk : List Byte) (s : State) (c : Cmd) (a : ℕ), s.mb.tags[t] = some c ∧ pay.length ≤ 48 ∧
        bulk.length ≤ 4096 ∧ isLocal c = true ∧ (a < 1024 + 64 * (BitVec.toNat s.hw.rspPi % 64) ∨ 1024 + 64 * (BitVec.toNat s.hw.rspPi % 64) + 64 ≤
        a) ∧ (a < 8192 ∨ 8192 + bulk.length ≤ a)) ∧
    (∃ (t : Fin 64) (st : Status) (pay : List Byte) (bulk : List Byte) (s : State) (c : Cmd), s.mb.tags[t] = some c ∧ pay.length ≤ 48 ∧ bulk.length
        ≤ 4096 ∧ isLocal c = true ∧ s.mb.bulk = BulkState.claimed t) ∧
    (∃ (t : Fin 64) (st : Status) (pay : List Byte) (bulk : List Byte) (s : State) (c : Cmd), s.mb.tags[t] = some c ∧ pay.length ≤ 48 ∧ bulk.length
        ≤ 4096 ∧ isLocal c = true ∧ s.mb.bulk ≠ BulkState.claimed t) ∧
    (∃ (t : Fin 64) (st : Status) (pay bulk : List Byte) (s : State) (c : Cmd), s.mb.tags[t] = some c ∧ pay.length ≤ 48 ∧ bulk.length ≤ 4096 ∧ isLocal
        c = false) ∧
    (∃ (t : Fin 64) (st : Status) (pay bulk : List Byte) (s : State) (c : Cmd) (u : Fin 64), s.mb.tags[t] = some c ∧ pay.length ≤ 48 ∧ bulk.length ≤
        4096 ∧ u ≠ t) :=
  ⟨
    ⟨0, Status.ok, [1, 2, 3], [4, 0, 6], given 0x0100 0 [] on, cmdIn ((given 0x0100 0 [] on)), by decide +kernel⟩,
    ⟨0, .ok, [1, 2, 3], [4, 0, 6], given 0x0100 0 [] on, cmdIn (given 0x0100 0 [] on), 2, by decide +kernel⟩,
    ⟨0, .ok, [1, 2, 3], [4, 0, 6], given 0x0100 0 [] on, cmdIn (given 0x0100 0 [] on), 8195, by decide +kernel⟩,
    ⟨0, .ok, [1, 2, 3], [4, 0, 6], givenBulk 0x0301 7 [] [1, 2] on, cmdIn (givenBulk 0x0301 7 [] [1, 2] on), by decide +kernel⟩,
    ⟨0, .ok, [1, 2, 3], [4, 0, 6], given 0x0100 0 [] on, cmdIn (given 0x0100 0 [] on), by decide +kernel⟩,
    ⟨0, Status.ok, [1, 2, 3], [4, 0, 6], (given 0x0100 0 [] on).modMb (fun m =>
        { m with tags := m.tags.set 0 (some { cmdOf (desc 0x0100 0 [] 0) 0 with origin := .ring 5 9 }) }), cmdIn (((given 0x0100 0 [] on).modMb (fun m
        => { m with tags := m.tags.set 0 (some { cmdOf (desc 0x0100 0 [] 0) 0 with origin := .ring 5 9 }) }))), by decide +kernel⟩,
    ⟨0, Status.ok, [1, 2, 3], [4, 0, 6], given 0x0100 0 [] on, cmdIn ((given 0x0100 0 [] on)), 1, by decide +kernel⟩⟩

/-- States and operands for the clauses of CommonChecksRefuse. -/
theorem wit_CommonChecksRefuse :
    (∃ (row : CmdRow) (body : CmdIn → State → Reply) (t : Fin 64) (c : Cmd) (s : State), s.mb.tags[t] = some c ∧ leAt c.desc 0 2 = row.op ∧ startable
        t c s = true ∧ leAt c.desc 2 1 % 4 ≠ row.lane) ∧
    (∃ (row : CmdRow) (body : CmdIn → State → Reply) (t : Fin 64) (c : Cmd) (s : State), s.mb.tags[t] = some c ∧ leAt c.desc 0 2 = row.op ∧ startable
        t c s = true ∧ leAt c.desc 2 1 % 4 = row.lane ∧ (leAt c.desc 5 1 ≠ row.len ∨ (leAt c.desc 2 1).testBit 2 ≠ row.bulkIn.isSome ∨ (leAt c.desc 2
        1).testBit 3 ≠ row.bulkOut ∨ row.bulkIn = none ∧ leAt c.desc 8 2 ≠ 0)) ∧
    (∃ (row : CmdRow) (body : CmdIn → State → Reply) (t : Fin 64) (c : Cmd) (s : State), s.mb.tags[t] = some c ∧ leAt c.desc 0 2 = row.op ∧ startable
        t c s = true ∧ leAt c.desc 2 1 % 4 = row.lane ∧ lengthsOk row c.desc (dPayload c.desc) (bulkOf c s) = true ∧ row.head = true ∧ s.ring.isHead =
        false) ∧
    (∃ (row : CmdRow) (body : CmdIn → State → Reply) (t : Fin 64) (c : Cmd) (s : State), s.mb.tags[t] = some c ∧ leAt c.desc 0 2 = row.op ∧ startable
        t c s = true ∧ leAt c.desc 2 1 % 4 = row.lane ∧ lengthsOk row c.desc (dPayload c.desc) (bulkOf c s) = true ∧ (row.head = true → s.ring.isHead
        = true) ∧ row.spiOnly = true ∧ c.origin ≠ Origin.host) ∧
    (∃ (row : CmdRow) (body : CmdIn → State → Reply) (t : Fin 64) (c : Cmd) (s : State), s.mb.tags[t] = some c ∧ leAt c.desc 0 2 = row.op ∧ startable
        t c s = true ∧ leAt c.desc 2 1 % 4 = row.lane ∧ lengthsOk row c.desc (dPayload c.desc) (bulkOf c s) = true ∧ (row.head = true → s.ring.isHead
        = true) ∧ (row.spiOnly = true → c.origin = Origin.host) ∧ row.states.contains s.sec.state = false ∧ s.sec.state ≠ .sealed) ∧
    (∃ (row : CmdRow) (body : CmdIn → State → Reply) (t : Fin 64) (c : Cmd) (s : State), s.mb.tags[t] = some c ∧ leAt c.desc 0 2 = row.op ∧ startable
        t c s = true ∧ leAt c.desc 2 1 % 4 = row.lane ∧ lengthsOk row c.desc (dPayload c.desc) (bulkOf c s) = true ∧ (row.head = true → s.ring.isHead
        = true) ∧ (row.spiOnly = true → c.origin = Origin.host) ∧ row.states.contains s.sec.state = false ∧ s.sec.state = .sealed ∧ row.ordered =
        false) ∧
    (∃ (row : CmdRow) (body : CmdIn → State → Reply) (t : Fin 64) (c : Cmd) (s : State), s.mb.tags[t] = some c ∧ leAt c.desc 0 2 = row.op ∧ startable
        t c s = true ∧ leAt c.desc 2 1 % 4 = row.lane ∧ lengthsOk row c.desc (dPayload c.desc) (bulkOf c s) = true ∧ (row.head = true → s.ring.isHead
        = true) ∧ (row.spiOnly = true → c.origin = Origin.host) ∧ row.states.contains s.sec.state = true ∧ row.d2 = true ∧ s.sec.debug = 2) ∧
    (∃ (row : CmdRow) (body : CmdIn → State → Reply) (t : Fin 64) (c : Cmd) (s : State), s.mb.tags[t] = some c ∧ leAt c.desc 0 2 = row.op ∧ startable
        t c s = true ∧ leAt c.desc 2 1 % 4 = row.lane ∧ lengthsOk row c.desc (dPayload c.desc) (bulkOf c s) = true ∧ (row.head = true → s.ring.isHead
        = true) ∧ (row.spiOnly = true → c.origin = Origin.host) ∧ row.states.contains s.sec.state = true ∧ row.d2 = false ∧ row.lean = false ∧ (∃ p ∈
        row.pairs, pairOk p.2 (dPayload c.desc) p.1 = false)) ∧
    (∃ (row : CmdRow) (body : CmdIn → State → Reply) (t : Fin 64) (c : Cmd) (s : State), s.mb.tags[t] = some c ∧ leAt c.desc 0 2 = row.op ∧ startable
        t c s = true ∧ leAt c.desc 2 1 % 4 = row.lane ∧ lengthsOk row c.desc (dPayload c.desc) (bulkOf c s) = true ∧ (row.head = true → s.ring.isHead
        = true) ∧ (row.spiOnly = true → c.origin = Origin.host) ∧ row.states.contains s.sec.state = true ∧ row.d2 = false ∧ row.lean = false ∧ (∀ p ∈
        row.pairs, pairOk p.2 (dPayload c.desc) p.1 = true) ∧ (∃ r ∈ row.rsv, leAt (dPayload c.desc) r.1 r.2 ≠ 0)) ∧
    (∃ (t : Fin 64) (c : Cmd) (s : State), s.mb.tags[t] = some c ∧ startable t c s = true ∧ leAt c.desc 0 2 ≠ 256 ∧ (∀ p ∈ [(1, 1), (2, 6), (3, 5),
        (4, 13), (5, 7), (6, 9), (7, 18), (8, 4), (9, 9), (10, 9), (11, 7), (12, 8), (13, 4), (14, 3)], leAt c.desc 0 2 ≤ 256 * p.1 ∨ 256 * p.1 + p.2
        < leAt c.desc 0 2)) :=
  ⟨
    ⟨{ op := 0x0101, lane := 1, len := 0 }, fun _ s => .done .ok [] [] s, 0, cmdIn ((given 0x0101 0 [] on)), given 0x0101 0 [] on, by decide +kernel⟩,
    ⟨{ op := 0x0101, lane := 1, len := 0 }, fun _ s => .done .ok [] [] s, 0, cmdIn ((given 0x0101 1 [0] on)), given 0x0101 1 [0] on,
        by decide +kernel⟩,
    ⟨{ op := 0x0101, lane := 1, len := 3, head := true, spiOnly := true, states := [.opened], d2 := true }, fun _ s => .done .ok [] [] s, 0, cmdIn
        ((given 0x0101 1 [0, 0, 0] on)), given 0x0101 1 [0, 0, 0] on, by decide +kernel⟩,
    ⟨{ op := 0x0101, lane := 1, len := 3, head := true, spiOnly := true, states := [.opened], d2 := true }, fun _ s => .done .ok [] [] s, 0, cmdIn
        ((((given 0x0101 1 [0, 0, 0] on).modMb (fun m =>
        { m with tags := m.tags.set 0 (some { cmdOf (desc 0x0101 1 [0, 0, 0] 0) 0 with origin := .mp }) })).modRing (fun r =>
        { r with isHead := true }))), ((given 0x0101 1 [0, 0, 0] on).modMb (fun m =>
        { m with tags := m.tags.set 0 (some { cmdOf (desc 0x0101 1 [0, 0, 0] 0) 0 with origin := .mp }) })).modRing (fun r =>
        { r with isHead := true }), by decide +kernel⟩,
    ⟨{ op := 0x0101, lane := 1, len := 3, head := true, spiOnly := true, states := [.opened], d2 := true }, fun _ s => .done .ok [] [] s, 0, cmdIn
        (((given 0x0101 1 [0, 0, 0] on).modRing (fun r => { r with isHead := true }))), (given 0x0101 1 [0, 0, 0] on).modRing (fun r =>
        { r with isHead := true }), by decide +kernel⟩,
    ⟨{ op := 0x0101, lane := 1, len := 3, head := true, spiOnly := true, states := [.opened], d2 := true }, fun _ s => .done .ok [] [] s, 0, cmdIn
        (((given 0x0101 1 [0, 0, 0] { on with sec := { on.sec with state := .sealed } }).modRing (fun r => { r with isHead := true }))), (given 0x0101
        1 [0, 0, 0] { on with sec := { on.sec with state := .sealed } }).modRing (fun r => { r with isHead := true }), by decide +kernel⟩,
    ⟨{ op := 0x0101, lane := 1, len := 3, head := true, spiOnly := true, states := [.opened], d2 := true }, fun _ s => .done .ok [] [] s, 0, cmdIn
        (((given 0x0101 1 [0, 0, 0] { on with sec := { on.sec with state := .opened, debug := 2 } }).modRing (fun r => { r with isHead := true }))),
        (given 0x0101 1 [0, 0, 0] { on with sec := { on.sec with state := .opened, debug := 2 } }).modRing (fun r => { r with isHead := true }),
        by decide +kernel⟩,
    ⟨{ op := 0x0101, lane := 1, len := 3, pairs := [(0, 1)], rsv := [(2, 1)] }, fun _ s => .done .ok [] [] s, 0, cmdIn ((given 0x0101 1 [0, 0, 0]
        on)), given 0x0101 1 [0, 0, 0] on, by decide +kernel⟩,
    ⟨{ op := 0x0101, lane := 1, len := 3, pairs := [(0, 1)], rsv := [(2, 1)] }, fun _ s => .done .ok [] [] s, 0, cmdIn ((given 0x0101 1 [0, 255, 1]
        on)), given 0x0101 1 [0, 255, 1] on, by decide +kernel⟩,
    ⟨0, cmdIn ((given 0x0102 1 [] on)), given 0x0102 1 [] on, by decide +kernel⟩⟩

/-- States and operands for the clauses of MpResetDropsWork. -/
theorem wit_MpResetDropsWork :
    (∃ (s : State) (i : Instr), s.coreOn = true ∧ (i = Instr.mpReset ∨ i = Instr.force 90 ∨ i = Instr.watchdogExpiry ∧ s.hw.mpRun = true ∧ s.mp.halted
        = false)) ∧
    (∃ (s : State), s.coreOn = true ∧ (s.hw.mpRun = false ∨ s.mp.halted = true)) ∧
    (∃ (s : State) (i : Instr), s.coreOn = false ∧ (i = Instr.mpReset ∨ i = Instr.force 90 ∨ i = Instr.watchdogExpiry)) :=
  ⟨
    ⟨given 0x0100 0 [] on, .mpReset, by decide +kernel⟩,
    ⟨on.modMp (fun m => { m with halted := true }), by decide +kernel⟩,
    ⟨State.reset, .force 90, by decide +kernel⟩⟩

/-- States and operands for the clauses of FirmwareAndDebugEvents. -/
theorem wit_FirmwareAndDebugEvents :
    (∃ (s : State), s.coreOn = true ∧ s.mb.bulk = BulkState.filling ∧ s.mb.fillAt + 3200 ≤ s.time.ticks) ∧
    (∃ (s : State) (t : Fin 64) (c : Cmd), s.coreOn = true ∧ s.mb.tags[t] = some c ∧ c.remote = true ∧ (c.claimed + match leAt c.desc 2 1 % 4 with
        | 0 => 640 | 1 => 3200 | 2 => 32000 | x => 320000) ≤ s.time.ticks) ∧
    (∃ (s : State), s.coreOn = true ∧ s.hw.loaded = true ∧ s.hw.mpReady = false ∧ s.hw.swapping = false ∧ (s.mp.banks[if s.hw.bank = true then (1 :
        Fin 2) else 0].st = BankState.running ∨ s.mp.banks[if s.hw.bank = true then (1 : Fin 2) else 0].st = BankState.verified)) ∧
    (∃ (s : State), s.coreOn = true ∧ s.hw.loaded = true ∧ s.hw.mpReady = false ∧ s.hw.swapping = false ∧ s.mp.banks[if s.hw.bank = true then (1 : Fin
        2) else 0].st ≠ BankState.running ∧ s.mp.banks[if s.hw.bank = true then (1 : Fin 2) else 0].st ≠ BankState.verified ∧ (s.mp.banks[if s.hw.bank
        = true then (0 : Fin 2) else 1].st = BankState.running ∨ s.mp.banks[if s.hw.bank = true then (0 : Fin 2) else 1].st = BankState.verified)) ∧
    (∃ (s : State), s.coreOn = true ∧ s.hw.loaded = true ∧ s.hw.mpReady = false ∧ s.hw.swapping = false ∧ s.mp.banks[if s.hw.bank = true then (1 : Fin
        2) else 0].st ≠ BankState.running ∧ s.mp.banks[if s.hw.bank = true then (1 : Fin 2) else 0].st ≠ BankState.verified ∧ s.mp.banks[if s.hw.bank
        = true then (0 : Fin 2) else 1].st ≠ BankState.running ∧ s.mp.banks[if s.hw.bank = true then (0 : Fin 2) else 1].st ≠ BankState.verified) ∧
    (∃ (s : State) (t : Fin 64), s.coreOn = true ∧ s.mp.swapTag = some t ∧ s.hw.swapping = true) ∧
    (∃ (s : State), s.coreOn = true ∧ s.hw.swapping = true) ∧
    (∃ (s : State), s.coreOn = true ∧ s.hw.swapping = false ∧ 2 ≤ s.mp.swapFires ∧ s.mp.swapFrom ≠ s.hw.bank) ∧
    (∃ (s : State) (d : ℕ), s.sec.debugLeft = some d ∧ s.sec.debugFrom + 32000 * d ≤ s.time.ticks ∧ s.sec.debug ≠ 0) ∧
    (∃ (s : State) (key : BitVec 512), s.coreOn = true ∧ s.sec.debug = 2 ∧ s.sec.state = .factory ∧ s.sec.makerKey = none) ∧
    (∃ (s : State) (key : BitVec 512), s.sec.debug ≠ 2 ∨ s.sec.state ≠ .factory ∨ s.sec.makerKey ≠ none) ∧
    (∃ (s : State), s.coreOn = true ∧ s.sec.debug = 2) ∧
    (∃ (s : State), s.coreOn = true ∧ s.sec.debug = 2 ∧ s.mp.halted = true) ∧
    (∃ (s : State), s.coreOn = true ∧ s.sec.debug = 2 ∧ s.hw.mpRun = true) ∧
    (∃ (s : State), s.sec.debug ≠ 2) ∧
    (∃ (s : State) (b : Bool), s.sec.debug ≠ 2) ∧
    (∃ (s : State), s.mpRuns = true ∧ s.stalled 6 = false ∧ (0 < s.mp.events ∨ s.energy.dirHw ≠ [])) :=
  ⟨
    ⟨(on.modMb (fun m => { m with bulk := .filling })).modTime (fun t => { t with ticks := 3200 }), by decide +kernel⟩,
    ⟨((given 0x0100 0 [] on).modMb (fun m => { m with tags := m.tags.set 0 (some { cmdOf (desc 0x0100 0 [] 0) 0 with remote := true }) })).modTime
        (fun t => { t with ticks := 640 }), 0, { cmdOf (desc 0x0100 0 [] 0) 0 with remote := true }, by decide +kernel⟩,
    ⟨on.modHw (fun h => { h with mpReady := false }), by decide +kernel⟩,
    ⟨(on.modHw (fun h => { h with mpReady := false })).modMp (fun m =>
        { m with banks := #v[{ FwBank.reset with st := .failed }, { FwBank.reset with st := .verified }] }), by decide +kernel⟩,
    ⟨(on.modHw (fun h => { h with mpReady := false })).modMp (fun m => { m with banks := #v[.reset, .reset] }), by decide +kernel⟩,
    ⟨(on.modHw (fun h => { h with swapping := true, mpReady := false })).modMp (fun m => { m with swapTag := some 0 }), 0, by decide +kernel⟩,
    ⟨(on.modHw (fun h => { h with swapping := true, mpReady := false })).modMp (fun m => { m with swapTag := some 0 }), by decide +kernel⟩,
    ⟨(on.modHw (fun h => { h with bank := true })).modMp (fun m => { m with swapFires := 2 }), by decide +kernel⟩,
    ⟨(on.modSec (fun k => { k with debug := 1, debugLeft := some 1 })).modTime (fun t => { t with ticks := 32000 }), 1, by decide +kernel⟩,
    ⟨on.modSec (fun k => { k with debug := 2 }), 5, by decide +kernel⟩,
    ⟨on, 5, by decide +kernel⟩,
    ⟨on.modSec (fun k => { k with debug := 2 }), by decide +kernel⟩,
    ⟨(on.modSec (fun k => { k with debug := 2 })).modMp (fun m => { m with halted := true }), by decide +kernel⟩,
    ⟨on.modSec (fun k => { k with debug := 2 }), by decide +kernel⟩,
    ⟨on, by decide +kernel⟩,
    ⟨on, true, by decide +kernel⟩,
    ⟨on.modMp (fun m => { m with events := 1 }), by decide +kernel⟩⟩

/-- States and operands for the clauses of IdentityCommandsAnswer. -/
theorem wit_IdentityCommandsAnswer :
    (∃ (t : Fin 64) (c : Cmd) (s : State), Takes { op := 0x0100, lane := 0, len := 0 } t c s) ∧
    (∃ (t : Fin 64) (c : Cmd) (s : State), Takes { op := 0x0101, lane := 1, len := 0 } t c s) ∧
    (∃ (t : Fin 64) (c : Cmd) (s : State), Takes { op := 0x0201, lane := 1, len := 0 } t c s) ∧
    (∃ (t : Fin 64) (c : Cmd) (s : State), Takes { op := 0x0204, lane := 2, len := 0, states := [.sealed] } t c s) ∧
    (∃ (t : Fin 64) (c : Cmd) (s : State), Takes { op := 0x0D01, lane := 1, len := 0 } t c s) ∧
    (∃ (t : Fin 64) (c : Cmd) (s : State), Takes { op := 0x0E01, lane := 2, len := 0, spiOnly := true } t c s) ∧
    (∃ (t : Fin 64) (c : Cmd) (s : State), Takes { op := 0x0E03, lane := 0, len := 0, spiOnly := true } t c s ∧ s.sec.debug ≠ 0) :=
  ⟨
    ⟨0, request 0x0100 0 [] 0, given 0x0100 0 [] (headOf (lifeOf .factory 1 on)), by decide +kernel⟩,
    ⟨0, request 0x0101 1 [] 0, given 0x0101 1 [] (headOf (lifeOf .factory 1 on)), by decide +kernel⟩,
    ⟨0, request 0x0201 1 [] 0, given 0x0201 1 [] (headOf (lifeOf .factory 1 on)), by decide +kernel⟩,
    ⟨0, request 0x0204 2 [] 0, given 0x0204 2 [] (headOf (lifeOf .sealed 1 on)), by decide +kernel⟩,
    ⟨0, request 0x0D01 1 [] 0, given 0x0D01 1 [] (headOf (lifeOf .factory 1 on)), by decide +kernel⟩,
    ⟨0, request 0x0E01 2 [] 0, given 0x0E01 2 [] (headOf (lifeOf .factory 1 on)), by decide +kernel⟩,
    ⟨0, request 0x0E03 0 [] 0, given 0x0E03 0 [] (headOf (lifeOf .factory 1 on)), by decide +kernel⟩⟩

/-- States and operands for the clauses of UncalibratedRefusesSeal. -/
theorem wit_UncalibratedRefusesSeal :
    (∃ (t : Fin 64) (c : Cmd) (s : State) (k : Fin 24), Takes
        { op := 0x0203, lane := 2, len := 8, states := [.opened], d2 := true, pairs := [(0, 4)] } t c s ∧ payField c 0 4 = 1279346003 ∧ cirEn
        s.circuits[k].cfg = true ∧ (∃ p ∈ cirPorts s.circuits[k].cfg, s.ports[p].uncal = true)) ∧
    (∃ (t : Fin 64) (c : Cmd) (s : State) (k : Fin 24), Takes
        { op := 0x0203, lane := 2, len := 8, states := [.opened], d2 := true, pairs := [(0, 4)] } t c s ∧ payField c 0 4 = 1279346003 ∧ cirEn
        s.circuits[k].cfg = true ∧ (∃ e < 4, ∃ v, elemVoltIdx s.circuits[k].cfg e = some v ∧ s.volts[v].uncal = true)) :=
  ⟨
    ⟨0, request 0x0203 2 [83, 69, 65, 76, 172, 186, 190, 179] 0, given 0x0203 2 [83, 69, 65, 76, 172, 186, 190, 179] (headOf (lifeOf .opened 1 on)),
        0, by decide +kernel⟩,
    ⟨0, request 0x0203 2 [83, 69, 65, 76, 172, 186, 190, 179] 0, given 0x0203 2 [83, 69, 65, 76, 172, 186, 190, 179] (headOf (lifeOf .opened 1 on)),
        0, by decide +kernel⟩⟩

/-- States and operands for the clauses of LifecycleCommandsAskForStores. -/
theorem wit_LifecycleCommandsAskForStores :
    (∃ (t : Fin 64) (c : Cmd) (s : State), s.hw.frozen = false ∧ Takes { op := 0x0202, lane := 2, len := 8, states := [.factory], pairs := [(0, 4)] }
        t c s ∧ payField c 0 4 = 1313165391) ∧
    (∃ (t : Fin 64) (c : Cmd) (s : State), s.hw.frozen = false ∧ Takes { op := 0x0202, lane := 2, len := 8, states := [.factory], pairs := [(0, 4)] }
        t c s ∧ payField c 0 4 ≠ 1313165391) ∧
    (∃ (t : Fin 64) (c : Cmd) (s : State), s.hw.frozen = false ∧ Takes
        { op := 0x0203, lane := 2, len := 8, states := [.opened], d2 := true, pairs := [(0, 4)] } t c s ∧ payField c 0 4 = 1279346003 ∧ (∀ (k : Fin
        24), cirEn s.circuits[k].cfg = true → (∀ p ∈ cirPorts s.circuits[k].cfg, s.ports[p].uncal = false) ∧ ∀ e < 4, ∀ (v : Fin 8), elemVoltIdx
        s.circuits[k].cfg e = some v → s.volts[v].uncal = false) ∧ s.sec.makerKey ≠ none) ∧
    (∃ (t : Fin 64) (c : Cmd) (s : State), s.hw.frozen = false ∧ Takes
        { op := 0x0203, lane := 2, len := 8, states := [.opened], d2 := true, pairs := [(0, 4)] } t c s ∧ payField c 0 4 = 1279346003 ∧ (∀ (k : Fin
        24), cirEn s.circuits[k].cfg = true → (∀ p ∈ cirPorts s.circuits[k].cfg, s.ports[p].uncal = false) ∧ ∀ e < 4, ∀ (v : Fin 8), elemVoltIdx
        s.circuits[k].cfg e = some v → s.volts[v].uncal = false) ∧ s.sec.makerKey = none) ∧
    (∃ (t : Fin 64) (c : Cmd) (s : State), s.hw.frozen = false ∧ Takes
        { op := 0x0203, lane := 2, len := 8, states := [.opened], d2 := true, pairs := [(0, 4)] } t c s ∧ payField c 0 4 = 1279346003 ∧ (∃ k : Fin 24,
        cirEn s.circuits[k].cfg = true ∧ ∃ p ∈ cirPorts s.circuits[k].cfg, s.ports[p].uncal = true)) ∧
    (∃ (t : Fin 64) (c : Cmd) (s : State) (n : BitVec 128) (k : BitVec 512), s.hw.frozen = false ∧ Takes
        { op := 0x0205, lane := 3, len := 0, bulkIn := some (fun x b => decide (b.length = 128)), states := [.sealed], d2 := true } t c s ∧ leAt
        (bulkOf c s) 0 4 = 1280527957 ∧ leAt (bulkOf c s) 32 32 = 0 ∧ s.sec.unsealNonce = some n ∧ n.toNat = leAt (bulkOf c s) 16 16 ∧ leAt (bulkOf c
        s) 4 4 = BitVec.toNat s.sec.sealBreaks ∧ s.sec.makerKey = some k) ∧
    (∃ (t : Fin 64) (c : Cmd) (s : State), s.hw.frozen = false ∧ Takes
        { op := 0x0205, lane := 3, len := 0, bulkIn := some (fun x b => decide (b.length = 128)), states := [.sealed], d2 := true } t c s ∧ leAt
        (bulkOf c s) 0 4 = 1280527957 ∧ leAt (bulkOf c s) 32 32 = 0 ∧ (Option.map (fun x => x.toNat) s.sec.unsealNonce ≠ some (leAt (bulkOf c s) 16
        16) ∨ leAt (bulkOf c s) 4 4 ≠ BitVec.toNat s.sec.sealBreaks)) ∧
    (∃ (t : Fin 64) (c : Cmd) (s : State), s.hw.frozen = false ∧ Takes
        { op := 0x0205, lane := 3, len := 0, bulkIn := some (fun x b => decide (b.length = 128)), states := [.sealed], d2 := true } t c s ∧ leAt
        (bulkOf c s) 0 4 ≠ 1280527957) ∧
    (∃ (t : Fin 64) (c : Cmd) (s : State), s.hw.frozen = false ∧ Takes
        { op := 0x0206, lane := 2, len := 8, states := [.factory, .opened, .sealed], d2 := true, pairs := [(0, 4)] } t c s ∧ payField c 0 4 =
        1230259538) :=
  ⟨
    ⟨0, request 0x0202 2 [79, 80, 69, 78, 176, 175, 186, 177] 0, given 0x0202 2 [79, 80, 69, 78, 176, 175, 186, 177] on, by decide +kernel⟩,
    ⟨0, request 0x0202 2 [83, 69, 65, 76, 172, 186, 190, 179] 0, given 0x0202 2 [83, 69, 65, 76, 172, 186, 190, 179] on, by decide +kernel⟩,
    ⟨0, request 0x0203 2 [83, 69, 65, 76, 172, 186, 190, 179] 0, given 0x0203 2 [83, 69, 65, 76, 172, 186, 190, 179]
        ({ on.modSec (fun k => { k with state := .opened, makerKey := some 5 }) with ports := on.ports.map (fun p => { p with uncal := false }), volts := on.volts.map (fun v => { v with uncal := false }) }),
        by decide +kernel⟩,
    ⟨0, request 0x0203 2 [83, 69, 65, 76, 172, 186, 190, 179] 0, given 0x0203 2 [83, 69, 65, 76, 172, 186, 190, 179]
        ({ on.modSec (fun k => { k with state := .opened }) with ports := on.ports.map (fun p => { p with uncal := false }), volts := on.volts.map (fun v => { v with uncal := false }) }),
        by decide +kernel⟩,
    ⟨0, request 0x0203 2 [83, 69, 65, 76, 172, 186, 190, 179] 0, given 0x0203 2 [83, 69, 65, 76, 172, 186, 190, 179] (on.modSec (fun k =>
        { k with state := .opened })), by decide +kernel⟩,
    ⟨0, request 0x0205 7 [] 128, givenBulk 0x0205 7 [] ([85, 78, 83, 76, 0, 0, 0, 0, 1] ++ List.replicate 7 0 ++ [7] ++ List.replicate 111 0)
        (on.modSec (fun k => { k with state := .sealed, makerKey := some 5, unsealNonce := some 7 })), 7, 5, by decide +kernel⟩,
    ⟨0, request 0x0205 7 [] 128, givenBulk 0x0205 7 [] ([85, 78, 83, 76, 0, 0, 0, 0, 1] ++ List.replicate 7 0 ++ [7] ++ List.replicate 111 0)
        (on.modSec (fun k => { k with state := .sealed })), by decide +kernel⟩,
    ⟨0, request 0x0205 7 [] 128, givenBulk 0x0205 7 [] (List.replicate 128 1) (on.modSec (fun k =>
        { k with state := .sealed, makerKey := some 5, unsealNonce := some 7 })), by decide +kernel⟩,
    ⟨0, request 0x0206 2 [82, 69, 84, 73, 173, 186, 171, 182] 0, given 0x0206 2 [82, 69, 84, 73, 173, 186, 171, 182] on, by decide +kernel⟩⟩

/-- States and operands for the clauses of FirmwareAndGrantCommands. -/
theorem wit_FirmwareAndGrantCommands :
    (∃ (t : Fin 64) (c : Cmd) (s : State), Takes
        { op := 0x0D02, lane := 3, len := 5, bulkIn := some (fun x d => decide (1 ≤ d.length) && decide (d.length ≤ 4096)), states := [.factory, .opened, .sealed] }
        t c s ∧ s.hw.swapping = false ∧ payField c 0 4 % 4096 = 0 ∧ payField c 0 4 < 1048576 ∧ payField c 4 1 = 0) ∧
    (∃ (t : Fin 64) (c : Cmd) (s : State), Takes
        { op := 0x0D02, lane := 3, len := 5, bulkIn := some (fun x d => decide (1 ≤ d.length) && decide (d.length ≤ 4096)), states := [.factory, .opened, .sealed] }
        t c s ∧ s.hw.swapping = false ∧ payField c 0 4 % 4096 = 0 ∧ payField c 0 4 < 1048576 ∧ payField c 4 1 = 1) ∧
    (∃ (t : Fin 64) (c : Cmd) (s : State), Takes { op := 0x0D03, lane := 3, len := 0, states := [.factory, .opened, .sealed] } t c s ∧ s.mp.banks[if
        s.hw.bank = true then (0 : Fin 2) else 1].st = BankState.empty) ∧
    (∃ (t : Fin 64) (c : Cmd) (s : State), Takes { op := 0x0D03, lane := 3, len := 0, states := [.factory, .opened, .sealed] } t c s ∧ s.mp.banks[if
        s.hw.bank = true then (0 : Fin 2) else 1].st ≠ BankState.empty) ∧
    (∃ (t : Fin 64) (c : Cmd) (s : State), Takes
        { op := 0x0D04, lane := 2, len := 2, states := [.factory, .opened, .sealed], d2 := true, pairs := [(0, 1)] } t c s ∧ payField c 0 1 = bitN
        s.hw.bank) ∧
    (∃ (t : Fin 64) (c : Cmd) (s : State), Takes
        { op := 0x0D04, lane := 2, len := 2, states := [.factory, .opened, .sealed], d2 := true, pairs := [(0, 1)] } t c s ∧ payField c 0 1 = 1 - bitN
        s.hw.bank ∧ s.mp.banks[if s.hw.bank = true then (0 : Fin 2) else 1].st ≠ BankState.verified) ∧
    (∃ (t : Fin 64) (c : Cmd) (s : State), Takes
        { op := 0x0D04, lane := 2, len := 2, states := [.factory, .opened, .sealed], d2 := true, pairs := [(0, 1)] } t c s ∧ payField c 0 1 = 1 - bitN
        s.hw.bank ∧ s.mp.banks[if s.hw.bank = true then (0 : Fin 2) else 1].st = BankState.verified ∧ s.hw.frozen = false ∧ (s.sec.state = .sealed →
        s.mp.banks[if s.hw.bank = true then (0 : Fin 2) else 1].legalHash = s.mp.banks[if s.hw.bank = true then (1 : Fin 2) else 0].legalHash)) ∧
    (∃ (t : Fin 64) (c : Cmd) (s : State) (n : BitVec 128), Takes
        { op := 0x0E02, lane := 3, len := 1, bulkIn := some fun (x b : List Byte) => decide (b.length = 128), spiOnly := true } t c s ∧ (leAt
        (bulkOf c s) 0 4 = 1196769860 ∧ leAt (bulkOf c s) 4 4 = 0 ∧ leAt (bulkOf c s) 32 1 = payField c 0 1 ∧ leAt (bulkOf c s) 33 3 = 0 ∧ leAt
        (bulkOf c s) 40 24 = 0) ∧ (payField c 0 1 = 1 ∨ payField c 0 1 = 2 ∧ s.sec.state ≠ .sealed) ∧ s.sec.debugNonce = some n ∧ n.toNat = leAt
        (bulkOf c s) 16 16) ∧
    (∃ (t : Fin 64) (c : Cmd) (s : State), Takes
        { op := 0x0E02, lane := 3, len := 1, bulkIn := some (fun x b => decide (b.length = 128)), spiOnly := true } t c s ∧ (leAt (bulkOf c s) 0 4 =
        1196769860 ∧ leAt (bulkOf c s) 4 4 = 0 ∧ leAt (bulkOf c s) 32 1 = payField c 0 1 ∧ leAt (bulkOf c s) 33 3 = 0 ∧ leAt (bulkOf c s) 40 24 = 0) ∧
        (payField c 0 1 = 1 ∨ payField c 0 1 = 2 ∧ s.sec.state ≠ .sealed) ∧ s.sec.debugNonce = none) :=
  ⟨
    ⟨0, request 0x0D02 7 [0, 16, 0, 0, 0] 128, givenBulk 0x0D02 7 [0, 16, 0, 0, 0] ([68, 66, 85, 71, 0, 0, 0, 0, 1] ++ List.replicate 7 0 ++ [7] ++
        List.replicate 15 0 ++ [1, 0, 0, 0, 60] ++ List.replicate 91 0) on, by decide +kernel⟩,
    ⟨0, request 0x0D02 7 [0, 16, 0, 0, 1] 128, givenBulk 0x0D02 7 [0, 16, 0, 0, 1] ([68, 66, 85, 71, 0, 0, 0, 0, 1] ++ List.replicate 7 0 ++ [7] ++
        List.replicate 15 0 ++ [1, 0, 0, 0, 60] ++ List.replicate 91 0) on, by decide +kernel⟩,
    ⟨0, request 0x0D03 3 [] 0, given 0x0D03 3 [] on, by decide +kernel⟩,
    ⟨0, request 0x0D03 3 [] 0, given 0x0D03 3 [] (on.modMp (fun m => { m with banks := #v[.shipped, { FwBank.reset with st := .verified }] })),
        by decide +kernel⟩,
    ⟨0, request 0x0D04 2 [0, 255] 0, given 0x0D04 2 [0, 255] on, by decide +kernel⟩,
    ⟨0, request 0x0D04 2 [1, 254] 0, given 0x0D04 2 [1, 254] on, by decide +kernel⟩,
    ⟨0, request 0x0D04 2 [1, 254] 0, given 0x0D04 2 [1, 254] (on.modMp (fun m =>
        { m with banks := #v[.shipped, { FwBank.reset with st := .verified }] })), by decide +kernel⟩,
    ⟨0, request 0x0E02 7 [1] 128, givenBulk 0x0E02 7 [1] ([68, 66, 85, 71, 0, 0, 0, 0, 1] ++ List.replicate 7 0 ++ [7] ++ List.replicate 15 0 ++ [1,
        0, 0, 0, 60] ++ List.replicate 91 0) (on.modSec (fun k => { k with debugNonce := some 7 })), 7, by decide +kernel⟩,
    ⟨0, request 0x0E02 7 [1] 128, givenBulk 0x0E02 7 [1] ([68, 66, 85, 71, 0, 0, 0, 0, 1] ++ List.replicate 7 0 ++ [7] ++ List.replicate 15 0 ++ [1,
        0, 0, 0, 60] ++ List.replicate 91 0) on, by decide +kernel⟩⟩

/-- States and operands for the clauses of CircuitCommandsTakeEffect. -/
theorem wit_CircuitCommandsTakeEffect :
    (∃ (t : Fin 64) (c : Cmd) (s : State) (k : Fin 24), Takes { op := 0x0302, lane := 1, len := 1 } t c s ∧ payField c 0 1 = ↑k + 1) ∧
    (∃ (t : Fin 64) (c : Cmd) (s : State) (p : Fin 24), Takes { op := 0x0305, lane := 1, len := 1 } t c s ∧ payField c 0 1 = ↑p + 1) ∧
    (∃ (t : Fin 64) (c : Cmd) (s : State), Takes { op := 0x0302, lane := 1, len := 1 } t c s ∧ (payField c 0 1 = 0 ∨ 24 < payField c 0 1)) ∧
    (∃ (t : Fin 64) (c : Cmd) (s : State), Takes { op := 0x0305, lane := 1, len := 1 } t c s ∧ (payField c 0 1 = 0 ∨ 24 < payField c 0 1)) ∧
    (∃ (t : Fin 64) (c : Cmd) (s : State), s.hw.frozen = false ∧ Takes
        { op := 0x0301, lane := 3, len := 0, bulkIn := some (fun x b => mapLenOk b), states := [.factory, .opened, .sealed] } t c s ∧ mapOk s (bulkOf
        c s) = true ∧ (s.sec.state = .sealed → sealedMapOk s (bulkOf c s) = true)) ∧
    (∃ (t : Fin 64) (c : Cmd) (s : State), s.hw.frozen = false ∧ Takes
        { op := 0x0301, lane := 3, len := 0, bulkIn := some (fun x b => mapLenOk b), states := [.factory, .opened, .sealed] } t c s ∧ s.sec.state =
        .sealed ∧ sealedMapOk s (bulkOf c s) = false) ∧
    (∃ (t : Fin 64) (c : Cmd) (s : State), s.hw.frozen = false ∧ Takes
        { op := 0x0301, lane := 3, len := 0, bulkIn := some (fun x b => mapLenOk b), states := [.factory, .opened, .sealed] } t c s ∧ s.sec.state ≠
        .sealed ∧ mapOk s (bulkOf c s) = false) ∧
    (∃ (t : Fin 64) (c : Cmd) (s : State) (k : Fin 24), s.hw.frozen = false ∧ Takes
        { op := 0x0303, lane := 2, len := 24, states := [.factory, .opened], d2 := true, pairs := [(4, 4), (12, 6)], rsv := [(2, 2)] } t c s ∧
        payField c 0 1 = ↑k + 1 ∧ payField c 1 1 = 1 ∧ 1 ≤ payField c 4 4 ∧ payField c 4 4 ≤ 1000000 ∧ 1 ≤ payField c 12 6 ∧ rateOk (cirNv
        s.circuits[k].cfgW) (payField c 12 6) (payField c 4 4) = true ∧ (∀ (o : Fin 8), cfEn s.cfs[o].cfgW = false ∨ cfCir s.cfs[o].cfgW ≠ some k)) ∧
    (∃ (t : Fin 64) (c : Cmd) (s : State) (k : Fin 24), s.hw.frozen = false ∧ Takes
        { op := 0x0303, lane := 2, len := 24, states := [.factory, .opened], d2 := true, pairs := [(4, 4), (12, 6)], rsv := [(2, 2)] } t c s ∧
        payField c 0 1 = ↑k + 1 ∧ payField c 1 1 = 1 ∧ scaleOk s k (payField c 4 4) (payField c 12 6) = true) ∧
    (∃ (t : Fin 64) (c : Cmd) (s : State) (k : Fin 24), s.hw.frozen = false ∧ Takes
        { op := 0x0303, lane := 2, len := 24, states := [.factory, .opened], d2 := true, pairs := [(4, 4), (12, 6)], rsv := [(2, 2)] } t c s ∧
        payField c 0 1 = ↑k + 1 ∧ (1 < payField c 1 1 ∨ payField c 1 1 = 1 ∧ scaleOk s k (payField c 4 4) (payField c 12 6) = false)) ∧
    (∃ (t : Fin 64) (c : Cmd) (s : State) (k : Fin 24), s.hw.frozen = false ∧ Takes
        { op := 0x0303, lane := 2, len := 24, states := [.factory, .opened], d2 := true, pairs := [(4, 4), (12, 6)], rsv := [(2, 2)] } t c s ∧
        payField c 0 1 = ↑k + 1 ∧ payField c 1 1 = 0 ∧ payField c 4 4 = BitVec.toNat s.circuits[k].quantumW ∧ payField c 12 6 =
        s.circuits[k].pfsW.toNat) ∧
    (∃ (t : Fin 64) (c : Cmd) (s : State) (k : Fin 24), s.hw.frozen = false ∧ Takes
        { op := 0x0303, lane := 2, len := 24, states := [.factory, .opened], d2 := true, pairs := [(4, 4), (12, 6)], rsv := [(2, 2)] } t c s ∧
        payField c 0 1 = ↑k + 1 ∧ payField c 1 1 = 0 ∧ (payField c 4 4 ≠ BitVec.toNat s.circuits[k].quantumW ∨ payField c 12 6 ≠
        s.circuits[k].pfsW.toNat)) ∧
    (∃ (t : Fin 64) (c : Cmd) (s : State) (k : Fin 24), s.hw.frozen = false ∧ Takes
        { op := 0x0304, lane := 2, len := 16, states := [.factory, .opened], rsv := [(2, 2)] } t c s ∧ payField c 0 1 = ↑k + 1 ∧ 10 ≤ payField c 1 1 ∧
        payField c 1 1 ≤ 200) ∧
    (∃ (t : Fin 64) (c : Cmd) (s : State) (k : Fin 24), s.hw.frozen = false ∧ Takes
        { op := 0x0304, lane := 2, len := 16, states := [.factory, .opened], rsv := [(2, 2)] } t c s ∧ payField c 0 1 = ↑k + 1 ∧ (payField c 1 1 < 10
        ∨ 200 < payField c 1 1)) :=
  ⟨
    ⟨0, request 0x0302 1 [1] 0, given 0x0302 1 [1] on, 0, by decide +kernel⟩,
    ⟨0, request 0x0305 1 [1] 0, given 0x0305 1 [1] on, 0, by decide +kernel⟩,
    ⟨0, request 0x0302 1 [0] 0, given 0x0302 1 [0] on, by decide +kernel⟩,
    ⟨0, request 0x0305 1 [0] 0, given 0x0305 1 [0] on, by decide +kernel⟩,
    ⟨0, request 0x0301 7 [] 8, givenBulk 0x0301 7 [] [0, 0, 0, 0, 0, 0, 0, 0] on, by decide +kernel⟩,
    ⟨0, request 0x0301 7 [] 12, givenBulk 0x0301 7 [] ([1] ++ List.replicate 7 0 ++ [255, 255, 255, 255]) (on.modSec (fun k =>
        { k with state := .sealed })), by decide +kernel⟩,
    ⟨0, request 0x0301 7 [] 12, givenBulk 0x0301 7 [] ([1] ++ List.replicate 7 0 ++ [255, 255, 255, 255]) on, by decide +kernel⟩,
    ⟨0, request 0x0303 2 [1, 1, 0, 0, 1, 0, 0, 0, 254, 255, 255, 255, 232, 3, 0, 0, 0, 0, 23, 252, 255, 255, 255, 255] 0, given 0x0303 2 [1, 1, 0, 0,
        1, 0, 0, 0, 254, 255, 255, 255, 232, 3, 0, 0, 0, 0, 23, 252, 255, 255, 255, 255] on, 0, by decide +kernel⟩,
    ⟨0, request 0x0303 2 [1, 1, 0, 0, 1, 0, 0, 0, 254, 255, 255, 255, 232, 3, 0, 0, 0, 0, 23, 252, 255, 255, 255, 255] 0, given 0x0303 2 [1, 1, 0, 0,
        1, 0, 0, 0, 254, 255, 255, 255, 232, 3, 0, 0, 0, 0, 23, 252, 255, 255, 255, 255] on, 0, by decide +kernel⟩,
    ⟨0, request 0x0303 2 [1, 2, 0, 0, 1, 0, 0, 0, 254, 255, 255, 255, 232, 3, 0, 0, 0, 0, 23, 252, 255, 255, 255, 255] 0, given 0x0303 2 [1, 2, 0,
        0, 1, 0, 0, 0, 254, 255, 255, 255, 232, 3, 0, 0, 0, 0, 23, 252, 255, 255, 255, 255] on, 0, by decide +kernel⟩,
    ⟨0, request 0x0303 2 [1, 0, 0, 0, 1, 0, 0, 0, 254, 255, 255, 255, 232, 3, 0, 0, 0, 0, 23, 252, 255, 255, 255, 255] 0, given 0x0303 2 [1, 0, 0, 0,
        1, 0, 0, 0, 254, 255, 255, 255, 232, 3, 0, 0, 0, 0, 23, 252, 255, 255, 255, 255] on, 0, by decide +kernel⟩,
    ⟨0, request 0x0303 2 [1, 0, 0, 0, 2, 0, 0, 0, 253, 255, 255, 255, 232, 3, 0, 0, 0, 0, 23, 252, 255, 255, 255, 255] 0, given 0x0303 2 [1, 0, 0, 0,
        2, 0, 0, 0, 253, 255, 255, 255, 232, 3, 0, 0, 0, 0, 23, 252, 255, 255, 255, 255] on, 0, by decide +kernel⟩,
    ⟨0, request 0x0304 2 ([1, 200] ++ List.replicate 14 0) 0, given 0x0304 2 ([1, 200] ++ List.replicate 14 0) on, 0, by decide +kernel⟩,
    ⟨0, request 0x0304 2 ([1, 1] ++ List.replicate 14 0) 0, given 0x0304 2 ([1, 1] ++ List.replicate 14 0) on, 0, by decide +kernel⟩⟩

/-- States and operands for the clauses of CalTransactionsWork. -/
theorem wit_CalTransactionsWork :
    (∃ (t : Fin 64) (c : Cmd) (s : State) (g : CalTarget), NamesTarget c g ∧ Takes
        { op := 0x0401, lane := 2, len := 2, states := [.factory, .opened] } t c s ∧ (∀ u ∈ s.cal.txns, u.target = g → u.st = TxnState.done ∨ u.st =
        TxnState.stale) ∧ (List.filter liveTxn s.cal.txns).length < 4) ∧
    (∃ (t : Fin 64) (c : Cmd) (s : State) (g : CalTarget), NamesTarget c g ∧ Takes
        { op := 0x0401, lane := 2, len := 2, states := [.factory, .opened] } t c s ∧ ((∃ u ∈ s.cal.txns, u.target = g ∧ u.st ≠ TxnState.done ∧ u.st ≠
        TxnState.stale) ∨ 4 ≤ (List.filter liveTxn s.cal.txns).length)) ∧
    (∃ (t : Fin 64) (c : Cmd) (s : State) (g : CalTarget) (u : Txn), NamesTarget c g ∧ Takes { op := 0x0405, lane := 2, len := 2 } t c s ∧ findTxn s g
        = some u ∧ u.st ≠ TxnState.stale) ∧
    (∃ (t : Fin 64) (c : Cmd) (s : State) (g : CalTarget), NamesTarget c g ∧ Takes { op := 0x0405, lane := 2, len := 2 } t c s ∧ findTxn s g = none) ∧
    (∃ (t : Fin 64) (c : Cmd) (s : State) (g : CalTarget) (u : Txn), NamesTarget c g ∧ Takes
        { op := 0x0404, lane := 2, len := 2, states := [.factory, .opened, .sealed] } t c s ∧ findTxn s g = some u ∧ u.st = TxnState.opened ∧ (∀ r ∈
        s.firn.reqs, r.change ≠ Change.calCommit g)) ∧
    (∃ (t : Fin 64) (c : Cmd) (s : State) (g : CalTarget) (u : Txn), NamesTarget c g ∧ Takes
        { op := 0x0404, lane := 2, len := 2, states := [.factory, .opened, .sealed] } t c s ∧ findTxn s g = some u ∧ (u.st = TxnState.deferred ∨ u.st
        = TxnState.storing ∨ u.st = TxnState.armed)) ∧
    (∃ (t : Fin 64) (c : Cmd) (s : State) (g : CalTarget), NamesTarget c g ∧ Takes
        { op := 0x0404, lane := 2, len := 2, states := [.factory, .opened, .sealed] } t c s ∧ findTxn s g = none) ∧
    (∃ (t : Fin 64) (c : Cmd) (s : State) (g : CalTarget) (u : Txn) (p : Fin 24), Takes
        { op := 0x0402, lane := 2, len := 20, states := [.factory, .opened] } t c s ∧ NamesTarget c g ∧ findTxn s g = some u ∧ u.st = TxnState.opened
        ∧ payField c 2 1 = ↑p + 1 ∧ payField c 3 1 < 8 ∧ (((payField c 3 1).testBit 0 = true → payField c 4 3 + payField c 7 3 = 16777215) ∧
        ((payField c 3 1).testBit 1 = true → payField c 10 2 + payField c 12 2 = 65535) ∧ ((payField c 3 1).testBit 2 = true → payField c 14 3 +
        payField c 17 3 = 16777215)) ∧ (((payField c 3 1).testBit 0 = true → 3145728 ≤ payField c 4 3 ∧ payField c 4 3 ≤ 5242880) ∧ ((payField c 3
        1).testBit 1 = true → (BitVec.ofNat 16 (payField c 10 2)).toInt.natAbs ≤ 4096)) ∧ u.chans.getLsbD ↑p = true ∧ payField c 3 1 ≠ 0) ∧
    (∃ (t : Fin 64) (c : Cmd) (s : State) (g : CalTarget) (u : Txn) (p : Fin 24), Takes
        { op := 0x0402, lane := 2, len := 20, states := [.factory, .opened] } t c s ∧ NamesTarget c g ∧ findTxn s g = some u ∧ u.st = TxnState.opened
        ∧ payField c 2 1 = ↑p + 1 ∧ payField c 3 1 < 8 ∧ (¬(((payField c 3 1).testBit 0 = true → payField c 4 3 + payField c 7 3 = 16777215) ∧
        ((payField c 3 1).testBit 1 = true → payField c 10 2 + payField c 12 2 = 65535) ∧ ((payField c 3 1).testBit 2 = true → payField c 14 3 +
        payField c 17 3 = 16777215)))) ∧
    (∃ (t : Fin 64) (c : Cmd) (s : State) (g : CalTarget) (u : Txn) (p : Fin 24), Takes
        { op := 0x0402, lane := 2, len := 20, states := [.factory, .opened] } t c s ∧ NamesTarget c g ∧ findTxn s g = some u ∧ u.st = TxnState.opened
        ∧ payField c 2 1 = ↑p + 1 ∧ payField c 3 1 < 8 ∧ (((payField c 3 1).testBit 0 = true → payField c 4 3 + payField c 7 3 = 16777215) ∧
        ((payField c 3 1).testBit 1 = true → payField c 10 2 + payField c 12 2 = 65535) ∧ ((payField c 3 1).testBit 2 = true → payField c 14 3 +
        payField c 17 3 = 16777215)) ∧ (¬(((payField c 3 1).testBit 0 = true → 3145728 ≤ payField c 4 3 ∧ payField c 4 3 ≤ 5242880) ∧ ((payField c 3
        1).testBit 1 = true → (BitVec.ofNat 16 (payField c 10 2)).toInt.natAbs ≤ 4096)))) ∧
    (∃ (t : Fin 64) (c : Cmd) (s : State) (g : CalTarget) (u : Txn) (p : Fin 24), Takes
        { op := 0x0402, lane := 2, len := 20, states := [.factory, .opened] } t c s ∧ NamesTarget c g ∧ findTxn s g = some u ∧ u.st = TxnState.opened
        ∧ payField c 2 1 = ↑p + 1 ∧ payField c 3 1 < 8 ∧ (((payField c 3 1).testBit 0 = true → payField c 4 3 + payField c 7 3 = 16777215) ∧
        ((payField c 3 1).testBit 1 = true → payField c 10 2 + payField c 12 2 = 65535) ∧ ((payField c 3 1).testBit 2 = true → payField c 14 3 +
        payField c 17 3 = 16777215)) ∧ (((payField c 3 1).testBit 0 = true → 3145728 ≤ payField c 4 3 ∧ payField c 4 3 ≤ 5242880) ∧ ((payField c 3
        1).testBit 1 = true → (BitVec.ofNat 16 (payField c 10 2)).toInt.natAbs ≤ 4096)) ∧ u.chans.getLsbD ↑p = false) :=
  ⟨
    ⟨0, request 0x0401 2 [0, 1] 0, given 0x0401 2 [0, 1] on, .cir 0, by decide +kernel⟩,
    ⟨0, request 0x0401 2 [0, 1] 0, given 0x0401 2 [0, 1] (withTxns [txn (.cir 0) 0x3000007 0 .opened]), .cir 0, by decide +kernel⟩,
    ⟨0, request 0x0405 2 [0, 1] 0, given 0x0405 2 [0, 1] (withTxns [txn (.cir 0) 0x3000007 0 .opened]), .cir 0,
        { target := CalTarget.cir 0, chans := 50331655, loaded := 0, st := TxnState.opened, cnt := 0, left := 0, pqLeft := false }, by decide +kernel⟩,
    ⟨0, request 0x0405 2 [0, 1] 0, given 0x0405 2 [0, 1] on, .cir 0, by decide +kernel⟩,
    ⟨0, request 0x0404 2 [0, 1] 0, given 0x0404 2 [0, 1] (withTxns [txn (.cir 0) 0x3000007 0 .opened]), .cir 0,
        { target := CalTarget.cir 0, chans := 50331655, loaded := 0, st := TxnState.opened, cnt := 0, left := 0, pqLeft := false }, by decide +kernel⟩,
    ⟨0, request 0x0404 2 [0, 1] 0, given 0x0404 2 [0, 1] (withTxns [txn (.vset true) 0xF0000000 0 .armed, txn (.cir 0) 0x7 0 .storing]), .cir 0,
        { target := CalTarget.cir 0, chans := 7, loaded := 0, st := TxnState.storing, cnt := 0, left := 0, pqLeft := false }, by decide +kernel⟩,
    ⟨0, request 0x0404 2 [0, 1] 0, given 0x0404 2 [0, 1] on, .cir 0, by decide +kernel⟩,
    ⟨0, request 0x0402 2 [0, 1, 1, 7, 0, 0, 64, 255, 255, 191, 0, 16, 255, 239, 5, 0, 0, 250, 255, 255] 0, given 0x0402 2 [0, 1, 1, 7, 0, 0, 64, 255,
        255, 191, 0, 16, 255, 239, 5, 0, 0, 250, 255, 255] (withTxns [txn (.cir 0) 0x3000007 0 .opened]), .cir 0,
        { target := CalTarget.cir 0, chans := 50331655, loaded := 0, st := TxnState.opened, cnt := 0, left := 0, pqLeft := false }, 0,
        by decide +kernel⟩,
    ⟨0, request 0x0402 2 [0, 1, 1, 1, 0, 0, 64, 0, 0, 0, 0, 16, 255, 239, 5, 0, 0, 250, 255, 255] 0, given 0x0402 2 [0, 1, 1, 1, 0, 0, 64, 0, 0, 0, 0,
        16, 255, 239, 5, 0, 0, 250, 255, 255] (withTxns [txn (.cir 0) 0x3000007 0 .opened]), .cir 0,
        { target := CalTarget.cir 0, chans := 50331655, loaded := 0, st := TxnState.opened, cnt := 0, left := 0, pqLeft := false }, 0,
        by decide +kernel⟩,
    ⟨0, request 0x0402 2 [0, 1, 1, 7, 1, 0, 80, 254, 255, 175, 0, 16, 255, 239, 5, 0, 0, 250, 255, 255] 0, given 0x0402 2 [0, 1, 1, 7, 1, 0, 80, 254,
        255, 175, 0, 16, 255, 239, 5, 0, 0, 250, 255, 255] (withTxns [txn (.cir 0) 0x3000007 0 .opened]), .cir 0,
        { target := CalTarget.cir 0, chans := 50331655, loaded := 0, st := TxnState.opened, cnt := 0, left := 0, pqLeft := false }, 0,
        by decide +kernel⟩,
    ⟨0, request 0x0402 2 [0, 1, 4, 7, 0, 0, 64, 255, 255, 191, 0, 16, 255, 239, 5, 0, 0, 250, 255, 255] 0, given 0x0402 2 [0, 1, 4, 7, 0, 0, 64, 255,
        255, 191, 0, 16, 255, 239, 5, 0, 0, 250, 255, 255] (withTxns [txn (.cir 0) 0x3000007 0 .opened]), .cir 0,
        { target := CalTarget.cir 0, chans := 50331655, loaded := 0, st := TxnState.opened, cnt := 0, left := 0, pqLeft := false }, 3,
        by decide +kernel⟩⟩

/-- States and operands for the clauses of CoefficientsOutOfRangeAreRefused. -/
theorem wit_CoefficientsOutOfRangeAreRefused :
    (∃ (t : Fin 64) (c : Cmd) (s : State), Takes { op := 0x0402, lane := 2, len := 20, states := [.factory, .opened] } t c s ∧ ((payField c 3
        1).testBit 0 = true → payField c 4 3 + payField c 7 3 = 16777215) ∧ ((payField c 3 1).testBit 1 = true → payField c 10 2 + payField c 12 2 =
        65535) ∧ ((payField c 3 1).testBit 2 = true → payField c 14 3 + payField c 17 3 = 16777215) ∧ (payField c 3 1).testBit 0 = true ∧ (payField c
        4 3 < 3145728 ∨ 5242880 < payField c 4 3)) ∧
    (∃ (t : Fin 64) (c : Cmd) (s : State), Takes { op := 0x0402, lane := 2, len := 20, states := [.factory, .opened] } t c s ∧ ((payField c 3
        1).testBit 0 = true → payField c 4 3 + payField c 7 3 = 16777215) ∧ ((payField c 3 1).testBit 1 = true → payField c 10 2 + payField c 12 2 =
        65535) ∧ ((payField c 3 1).testBit 2 = true → payField c 14 3 + payField c 17 3 = 16777215) ∧ (payField c 3 1).testBit 1 = true ∧ 4096 <
        (BitVec.ofNat 16 (payField c 10 2)).toInt.natAbs) ∧
    (∃ (t : Fin 64) (c : Cmd) (s : State), Takes { op := 0x0402, lane := 2, len := 20, states := [.factory, .opened] } t c s ∧ ((payField c 3
        1).testBit 0 = true → payField c 4 3 + payField c 7 3 = 16777215) ∧ ((payField c 3 1).testBit 1 = true → payField c 10 2 + payField c 12 2 =
        65535) ∧ ((payField c 3 1).testBit 2 = true → payField c 14 3 + payField c 17 3 = 16777215)) :=
  ⟨
    ⟨0, request 0x0402 2 [0, 1, 1, 1, 1, 0, 80, 254, 255, 175, 0, 16, 255, 239, 5, 0, 0, 250, 255, 255] 0, given 0x0402 2 [0, 1, 1, 1, 1, 0, 80, 254,
        255, 175, 0, 16, 255, 239, 5, 0, 0, 250, 255, 255] on, by decide +kernel⟩,
    ⟨0, request 0x0402 2 [0, 1, 1, 2, 0, 0, 64, 255, 255, 191, 1, 16, 254, 239, 5, 0, 0, 250, 255, 255] 0, given 0x0402 2 [0, 1, 1, 2, 0, 0, 64, 255,
        255, 191, 1, 16, 254, 239, 5, 0, 0, 250, 255, 255] on, by decide +kernel⟩,
    ⟨0, request 0x0402 2 [0, 1, 1, 1, 1, 0, 80, 254, 255, 175, 0, 16, 255, 239, 5, 0, 0, 250, 255, 255] 0, given 0x0402 2 [0, 1, 1, 1, 1, 0, 80, 254,
        255, 175, 0, 16, 255, 239, 5, 0, 0, 250, 255, 255] on, by decide +kernel⟩⟩

/-- States and operands for the clauses of CalCommitChecksInOrder. -/
theorem wit_CalCommitChecksInOrder :
    (∃ (t : Fin 64) (c : Cmd) (s : State) (g : CalTarget), Takes
        { op := 0x0403, lane := 2, len := 2, states := [.factory, .opened], d2 := true, ordered := true } t c s ∧ NamesTarget c g ∧ findTxn s g =
        none) ∧
    (∃ (t : Fin 64) (c : Cmd) (s : State) (g : CalTarget) (u : Txn), Takes
        { op := 0x0403, lane := 2, len := 2, states := [.factory, .opened], d2 := true, ordered := true } t c s ∧ NamesTarget c g ∧ findTxn s g = some
        u ∧ u.st = TxnState.stale) ∧
    (∃ (t : Fin 64) (c : Cmd) (s : State) (g : CalTarget) (u : Txn), Takes
        { op := 0x0403, lane := 2, len := 2, states := [.factory, .opened], d2 := true, ordered := true } t c s ∧ NamesTarget c g ∧ findTxn s g = some
        u ∧ u.st = TxnState.opened ∧ s.sec.state = .sealed) ∧
    (∃ (t : Fin 64) (c : Cmd) (s : State) (g : CalTarget) (u : Txn), Takes
        { op := 0x0403, lane := 2, len := 2, states := [.factory, .opened], d2 := true, ordered := true } t c s ∧ NamesTarget c g ∧ findTxn s g =
        some u ∧ u.st ≠ TxnState.opened ∧ u.st ≠ TxnState.stale ∧ s.sec.state ≠ .sealed) ∧
    (∃ (t : Fin 64) (c : Cmd) (s : State) (g : CalTarget) (u : Txn), Takes
        { op := 0x0403, lane := 2, len := 2, states := [.factory, .opened], d2 := true, ordered := true } t c s ∧ NamesTarget c g ∧ findTxn s g = some
        u ∧ u.st = TxnState.opened ∧ s.sec.state ≠ .sealed ∧ u.loaded = 0) ∧
    (∃ (t : Fin 64) (c : Cmd) (s : State) (g : CalTarget) (u : Txn), Takes
        { op := 0x0403, lane := 2, len := 2, states := [.factory, .opened], d2 := true, ordered := true } t c s ∧ NamesTarget c g ∧ findTxn s g = some
        u ∧ u.st = TxnState.opened ∧ s.sec.state ≠ .sealed ∧ u.loaded ≠ 0 ∧ (∃ k ∈ onesOf 32 u.chans.toNat, pairGood (shadowOf s k) = false)) ∧
    (∃ (t : Fin 64) (c : Cmd) (s : State) (g : CalTarget) (u : Txn), Takes
        { op := 0x0403, lane := 2, len := 2, states := [.factory, .opened], d2 := true, ordered := true } t c s ∧ NamesTarget c g ∧ findTxn s g = some
        u ∧ u.st = TxnState.opened ∧ s.sec.state ≠ .sealed ∧ u.loaded ≠ 0 ∧ (∀ k ∈ onesOf 32 u.chans.toNat, pairGood (shadowOf s k) = true) ∧ (∃ k ∈
        onesOf 32 u.chans.toNat, valuesGood (shadowOf s k) = false)) ∧
    (∃ (t : Fin 64) (c : Cmd) (s : State) (g : CalTarget) (u : Txn), Takes
        { op := 0x0403, lane := 2, len := 2, states := [.factory, .opened], d2 := true, ordered := true } t c s ∧ NamesTarget c g ∧ findTxn s g = some
        u ∧ u.st = TxnState.opened ∧ s.sec.state ≠ .sealed ∧ u.loaded ≠ 0 ∧ (∀ k ∈ onesOf 32 u.chans.toNat, pairGood (shadowOf s k) = true) ∧ (∀ k ∈
        onesOf 32 u.chans.toNat, valuesGood (shadowOf s k) = true) ∧ s.hw.frozen = false) ∧
    (∃ (t : Fin 64) (c : Cmd) (s : State) (g : CalTarget) (u : Txn), Takes
        { op := 0x0403, lane := 2, len := 2, states := [.factory, .opened], d2 := true, ordered := true } t c s ∧ NamesTarget c g ∧ findTxn s g = some
        u ∧ u.st = TxnState.opened ∧ s.sec.state ≠ .sealed ∧ u.loaded ≠ 0 ∧ (∀ k ∈ onesOf 32 u.chans.toNat, pairGood (shadowOf s k) = true) ∧ (∀ k ∈
        onesOf 32 u.chans.toNat, valuesGood (shadowOf s k) = true) ∧ s.hw.frozen = true) :=
  ⟨
    ⟨0, request 0x0403 2 [0, 1] 0, given 0x0403 2 [0, 1] on, CalTarget.cir 0, by decide +kernel⟩,
    ⟨0, request 0x0403 2 [0, 1] 0, given 0x0403 2 [0, 1] (withTxns [txn (.cir 0) 0x7 1 .stale]), CalTarget.cir 0,
        { target := CalTarget.cir 0, chans := 7, loaded := 1, st := TxnState.stale, cnt := 0, left := 0, pqLeft := false }, by decide +kernel⟩,
    ⟨0, request 0x0403 2 [0, 1] 0, given 0x0403 2 [0, 1] ((withTxns [txn (.cir 0) 0x7 1 .opened]).modSec (fun h => { h with state := .sealed })),
        CalTarget.cir 0, { target := CalTarget.cir 0, chans := 7, loaded := 1, st := TxnState.opened, cnt := 0, left := 0, pqLeft := false },
        by decide +kernel⟩,
    ⟨0, request 0x0403 2 [0, 1] 0, given 0x0403 2 [0, 1] (withTxns [txn (.cir 0) 0x7 1 .armed]), CalTarget.cir 0, txn (.cir 0) 0x7 1 .armed,
        by decide +kernel⟩,
    ⟨0, request 0x0403 2 [0, 1] 0, given 0x0403 2 [0, 1] (withTxns [txn (.cir 0) 0x7 0 .opened]), CalTarget.cir 0,
        { target := CalTarget.cir 0, chans := 7, loaded := 0, st := TxnState.opened, cnt := 0, left := 0, pqLeft := false }, by decide +kernel⟩,
    ⟨0, request 0x0403 2 [0, 1] 0, given 0x0403 2 [0, 1]
        ({ withTxns [txn (.cir 0) 0x7 1 .opened] with ports := on.ports.map (fun p => { p with shadow := { p.shadow with neg := { gain := 0, phase := 0, offset := 0 } } }) }),
        CalTarget.cir 0, { target := CalTarget.cir 0, chans := 7, loaded := 1, st := TxnState.opened, cnt := 0, left := 0, pqLeft := false },
        by decide +kernel⟩,
    ⟨0, request 0x0403 2 [0, 1] 0, given 0x0403 2 [0, 1]
        ({ withTxns [txn (.cir 0) 0x7 1 .opened] with ports := on.ports.map (fun p => { p with shadow := withComplement { gain := 0, phase := 0, offset := 0 } }) }),
        CalTarget.cir 0, { target := CalTarget.cir 0, chans := 7, loaded := 1, st := TxnState.opened, cnt := 0, left := 0, pqLeft := false },
        by decide +kernel⟩,
    ⟨0, request 0x0403 2 [0, 1] 0, given 0x0403 2 [0, 1] (withTxns [txn (.cir 0) 0x7 1 .opened]), CalTarget.cir 0,
        { target := CalTarget.cir 0, chans := 7, loaded := 1, st := TxnState.opened, cnt := 0, left := 0, pqLeft := false }, by decide +kernel⟩,
    ⟨0, request 0x0403 2 [0, 1] 0, given 0x0403 2 [0, 1] ((withTxns [txn (.cir 0) 0x7 1 .opened]).modHw (fun h => { h with frozen := true })),
        CalTarget.cir 0, { target := CalTarget.cir 0, chans := 7, loaded := 1, st := TxnState.opened, cnt := 0, left := 0, pqLeft := false },
        by decide +kernel⟩⟩

/-- States and operands for the clauses of TracerAndReportsWork. -/
theorem wit_TracerAndReportsWork :
    (∃ (t : Fin 64) (c : Cmd) (s : State), Takes { op := 0x0406, lane := 1, len := 0 } t c s) ∧
    (∃ (t : Fin 64) (c : Cmd) (s : State) (p : Fin 24), Takes { op := 0x0407, lane := 1, len := 1 } t c s ∧ payField c 0 1 = ↑p + 1) ∧
    (∃ (t : Fin 64) (c : Cmd) (s : State) (v : Fin 8), Takes { op := 0x0407, lane := 1, len := 1 } t c s ∧ payField c 0 1 = ↑v + 25) ∧
    (∃ (t : Fin 64) (c : Cmd) (s : State), Takes { op := 0x0408, lane := 3, len := 5, bulkOut := true } t c s ∧ 1 ≤ payField c 4 1 ∧ payField c 4 1
        ≤ 128 ∧ ∀ n ∈ histCnts s, (if payField c 0 4 = 0 then (heldCnts s).headD 0 else payField c 0 4) ≤ n → (n ≤ if (List.take (payField c 4 1)
        (List.filter (fun (n : ℕ) => decide ((if payField c 0 4 = 0 then (heldCnts s).headD 0 else payField c 0 4) ≤ n)) (heldCnts s))).length <
        payField c 4 1 then BitVec.toNat s.cal.cnt else (List.take (payField c 4 1) (List.filter (fun (n : ℕ) => decide ((if payField c 0 4 = 0
        then (heldCnts s).headD 0 else payField c 0 4) ≤ n)) (heldCnts s))).getLastD 0) → pageLost s.firn (histPage n) = true → pageBlank s.firn
        (histPage n) = true) ∧
    (∃ (t : Fin 64) (c : Cmd) (s : State) (n : ℕ), Takes { op := 0x0408, lane := 3, len := 5, bulkOut := true } t c s ∧ 1 ≤ payField c 4 1 ∧
        payField c 4 1 ≤ 128 ∧ n ∈ histCnts s ∧ (if payField c 0 4 = 0 then (heldCnts s).headD 0 else payField c 0 4) ≤ n ∧ (n ≤ if (List.take
        (payField c 4 1) (List.filter (fun (n : ℕ) => decide ((if payField c 0 4 = 0 then (heldCnts s).headD 0 else payField c 0 4) ≤ n)) (heldCnts
        s))).length < payField c 4 1 then BitVec.toNat s.cal.cnt else (List.take (payField c 4 1) (List.filter (fun (n : ℕ) => decide ((if payField
        c 0 4 = 0 then (heldCnts s).headD 0 else payField c 0 4) ≤ n)) (heldCnts s))).getLastD 0) ∧ pageLost s.firn (histPage n) = true ∧ pageBlank
        s.firn (histPage n) = false) ∧
    (∃ (t : Fin 64) (c : Cmd) (s : State), Takes { op := 0x0409, lane := 2, len := 4, states := [.factory, .opened, .sealed] } t c s ∧ payField c 0 4
        < 2 ^ 24) ∧
    (∃ (t : Fin 64) (c : Cmd) (s : State) (p : Fin 24), Takes { op := 0x040B, lane := 1, len := 1 } t c s ∧ payField c 0 1 = ↑p + 1) ∧
    (∃ (t : Fin 64) (c : Cmd) (s : State), s.hw.frozen = false ∧ Takes
        { op := 0x040A, lane := 2, len := 20, states := [.factory, .opened, .sealed], pairs := [(12, 4)], rsv := [(9, 3)] } t c s ∧ (s.sec.state ≠
        .sealed ∨ (payField c 4 1).testBit 2 = false ∧ (payField c 4 1).testBit 4 = false) ∧ payField c 0 4 < 2 ^ 24 ∧ payField c 4 1 < 32 ∧
        payField c 5 1 ≤ 1 ∧ payField c 6 1 ≤ 7 ∧ payField c 7 1 ≤ 1 ∧ payField c 8 1 ≤ 15 ∧ ((payField c 4 1).testBit 3 = true → 4 ≤ payField c 8
        1 ∧ payField c 8 1 ≤ 10) ∧ ((payField c 4 1).testBit 4 = true → payField c 12 4 ≤ 94000000) ∧ ((payField c 4 1).testBit 2 = true → payField
        c 7 1 = 1 → ∀ p ∈ maskPorts (payField c 0 4), autoOk (if (payField c 4 1).testBit 4 = true then payField c 12 4 else BitVec.toNat
        s.ports[p].tracer.rsNom) s.ports[p] = true)) ∧
    (∃ (t : Fin 64) (c : Cmd) (s : State), s.hw.frozen = false ∧ Takes
        { op := 0x040A, lane := 2, len := 20, states := [.factory, .opened, .sealed], pairs := [(12, 4)], rsv := [(9, 3)] } t c s ∧ (s.sec.state ≠
        .sealed ∨ (payField c 4 1).testBit 2 = false ∧ (payField c 4 1).testBit 4 = false) ∧ payField c 0 4 < 2 ^ 24 ∧ payField c 4 1 < 32 ∧
        payField c 5 1 ≤ 1 ∧ payField c 6 1 ≤ 7 ∧ payField c 7 1 ≤ 1 ∧ payField c 8 1 ≤ 15 ∧ ((payField c 4 1).testBit 3 = true → 4 ≤ payField c 8
        1 ∧ payField c 8 1 ≤ 10) ∧ ((payField c 4 1).testBit 4 = true → payField c 12 4 ≤ 94000000) ∧ (payField c 4 1).testBit 2 = true ∧ payField
        c 7 1 = 1 ∧ ∃ p ∈ maskPorts (payField c 0 4), autoOk (if (payField c 4 1).testBit 4 = true then payField c 12 4 else BitVec.toNat
        s.ports[p].tracer.rsNom) s.ports[p] = false) ∧
    (∃ (t : Fin 64) (c : Cmd) (s : State), s.hw.frozen = false ∧ Takes
        { op := 0x040A, lane := 2, len := 20, states := [.factory, .opened, .sealed], pairs := [(12, 4)], rsv := [(9, 3)] } t c s ∧ s.sec.state =
        .sealed ∧ ((payField c 4 1).testBit 2 = true ∨ (payField c 4 1).testBit 4 = true)) ∧
    (∃ (t : Fin 64) (c : Cmd) (s : State), s.hw.frozen = false ∧ Takes
        { op := 0x040C, lane := 2, len := 8, states := [.factory, .opened], d2 := true, pairs := [(0, 4)] } t c s ∧ payField c 0 4 < 2 ^ 24 ∧ (∀ p ∈
        maskPorts (payField c 0 4), s.ports[p].tracer.everAccepted = true)) ∧
    (∃ (t : Fin 64) (c : Cmd) (s : State), s.hw.frozen = false ∧ Takes
        { op := 0x040C, lane := 2, len := 8, states := [.factory, .opened], d2 := true, pairs := [(0, 4)] } t c s ∧ payField c 0 4 < 2 ^ 24 ∧ (∃ p ∈
        maskPorts (payField c 0 4), s.ports[p].tracer.everAccepted = false)) ∧
    (∃ (t : Fin 64) (c : Cmd) (s : State), s.hw.frozen = false ∧ Takes
        { op := 0x040D, lane := 2, len := 8, states := [.factory, .opened], d2 := true, pairs := [(0, 4)] } t c s ∧ payField c 0 4 ≤ 10000) ∧
    (∃ (t : Fin 64) (c : Cmd) (s : State), s.hw.frozen = false ∧ Takes
        { op := 0x040D, lane := 2, len := 8, states := [.factory, .opened], d2 := true, pairs := [(0, 4)] } t c s ∧ 10000 < payField c 0 4) :=
  ⟨
    ⟨0, request 0x0406 1 [] 0, given 0x0406 1 [] on, by decide +kernel⟩,
    ⟨0, request 0x0407 1 [1] 0, given 0x0407 1 [1] on, 0, by decide +kernel⟩,
    ⟨0, request 0x0407 1 [25] 0, given 0x0407 1 [25] on, 0, by decide +kernel⟩,
    ⟨0, request 0x0408 11 [0, 0, 0, 0, 1] 0, given 0x0408 11 [0, 0, 0, 0, 1] on, by decide +kernel⟩,
    ⟨0, request 0x0408 11 [0, 0, 0, 0, 1] 0, given 0x0408 11 [0, 0, 0, 0, 1] ((on.modCal (fun c => { c with cnt := 1 })).modFirn (fun f =>
        { f with arr := [(81920, 1)], slots := [] })), 1, by decide +kernel⟩,
    ⟨0, request 0x0409 2 [1, 0, 0, 0] 0, given 0x0409 2 [1, 0, 0, 0] on, by decide +kernel⟩,
    ⟨0, request 0x040B 1 [1] 0, given 0x040B 1 [1] on, 0, by decide +kernel⟩,
    ⟨0, request 0x040A 2 [1, 0, 0, 0, 15, 1, 7, 0, 10, 0, 0, 0, 128, 83, 154, 5, 127, 172, 101, 250] 0, given 0x040A 2 [1, 0, 0, 0, 15, 1, 7, 0,
        10, 0, 0, 0, 128, 83, 154, 5, 127, 172, 101, 250] on, by decide +kernel⟩,
    ⟨0, request 0x040A 2 [1, 0, 0, 0, 4, 1, 7, 1, 10, 0, 0, 0, 128, 83, 154, 5, 127, 172, 101, 250] 0, given 0x040A 2 [1, 0, 0, 0, 4, 1, 7, 1, 10,
        0, 0, 0, 128, 83, 154, 5, 127, 172, 101, 250] on, by decide +kernel⟩,
    ⟨0, request 0x040A 2 [1, 0, 0, 0, 31, 1, 7, 0, 10, 0, 0, 0, 128, 83, 154, 5, 127, 172, 101, 250] 0, given 0x040A 2 [1, 0, 0, 0, 31, 1, 7, 0, 10,
        0, 0, 0, 128, 83, 154, 5, 127, 172, 101, 250] (on.modSec (fun k => { k with state := .sealed })), by decide +kernel⟩,
    ⟨0, request 0x040C 2 [5, 0, 0, 0, 250, 255, 255, 255] 0, given 0x040C 2 [5, 0, 0, 0, 250, 255, 255, 255]
        ({ on with ports := on.ports.map (fun p => { p with tracer := { p.tracer with everAccepted := true } }) }), by decide +kernel⟩,
    ⟨0, request 0x040C 2 [5, 0, 0, 0, 250, 255, 255, 255] 0, given 0x040C 2 [5, 0, 0, 0, 250, 255, 255, 255] on, by decide +kernel⟩,
    ⟨0, request 0x040D 2 [5, 0, 0, 0, 250, 255, 255, 255] 0, given 0x040D 2 [5, 0, 0, 0, 250, 255, 255, 255] on, by decide +kernel⟩,
    ⟨0, request 0x040D 2 [17, 39, 0, 0, 238, 216, 255, 255] 0, given 0x040D 2 [17, 39, 0, 0, 238, 216, 255, 255] on, by decide +kernel⟩⟩

/-- States and operands for the clauses of EnergyCommandsTakeEffect. -/
theorem wit_EnergyCommandsTakeEffect :
    (∃ (t : Fin 64) (c : Cmd) (s : State), s.clk.boundary = none) ∧
    (∃ (t : Fin 64) (c : Cmd) (s : State) (k : Fin 24), Takes { op := 0x0501, lane := 1, len := 1 } t c s ∧ payField c 0 1 = ↑k + 1) ∧
    (∃ (t : Fin 64) (c : Cmd) (s : State), Takes { op := 0x0502, lane := 3, len := 4, bulkOut := true } t c s ∧ payField c 0 4 < 2 ^ 24) ∧
    (∃ (t : Fin 64) (c : Cmd) (s : State), Takes { op := 0x0503, lane := 3, len := 0, bulkOut := true } t c s) ∧
    (∃ (t : Fin 64) (c : Cmd) (s : State) (k : Fin 24), Takes { op := 0x0504, lane := 1, len := 1 } t c s ∧ payField c 0 1 = ↑k + 1) ∧
    (∃ (t : Fin 64) (c : Cmd) (s : State) (k : Fin 24), Takes { op := 0x0505, lane := 1, len := 1 } t c s ∧ payField c 0 1 = ↑k + 1) ∧
    (∃ (t : Fin 64) (c : Cmd) (s : State), Takes { op := 0x0506, lane := 1, len := 0 } t c s) ∧
    (∃ (t : Fin 64) (c : Cmd) (s : State) (k : Fin 24), Takes
        { op := 0x0507, lane := 2, len := 2, states := [.factory, .opened], d2 := true, pairs := [(0, 1)] } t c s ∧ payField c 0 1 = ↑k + 1 ∧ cirEn
        s.circuits[k].cfg = true ∧ s.circuits[k].stopped = false) ∧
    (∃ (t : Fin 64) (c : Cmd) (s : State) (k : Fin 24), Takes
        { op := 0x0507, lane := 2, len := 2, states := [.factory, .opened], d2 := true, pairs := [(0, 1)] } t c s ∧ payField c 0 1 = ↑k + 1 ∧ cirEn
        s.circuits[k].cfg = false) :=
  ⟨
    ⟨0, request 0x0503 11 [] 0, on, by decide +kernel⟩,
    ⟨0, request 0x0501 1 [1] 0, given 0x0501 1 [1] on, 0, by decide +kernel⟩,
    ⟨0, request 0x0502 11 [24, 0, 0, 0] 0, given 0x0502 11 [24, 0, 0, 0] on, by decide +kernel⟩,
    ⟨0, request 0x0503 11 [] 0, given 0x0503 11 [] on, by decide +kernel⟩,
    ⟨0, request 0x0504 1 [1] 0, given 0x0504 1 [1] on, 0, by decide +kernel⟩,
    ⟨0, request 0x0505 1 [1] 0, given 0x0505 1 [1] on, 0, by decide +kernel⟩,
    ⟨0, request 0x0506 1 [] 0, given 0x0506 1 [] on, by decide +kernel⟩,
    ⟨0, request 0x0507 2 [1, 254] 0, given 0x0507 2 [1, 254] on, 0, by decide +kernel⟩,
    ⟨0, request 0x0507 2 [1, 254] 0, given 0x0507 2 [1, 254] (on.modCir 0 (fun c => { c with cfg := 4 })), 0, by decide +kernel⟩⟩

/-- States and operands for the clauses of PqParametersAskForStores. -/
theorem wit_PqParametersAskForStores :
    (∃ (t : Fin 64) (c : Cmd) (s : State) (b : Fin 2), s.hw.frozen = false ∧ Takes
        { op := 0x0601, lane := 2, len := 16, states := [.factory, .opened, .sealed], rsv := [(2, 2)] } t c s ∧ payField c 0 1 = ↑b + 1 ∧
        ¬(s.sec.state = .sealed ∧ (payField c 1 1).testBit 0 = true ∧ vsNomf (BitVec.ofNat 32 (payField c 4 4)) ≠ vsNomf s.pqSets[b].cfgW) ∧
        payField c 1 1 < 8 ∧ payField c 4 4 / 2 ^ 6 % 4 = 0 ∧ payField c 12 4 / 2 ^ 29 = 0 ∧ ((payField c 1 1).testBit 0 = true → vsetCfgOk
        (payField c 4 4) = true) ∧ ((payField c 1 1).testBit 1 = true → udinOk (payField c 8 4) = true) ∧ ((payField c 1 1).testBit 2 = true →
        evtOk (payField c 12 4) = true)) ∧
    (∃ (t : Fin 64) (c : Cmd) (s : State) (b : Fin 2), s.hw.frozen = false ∧ Takes
        { op := 0x0601, lane := 2, len := 16, states := [.factory, .opened, .sealed], rsv := [(2, 2)] } t c s ∧ payField c 0 1 = ↑b + 1 ∧ s.sec.state
        = .sealed ∧ (payField c 1 1).testBit 0 = true ∧ vsNomf (BitVec.ofNat 32 (payField c 4 4)) ≠ vsNomf s.pqSets[b].cfgW) ∧
    (∃ (t : Fin 64) (c : Cmd) (s : State) (b : Fin 2), s.hw.frozen = false ∧ Takes
        { op := 0x0601, lane := 2, len := 16, states := [.factory, .opened, .sealed], rsv := [(2, 2)] } t c s ∧ payField c 0 1 = ↑b + 1 ∧
        ¬(s.sec.state = .sealed ∧ vsNomf (BitVec.ofNat 32 (payField c 4 4)) ≠ vsNomf s.pqSets[b].cfgW) ∧ (payField c 1 1).testBit 0 = true ∧
        (payField c 4 4 / 2 ^ 6 % 4 ≠ 0 ∨ payField c 4 4 / 2 ^ 8 % 256 < 1 ∨ 99 < payField c 4 4 / 2 ^ 8 % 256 ∨ payField c 4 4 / 2 ^ 16 % 256 <
        101 ∨ 200 < payField c 4 4 / 2 ^ 16 % 256 ∨ payField c 4 4 / 2 ^ 24 % 16 < 1 ∨ payField c 4 4 / 2 ^ 28 % 16 < 1 ∨ payField c 4 4 / 2 ^ 8 %
        256 ≤ payField c 4 4 / 2 ^ 28 % 16 + payField c 4 4 / 2 ^ 24 % 16 ∨ payField c 4 4 / 2 ^ 16 % 256 ≤ 100 + payField c 4 4 / 2 ^ 24 % 16)) ∧
    (∃ (t : Fin 64) (c : Cmd) (s : State) (k : Fin 32), s.hw.frozen = false ∧ Takes
        { op := 0x0602, lane := 2, len := 12, states := [.factory, .opened, .sealed], rsv := [(2, 2)] } t c s ∧ payField c 0 1 = ↑k + 1 ∧ payField
        c 1 1 < 4 ∧ payField c 4 4 < 65536 ∧ ((payField c 1 1).testBit 0 = true → chFeOk (payField c 4 4) = true) ∧ ((payField c 1 1).testBit 1 =
        true → k.val < 24)) ∧
    (∃ (t : Fin 64) (c : Cmd) (s : State) (k : Fin 32), s.hw.frozen = false ∧ Takes
        { op := 0x0602, lane := 2, len := 12, states := [.factory, .opened, .sealed], rsv := [(2, 2)] } t c s ∧ payField c 0 1 = ↑k + 1 ∧ 24 ≤ k.val ∧
        (payField c 1 1).testBit 1 = true) :=
  ⟨
    ⟨0, request 0x0601 2 [1, 7, 0, 0, 17, 90, 110, 82, 0, 194, 235, 11, 30, 15, 20, 0] 0, given 0x0601 2 [1, 7, 0, 0, 17, 90, 110, 82, 0, 194, 235,
        11, 30, 15, 20, 0] on, 0, by decide +kernel⟩,
    ⟨0, request 0x0601 2 [1, 7, 0, 0, 21, 90, 110, 82, 0, 194, 235, 11, 30, 15, 20, 31] 0, given 0x0601 2 [1, 7, 0, 0, 21, 90, 110, 82, 0, 194, 235,
        11, 30, 15, 20, 31] (on.modSec (fun k => { k with state := .sealed })), 0, by decide +kernel⟩,
    ⟨0, request 0x0601 2 [1, 1, 0, 0, 17, 100, 110, 82, 0, 194, 235, 11, 30, 15, 20, 0] 0, given 0x0601 2 [1, 1, 0, 0, 17, 100, 110, 82, 0, 194,
        235, 11, 30, 15, 20, 0] on, 0, by decide +kernel⟩,
    ⟨0, request 0x0602 2 ([1, 3] ++ List.replicate 10 0) 0, given 0x0602 2 ([1, 3] ++ List.replicate 10 0) on, 0, by decide +kernel⟩,
    ⟨0, request 0x0602 2 ([25, 2] ++ List.replicate 10 0) 0, given 0x0602 2 ([25, 2] ++ List.replicate 10 0) on, 24, by decide +kernel⟩⟩

/-- States and operands for the clauses of PqReadingsAnswer. -/
theorem wit_PqReadingsAnswer :
    (∃ (t : Fin 64) (c : Cmd) (s : State), Takes { op := 0x0603, lane := 3, len := 2, bulkOut := true } t c s ∧ payField c 0 1 < 4 ∧ payField c 1 1 <
        16) ∧
    (∃ (t : Fin 64) (c : Cmd) (s : State), Takes { op := 0x0603, lane := 3, len := 2, bulkOut := true } t c s ∧ (4 ≤ payField c 0 1 ∨ 16 ≤ payField
        c 1 1)) ∧
    (∃ (t : Fin 64) (c : Cmd) (s : State) (k : Fin 32) (n : Fin 4), Takes { op := 0x0604, lane := 3, len := 2, bulkOut := true } t c s ∧ payField c 0
        1 = ↑k + 1 ∧ payField c 1 1 = ↑n) ∧
    (∃ (t : Fin 64) (c : Cmd) (s : State), Takes { op := 0x0604, lane := 3, len := 2, bulkOut := true } t c s ∧ (payField c 0 1 = 0 ∨ 32 < payField
        c 0 1 ∨ 3 < payField c 1 1)) ∧
    (∃ (t : Fin 64) (c : Cmd) (s : State) (k : Fin 24) (n : Fin 3), Takes { op := 0x0605, lane := 3, len := 2, bulkOut := true } t c s ∧ payField c 0
        1 = ↑k + 1 ∧ payField c 1 1 = ↑n) ∧
    (∃ (t : Fin 64) (c : Cmd) (s : State) (k : Fin 24) (n : Fin 3), Takes { op := 0x0605, lane := 3, len := 2, bulkOut := true } t c s ∧ payField c
        0 1 = ↑k + 1 ∧ payField c 1 1 = ↑n ∧ (Option.map (fun (e : ℕ × List ℤ) => e.2) (List.find? (fun (e : ℕ × List ℤ) => e.1 == ↑k)
        s.pqSets[Fin.ofNat 2 (cirSet s.circuits[k].cfg)].results[Fin.ofNat 4 ↑n].vals.hpow)).getD [] = []) ∧
    (∃ (t : Fin 64) (c : Cmd) (s : State), Takes { op := 0x0605, lane := 3, len := 2, bulkOut := true } t c s ∧ (payField c 0 1 = 0 ∨ 24 < payField
        c 0 1 ∨ 2 < payField c 1 1)) ∧
    (∃ (t : Fin 64) (c : Cmd) (s : State) (v : Fin 8), Takes { op := 0x0606, lane := 1, len := 1 } t c s ∧ payField c 0 1 = ↑v + 25) ∧
    (∃ (t : Fin 64) (c : Cmd) (s : State), Takes { op := 0x0606, lane := 1, len := 1 } t c s ∧ (payField c 0 1 < 25 ∨ 32 < payField c 0 1)) ∧
    (∃ (t : Fin 64) (c : Cmd) (s : State) (r : EventRec) (l : List EventRec), Takes { op := 0x0607, lane := 1, len := 0 } t c s ∧ s.pq.restored = r ::
        l) ∧
    (∃ (t : Fin 64) (c : Cmd) (s : State) (r : EventRec) (l : List EventRec), Takes { op := 0x0607, lane := 1, len := 0 } t c s ∧ s.pq.restored = [] ∧
        s.pq.fifo = r :: l) ∧
    (∃ (t : Fin 64) (c : Cmd) (s : State), Takes { op := 0x0607, lane := 1, len := 0 } t c s ∧ s.pq.restored = [] ∧ s.pq.fifo = []) ∧
    (∃ (t : Fin 64) (c : Cmd) (s : State), Takes { op := 0x0607, lane := 1, len := 0 } t c s ∧ s.pq.fifo.length ≤ 64) ∧
    (∃ (t : Fin 64) (c : Cmd) (s : State) (w : Fin 2) (n : Fin 3), Takes { op := 0x0608, lane := 3, len := 2, bulkOut := true, lean := true } t c s
        ∧ payField c 0 1 = ↑w + 1 ∧ payField c 1 1 = ↑n) ∧
    (∃ (t : Fin 64) (c : Cmd) (s : State), Takes { op := 0x0608, lane := 3, len := 2, bulkOut := true, lean := true } t c s ∧ (payField c 0 1 = 0 ∨
        2 < payField c 0 1 ∨ 2 < payField c 1 1)) ∧
    (∃ (t : Fin 64) (c : Cmd) (s : State), Takes { op := 0x0609, lane := 3, len := 0, bulkOut := true, lean := true } t c s) ∧
    (∃ (t : Fin 64) (c : Cmd) (s : State), s.power.state = PowerState.lean ∧ Takes { op := 0x0608, lane := 3, len := 2, bulkOut := true } t c s) ∧
    (∃ (t : Fin 64) (c : Cmd) (s : State), s.power.state = PowerState.lean ∧ Takes { op := 0x0609, lane := 3, len := 0, bulkOut := true } t c s) :=
  ⟨
    ⟨0, request 0x0603 11 [0, 4] 0, given 0x0603 11 [0, 4] on, by decide +kernel⟩,
    ⟨0, request 0x0603 11 [4, 0] 0, given 0x0603 11 [4, 0] on, by decide +kernel⟩,
    ⟨0, request 0x0604 11 [1, 0] 0, given 0x0604 11 [1, 0] on, 0, 0, by decide +kernel⟩,
    ⟨0, request 0x0604 11 [0, 0] 0, given 0x0604 11 [0, 0] on, by decide +kernel⟩,
    ⟨0, request 0x0605 11 [1, 0] 0, given 0x0605 11 [1, 0] on, 0, 0, by decide +kernel⟩,
    ⟨0, request 0x0605 11 [1, 2] 0, given 0x0605 11 [1, 2] on, 0, 2, by decide +kernel⟩,
    ⟨0, request 0x0605 11 [25, 0] 0, given 0x0605 11 [25, 0] on, by decide +kernel⟩,
    ⟨0, request 0x0606 1 [25] 0, given 0x0606 1 [25] on, 0, by decide +kernel⟩,
    ⟨0, request 0x0606 1 [24] 0, given 0x0606 1 [24] on, by decide +kernel⟩,
    ⟨0, request 0x0607 1 [] 0, given 0x0607 1 [] (on.modPq (fun p => { p with restored := [er], fifo := [er] })),
        { seq := 1, typ := 1, chan := 1, start := { ns := 0, sec := 0, epoch := 0, ring := false, valid := false, lock := false }, duration := 0, extreme := 0, second := 0, worst := 1, flags := 0, unit := 0 },
        [], by decide +kernel⟩,
    ⟨0, request 0x0607 1 [] 0, given 0x0607 1 [] (on.modPq (fun p => { p with fifo := [er] })),
        { seq := 1, typ := 1, chan := 1, start := { ns := 0, sec := 0, epoch := 0, ring := false, valid := false, lock := false }, duration := 0, extreme := 0, second := 0, worst := 1, flags := 0, unit := 0 },
        [], by decide +kernel⟩,
    ⟨0, request 0x0607 1 [] 0, given 0x0607 1 [] on, by decide +kernel⟩,
    ⟨0, request 0x0607 1 [] 0, given 0x0607 1 [] on, by decide +kernel⟩,
    ⟨0, request 0x0608 11 [2, 0] 0, given 0x0608 11 [2, 0] on, 1, 0, by decide +kernel⟩,
    ⟨0, request 0x0608 11 [0, 0] 0, given 0x0608 11 [0, 0] on, by decide +kernel⟩,
    ⟨0, request 0x0609 11 [] 0, given 0x0609 11 [] on, by decide +kernel⟩,
    ⟨0, request 0x0608 11 [1, 0] 0, given 0x0608 11 [1, 0] (on.modPower (fun p => { p with state := .lean })), by decide +kernel⟩,
    ⟨0, request 0x0609 11 [] 0, given 0x0609 11 [] (on.modPower (fun p => { p with state := .lean })), by decide +kernel⟩⟩

/-- States and operands for the clauses of TimeReadingsAnswer. -/
theorem wit_TimeReadingsAnswer :
    (∃ (t : Fin 64) (c : Cmd) (s : State), s.clk.latched = none) ∧
    (∃ (t : Fin 64) (c : Cmd) (s : State), Takes { op := 0x0701, lane := 1, len := 0 } t c s) ∧
    (∃ (t : Fin 64) (c : Cmd) (s : State), Takes { op := 0x0702, lane := 1, len := 0 } t c s) ∧
    (∃ (t : Fin 64) (c : Cmd) (s : State), s.clk.boundary = none) ∧
    (∃ (t : Fin 64) (c : Cmd) (s : State) (r : BillRec), Takes { op := 0x070B, lane := 3, len := 1, bulkOut := true } t c s ∧ payField c 0 1 < 4 ∧
        (copyBoundary s).clk.records[payField c 0 1]? = some r) ∧
    (∃ (t : Fin 64) (c : Cmd) (s : State), Takes { op := 0x070B, lane := 3, len := 1, bulkOut := true } t c s ∧ payField c 0 1 < 4 ∧ (copyBoundary
        s).clk.records[payField c 0 1]? = none) ∧
    (∃ (t : Fin 64) (c : Cmd) (s : State), Takes { op := 0x070B, lane := 3, len := 1, bulkOut := true } t c s ∧ 4 ≤ payField c 0 1) ∧
    (∃ (t : Fin 64) (c : Cmd) (s : State), Takes { op := 0x070C, lane := 1, len := 0 } t c s) :=
  ⟨
    ⟨0, request 0x0701 1 [] 0, on, by decide +kernel⟩,
    ⟨0, request 0x0701 1 [] 0, given 0x0701 1 [] on, by decide +kernel⟩,
    ⟨0, request 0x0702 1 [] 0, given 0x0702 1 [] on, by decide +kernel⟩,
    ⟨0, request 0x070B 11 [0] 0, on, by decide +kernel⟩,
    ⟨0, request 0x070B 11 [0] 0, given 0x070B 11 [0] (on.modClk (fun k => { k with records := [rec0] })), rec0, by decide +kernel⟩,
    ⟨0, request 0x070B 11 [0] 0, given 0x070B 11 [0] on, by decide +kernel⟩,
    ⟨0, request 0x070B 11 [4] 0, given 0x070B 11 [4] on, by decide +kernel⟩,
    ⟨0, request 0x070C 1 [] 0, given 0x070C 1 [] on, by decide +kernel⟩⟩

/-- States and operands for the clauses of ClockSetsReachTheClock. -/
theorem wit_ClockSetsReachTheClock :
    (∃ (t : Fin 64) (c : Cmd) (s : State), Takes { op := 0x0703, lane := 2, len := 20, rsv := [(3, 1)], clocks := true } t c s ∧ payField c 1 1 ≤ 1
        ∧ payField c 2 1 ≤ 7 ∧ (payField c 1 1 = 1 → payField c 2 1 ≤ 6) ∧ payField c 0 1 = 0 ∧ payField c 4 8 < 2 ^ 33 ∧ s.stalled 8 = false) ∧
    (∃ (t : Fin 64) (c : Cmd) (s : State), Takes { op := 0x0703, lane := 2, len := 20, rsv := [(3, 1)], clocks := true } t c s ∧ payField c 1 1 ≤ 1
        ∧ payField c 2 1 ≤ 7 ∧ (payField c 1 1 = 1 → payField c 2 1 ≤ 6) ∧ payField c 0 1 = 0 ∧ 2 ^ 33 ≤ payField c 4 8) ∧
    (∃ (t : Fin 64) (c : Cmd) (s : State), Takes { op := 0x0703, lane := 2, len := 20, rsv := [(3, 1)], clocks := true } t c s ∧ payField c 1 1 ≤ 1
        ∧ payField c 2 1 ≤ 7 ∧ (payField c 1 1 = 1 → payField c 2 1 ≤ 6) ∧ payField c 0 1 = 1 ∧ dateFault (List.take 8 (List.drop 12 (dPayload
        c.desc))) = none ∧ leAt (List.take 8 (List.drop 12 (dPayload c.desc))) 7 1 = 0 ∧ s.stalled 8 = false) ∧
    (∃ (t : Fin 64) (c : Cmd) (s : State), Takes { op := 0x0703, lane := 2, len := 20, rsv := [(3, 1)], clocks := true } t c s ∧ payField c 1 1 ≤ 1
        ∧ payField c 2 1 ≤ 7 ∧ (payField c 1 1 = 1 → payField c 2 1 ≤ 6) ∧ payField c 0 1 = 1 ∧ 2000 ≤ leAt (List.take 8 (List.drop 12 (dPayload
        c.desc))) 0 2 ∧ leAt (List.take 8 (List.drop 12 (dPayload c.desc))) 0 2 ≤ 2199 ∧ leAt (List.take 8 (List.drop 12 (dPayload c.desc))) 7 1 =
        0 ∧ (leAt (List.take 8 (List.drop 12 (dPayload c.desc))) 2 1 = 0 ∨ 12 < leAt (List.take 8 (List.drop 12 (dPayload c.desc))) 2 1 ∨ leAt
        (List.take 8 (List.drop 12 (dPayload c.desc))) 3 1 = 0 ∨ 23 < leAt (List.take 8 (List.drop 12 (dPayload c.desc))) 4 1 ∨ 59 < leAt
        (List.take 8 (List.drop 12 (dPayload c.desc))) 5 1 ∨ 59 < leAt (List.take 8 (List.drop 12 (dPayload c.desc))) 6 1)) ∧
    (∃ (t : Fin 64) (c : Cmd) (s : State), Takes { op := 0x0703, lane := 2, len := 20, rsv := [(3, 1)], clocks := true } t c s ∧ payField c 1 1 ≤ 1
        ∧ payField c 2 1 ≤ 7 ∧ (payField c 1 1 = 1 → payField c 2 1 ≤ 6) ∧ payField c 0 1 = 0 ∧ payField c 4 8 < 2 ^ 33 ∧ s.stalled 8 = true) ∧
    (∃ (t : Fin 64) (c : Cmd) (s : State), Takes
        { op := 0x0704, lane := 2, len := 36, states := [.factory, .opened, .retired], pairs := [(2, 1), (4, 8), (20, 8)], ordered := true, clocks := true }
        t c s ∧ payField c 1 1 ≤ 1 ∧ payField c 2 1 ≤ 7 ∧ (payField c 1 1 = 1 → payField c 2 1 ≤ 6) ∧ s.clk.boundary = none) ∧
    (∃ (t : Fin 64) (c : Cmd) (s : State), Takes
        { op := 0x0704, lane := 2, len := 36, states := [.factory, .opened, .retired], pairs := [(2, 1), (4, 8), (20, 8)], ordered := true, clocks := true }
        t c s ∧ payField c 1 1 ≤ 1 ∧ payField c 2 1 ≤ 7 ∧ (payField c 1 1 = 1 → payField c 2 1 ≤ 6) ∧ (s.sec.state ≠ .sealed ∨ s.clk.legalInvalid =
        true) ∧ s.stalled 8 = false ∧ payField c 0 1 = 0 ∧ payField c 4 8 < 2 ^ 33) ∧
    (∃ (t : Fin 64) (c : Cmd) (s : State), Takes
        { op := 0x0704, lane := 2, len := 36, states := [.factory, .opened, .retired], pairs := [(2, 1), (4, 8), (20, 8)], ordered := true, clocks := true }
        t c s ∧ payField c 1 1 ≤ 1 ∧ payField c 2 1 ≤ 7 ∧ (payField c 1 1 = 1 → payField c 2 1 ≤ 6) ∧ (s.sec.state ≠ .sealed ∨ s.clk.legalInvalid =
        true) ∧ s.stalled 8 = false ∧ payField c 0 1 = 1 ∧ dateFault (List.take 8 (List.drop 20 (dPayload c.desc))) = none ∧ leAt (List.take 8
        (List.drop 20 (dPayload c.desc))) 7 1 = 0) ∧
    (∃ (t : Fin 64) (c : Cmd) (s : State), Takes
        { op := 0x0704, lane := 2, len := 36, states := [.factory, .opened, .retired], pairs := [(2, 1), (4, 8), (20, 8)], ordered := true, clocks := true }
        t c s ∧ payField c 1 1 ≤ 1 ∧ payField c 2 1 ≤ 7 ∧ (payField c 1 1 = 1 → payField c 2 1 ≤ 6) ∧ s.sec.state = .sealed ∧ s.clk.legalInvalid =
        false ∧ payField c 0 1 = 0 ∧ payField c 4 8 < 2 ^ 33) :=
  ⟨
    ⟨0, request 0x0703 2 ([0, 1, 6, 0, 255, 255, 255, 255, 1] ++ List.replicate 11 0) 0, given 0x0703 2 ([0, 1, 6, 0, 255, 255, 255, 255, 1] ++
        List.replicate 11 0) on, by decide +kernel⟩,
    ⟨0, request 0x0703 2 ([0, 1, 6, 0, 0, 0, 0, 0, 2] ++ List.replicate 11 0) 0, given 0x0703 2 ([0, 1, 6, 0, 0, 0, 0, 0, 2] ++ List.replicate 11 0)
        on, by decide +kernel⟩,
    ⟨0, request 0x0703 2 ([1] ++ List.replicate 11 0 ++ [208, 7, 2, 29, 23, 59, 59, 0]) 0, given 0x0703 2 ([1] ++ List.replicate 11 0 ++ [208, 7, 2,
        29, 23, 59, 59, 0]) on, by decide +kernel⟩,
    ⟨0, request 0x0703 2 ([1] ++ List.replicate 11 0 ++ [208, 7, 13, 29, 23, 59, 59, 0]) 0, given 0x0703 2 ([1] ++ List.replicate 11 0 ++ [208, 7, 13,
        29, 23, 59, 59, 0]) on, by decide +kernel⟩,
    ⟨0, request 0x0703 2 ([0, 1, 6, 0, 255, 255, 255, 255, 1] ++ List.replicate 11 0) 0, given 0x0703 2 ([0, 1, 6, 0, 255, 255, 255, 255, 1] ++
        List.replicate 11 0) (on.modCdc (fun c => { c with stall := 0x100 })), by decide +kernel⟩,
    ⟨0, request 0x0704 2 ([0, 1, 6, 249, 5] ++ List.replicate 7 0 ++ [250] ++ List.replicate 7 255 ++ List.replicate 8 0 ++ List.replicate 8 255) 0,
        given 0x0704 2 ([0, 1, 6, 249, 5] ++ List.replicate 7 0 ++ [250] ++ List.replicate 7 255 ++ List.replicate 8 0 ++ List.replicate 8 255) on,
        by decide +kernel⟩,
    ⟨0, request 0x0704 2 ([0, 1, 6, 249, 5] ++ List.replicate 7 0 ++ [250] ++ List.replicate 7 255 ++ List.replicate 8 0 ++ List.replicate 8 255) 0,
        given 0x0704 2 ([0, 1, 6, 249, 5] ++ List.replicate 7 0 ++ [250] ++ List.replicate 7 255 ++ List.replicate 8 0 ++ List.replicate 8 255) on,
        by decide +kernel⟩,
    ⟨0, request 0x0704 2 ([1, 1, 6, 249] ++ [5] ++ List.replicate 7 0 ++ [250] ++ List.replicate 7 255 ++ [208, 7, 2, 29, 23, 59, 59, 0] ++ [47,
        248, 253, 226, 232, 196, 196, 255]) 0, given 0x0704 2 ([1, 1, 6, 249] ++ [5] ++ List.replicate 7 0 ++ [250] ++ List.replicate 7 255 ++
        [208, 7, 2, 29, 23, 59, 59, 0] ++ [47, 248, 253, 226, 232, 196, 196, 255]) on, by decide +kernel⟩,
    ⟨0, request 0x0704 2 ([0, 1, 6, 249, 5] ++ List.replicate 7 0 ++ [250] ++ List.replicate 7 255 ++ List.replicate 8 0 ++ List.replicate 8 255) 0,
        given 0x0704 2 ([0, 1, 6, 249, 5] ++ List.replicate 7 0 ++ [250] ++ List.replicate 7 255 ++ List.replicate 8 0 ++ List.replicate 8 255)
        ((on.modSec (fun k => { k with state := .sealed })).modClk (fun k => { k with legalInvalid := false })), by decide +kernel⟩⟩

/-- States and operands for the clauses of ClockRegistersAreWritten. -/
theorem wit_ClockRegistersAreWritten :
    (∃ (t : Fin 64) (c : Cmd) (s : State), s.stalled 8 = false ∧ Takes
        { op := 0x0705, lane := 2, len := 4, states := [.factory, .opened, .sealed], clocks := true } t c s ∧ s.hw.frozen = false ∧ clkCfgOk (payField
        c 0 4) = true) ∧
    (∃ (t : Fin 64) (c : Cmd) (s : State), s.stalled 8 = false ∧ Takes
        { op := 0x0706, lane := 2, len := 4, states := [.factory, .opened], pairs := [(0, 2)], clocks := true } t c s ∧ s.hw.frozen = false ∧
        (BitVec.ofNat 16 (payField c 0 2)).toInt.natAbs ≤ 512) ∧
    (∃ (t : Fin 64) (c : Cmd) (s : State), s.stalled 8 = false ∧ Takes
        { op := 0x0706, lane := 2, len := 4, states := [.factory, .opened], pairs := [(0, 2)], clocks := true } t c s ∧ s.hw.frozen = false ∧ 512 <
        (BitVec.ofNat 16 (payField c 0 2)).toInt.natAbs) ∧
    (∃ (t : Fin 64) (c : Cmd) (s : State), s.stalled 8 = false ∧ Takes
        { op := 0x0707, lane := 2, len := 36, states := [.factory, .opened], pairs := [(4, 8), (20, 4), (28, 4)], rsv := [(1, 3)], clocks := true }
        t c s ∧ s.hw.frozen = false ∧ payField c 0 1 < 8 ∧ slewCfgRsv (payField c 20 4) = false ∧ payField c 28 4 ≤ 7 ∧ ((payField c 0 1).testBit 1
        = true → slewCfgOk (payField c 20 4) = true) ∧ ((payField c 0 1).testBit 2 = true → payField c 28 4 ≤ 5)) ∧
    (∃ (t : Fin 64) (c : Cmd) (s : State), s.stalled 8 = false ∧ Takes { op := 0x0708, lane := 2, len := 2, clocks := true } t c s ∧ payField c 1 1 ≤
        6 ∧ payField c 0 1 = 1 ∧ s.clk.service.wdayDue = false) ∧
    (∃ (t : Fin 64) (c : Cmd) (s : State), s.stalled 8 = false ∧ Takes { op := 0x0708, lane := 2, len := 2, clocks := true } t c s ∧ payField c 1 1
        ≤ 6 ∧ payField c 0 1 = 1) ∧
    (∃ (t : Fin 64) (c : Cmd) (s : State), s.stalled 8 = false ∧ Takes { op := 0x0708, lane := 2, len := 2, clocks := true } t c s ∧ payField c 1 1
        ≤ 6 ∧ payField c 0 1 = 0 ∧ (s.sec.state = .factory ∨ s.sec.state = .opened) ∧ s.clk.legal.wdayDue = false) ∧
    (∃ (t : Fin 64) (c : Cmd) (s : State), s.stalled 8 = false ∧ Takes { op := 0x0708, lane := 2, len := 2, clocks := true } t c s ∧ payField c 1 1
        ≤ 6 ∧ payField c 0 1 = 0 ∧ (s.sec.state = .factory ∨ s.sec.state = .opened)) ∧
    (∃ (t : Fin 64) (c : Cmd) (s : State), s.stalled 8 = false ∧ Takes { op := 0x0708, lane := 2, len := 2, clocks := true } t c s ∧ payField c 1 1
        ≤ 6 ∧ payField c 0 1 = 0 ∧ s.sec.state = .sealed) ∧
    (∃ (t : Fin 64) (c : Cmd) (s : State), s.stalled 8 = false ∧ Takes { op := 0x0708, lane := 2, len := 2, clocks := true } t c s ∧ payField c 1 1
        ≤ 6 ∧ payField c 0 1 = 0 ∧ s.sec.state = .retired) ∧
    (∃ (t : Fin 64) (c : Cmd) (s : State) (n : Fin 4), s.stalled 8 = false ∧ Takes
        { op := 0x0709, lane := 2, len := 12, states := [.factory, .opened, .sealed], rsv := [(1, 1)], clocks := true } t c s ∧ payField c 0 1 = ↑n ∧
        payField c 8 4 < 16 ∧ s.clk.alarms[n].due = false) ∧
    (∃ (t : Fin 64) (c : Cmd) (s : State) (n : Fin 4), s.stalled 8 = false ∧ Takes
        { op := 0x0709, lane := 2, len := 12, states := [.factory, .opened, .sealed], rsv := [(1, 1)], clocks := true } t c s ∧ payField c 0 1 = ↑n
        ∧ payField c 8 4 < 16) ∧
    (∃ (t : Fin 64) (c : Cmd) (s : State), s.stalled 8 = false ∧ Takes
        { op := 0x070A, lane := 2, len := 4, states := [.factory, .opened, .sealed], clocks := true } t c s ∧ payField c 0 4 / 1024 % 64 = 0) :=
  ⟨
    ⟨0, request 0x0705 2 [0, 1, 0, 0] 0, given 0x0705 2 [0, 1, 0, 0] on, by decide +kernel⟩,
    ⟨0, request 0x0706 2 [0, 1, 255, 254] 0, given 0x0706 2 [0, 1, 255, 254] on, by decide +kernel⟩,
    ⟨0, request 0x0706 2 [16, 60, 239, 195] 0, given 0x0706 2 [16, 60, 239, 195] on, by decide +kernel⟩,
    ⟨0, request 0x0707 2 ([7, 0, 0, 0, 7] ++ List.replicate 7 0 ++ [248] ++ List.replicate 7 255 ++ [16, 60, 0, 0, 239, 195, 255, 255, 5, 0, 0, 0,
        250, 255, 255, 255]) 0, given 0x0707 2 ([7, 0, 0, 0, 7] ++ List.replicate 7 0 ++ [248] ++ List.replicate 7 255 ++ [16, 60, 0, 0, 239, 195,
        255, 255, 5, 0, 0, 0, 250, 255, 255, 255]) on, by decide +kernel⟩,
    ⟨0, request 0x0708 2 [1, 6] 0, given 0x0708 2 [1, 6] on, by decide +kernel⟩,
    ⟨0, request 0x0708 2 [1, 6] 0, given 0x0708 2 [1, 6] on, by decide +kernel⟩,
    ⟨0, request 0x0708 2 [0, 6] 0, given 0x0708 2 [0, 6] on, by decide +kernel⟩,
    ⟨0, request 0x0708 2 [0, 6] 0, given 0x0708 2 [0, 6] on, by decide +kernel⟩,
    ⟨0, request 0x0708 2 [0, 6] 0, given 0x0708 2 [0, 6] (on.modSec (fun k => { k with state := .sealed })), by decide +kernel⟩,
    ⟨0, request 0x0708 2 [0, 6] 0, given 0x0708 2 [0, 6] (on.modSec (fun k => { k with state := .retired })), by decide +kernel⟩,
    ⟨0, request 0x0709 2 [0, 0, 5, 0, 0, 0, 0, 0, 15, 0, 0, 0] 0, given 0x0709 2 [0, 0, 5, 0, 0, 0, 0, 0, 15, 0, 0, 0] on, 0, by decide +kernel⟩,
    ⟨0, request 0x0709 2 ([3] ++ List.replicate 7 0 ++ [15, 0, 0, 0]) 0, given 0x0709 2 ([3] ++ List.replicate 7 0 ++ [15, 0, 0, 0]) on, 3,
        by decide +kernel⟩,
    ⟨0, request 0x070A 2 [0, 1, 0, 0] 0, given 0x070A 2 [0, 1, 0, 0] on, by decide +kernel⟩⟩

/-- States and operands for the clauses of RingTimeCommandsTakeEffect. -/
theorem wit_RingTimeCommandsTakeEffect :
    (∃ (t : Fin 64) (c : Cmd) (s : State), Takes
        { op := 0x070D, lane := 2, len := 12, head := true, states := [.factory, .opened, .sealed], rsv := [(1, 3)] } t c s ∧ payField c 0 1 < 4 ∧
        rtCfgRsv (payField c 4 4) = false ∧ ((payField c 0 1).testBit 0 = true → rtCfgOk (payField c 4 4) = true) ∧ ((payField c 0 1).testBit 1 =
        true → (BitVec.ofNat 32 (payField c 8 4)).toInt.natAbs ≤ 110000000) ∧ ((payField c 0 1).testBit 1 = false ∨ (if (payField c 0 1).testBit 0
        = true then BitVec.ofNat 32 (payField c 4 4) else s.time.cfg).toNat % 4 = 0)) ∧
    (∃ (t : Fin 64) (c : Cmd) (s : State), Takes
        { op := 0x070D, lane := 2, len := 12, head := true, states := [.factory, .opened, .sealed], rsv := [(1, 3)] } t c s ∧ payField c 0 1 < 4 ∧
        rtCfgRsv (payField c 4 4) = false ∧ ((payField c 0 1).testBit 0 = true → rtCfgOk (payField c 4 4) = true) ∧ ((payField c 0 1).testBit 1 =
        true → (BitVec.ofNat 32 (payField c 8 4)).toInt.natAbs ≤ 110000000) ∧ (payField c 0 1).testBit 1 = true ∧ (if (payField c 0 1).testBit 0 =
        true then BitVec.ofNat 32 (payField c 4 4) else s.time.cfg).toNat % 4 = 1) ∧
    (∃ (t : Fin 64) (c : Cmd) (s : State), Takes
        { op := 0x070E, lane := 2, len := 16, head := true, states := [.factory, .opened, .sealed], pairs := [(0, 8)] } t c s ∧ s.hw.frozen = true) ∧
    (∃ (t : Fin 64) (c : Cmd) (s : State), Takes
        { op := 0x070E, lane := 2, len := 16, head := true, states := [.factory, .opened, .sealed], pairs := [(0, 8)] } t c s ∧ s.hw.frozen = false ∧
        (BitVec.ofNat 64 (payField c 0 8)).toInt = 0) ∧
    (∃ (t : Fin 64) (c : Cmd) (s : State), Takes
        { op := 0x070E, lane := 2, len := 16, head := true, states := [.factory, .opened, .sealed], pairs := [(0, 8)] } t c s ∧ s.hw.frozen = false ∧
        stepInRange s (BitVec.ofNat 64 (payField c 0 8)).toInt = true ∧ s.time.step = none ∧ s.time.stepStore = false) ∧
    (∃ (t : Fin 64) (c : Cmd) (s : State), Takes
        { op := 0x070E, lane := 2, len := 16, head := true, states := [.factory, .opened, .sealed], pairs := [(0, 8)] } t c s ∧ s.hw.frozen = false ∧
        stepInRange s (BitVec.ofNat 64 (payField c 0 8)).toInt = true ∧ (s.time.step.isSome = true ∨ s.time.stepStore = true)) ∧
    (∃ (t : Fin 64) (c : Cmd) (s : State), s.hw.frozen = false ∧ Takes
        { op := 0x0710, lane := 2, len := 12, states := [.factory, .opened, .sealed], rsv := [(1, 3)] } t c s ∧ payField c 0 1 < 4 ∧ ((payField c 0
        1).testBit 0 = true → (BitVec.ofNat 32 (payField c 4 4)).toInt.natAbs ≤ 655360) ∧ ((payField c 0 1).testBit 1 = true → (BitVec.ofNat 32
        (payField c 8 4)).toInt.natAbs ≤ 655360)) ∧
    (∃ (t : Fin 64) (c : Cmd) (s : State), s.hw.frozen = false ∧ Takes
        { op := 0x0711, lane := 3, len := 0, bulkIn := some (fun x b => decide (b.length = 64)), states := [.factory, .opened, .sealed] } t c s) ∧
    (∃ (t : Fin 64) (c : Cmd) (s : State), s.hw.frozen = false ∧ Takes
        { op := 0x0712, lane := 3, len := 0, bulkIn := some (fun x b => decide (b.length = 64)), states := [.factory, .opened, .sealed] } t c s ∧ (∀ k
        < 15, leAt (bulkOf c s) (4 * k) 2 < leAt (bulkOf c s) (4 * k + 4) 2)) ∧
    (∃ (t : Fin 64) (c : Cmd) (s : State), s.hw.frozen = false ∧ Takes
        { op := 0x0712, lane := 3, len := 0, bulkIn := some (fun x b => decide (b.length = 64)), states := [.factory, .opened, .sealed] } t c s ∧ (∃ k
        < 15, leAt (bulkOf c s) (4 * k + 4) 2 ≤ leAt (bulkOf c s) (4 * k) 2)) :=
  ⟨
    ⟨0, request 0x070D 2 [3, 0, 0, 0, 0, 60, 0, 0, 128, 119, 142, 6] 0, given 0x070D 2 [3, 0, 0, 0, 0, 60, 0, 0, 128, 119, 142, 6] head0,
        by decide +kernel⟩,
    ⟨0, request 0x070D 2 [3, 0, 0, 0, 1, 60, 0, 0, 128, 119, 142, 6] 0, given 0x070D 2 [3, 0, 0, 0, 1, 60, 0, 0, 128, 119, 142, 6] head0,
        by decide +kernel⟩,
    ⟨0, request 0x070E 2 [64, 66, 15, 0, 0, 0, 0, 0, 191, 189, 240, 255, 255, 255, 255, 255] 0, given 0x070E 2 [64, 66, 15, 0, 0, 0, 0, 0, 191, 189,
        240, 255, 255, 255, 255, 255] (head0.modHw (fun h => { h with frozen := true })), by decide +kernel⟩,
    ⟨0, request 0x070E 2 (List.replicate 8 0 ++ List.replicate 8 255) 0, given 0x070E 2 (List.replicate 8 0 ++ List.replicate 8 255) head0,
        by decide +kernel⟩,
    ⟨0, request 0x070E 2 [64, 66, 15, 0, 0, 0, 0, 0, 191, 189, 240, 255, 255, 255, 255, 255] 0, given 0x070E 2 [64, 66, 15, 0, 0, 0, 0, 0, 191, 189,
        240, 255, 255, 255, 255, 255] head0, by decide +kernel⟩,
    ⟨0, request 0x070E 2 [64, 66, 15, 0, 0, 0, 0, 0, 191, 189, 240, 255, 255, 255, 255, 255] 0, given 0x070E 2 [64, 66, 15, 0, 0, 0, 0, 0, 191, 189,
        240, 255, 255, 255, 255, 255] (head0.modTime (fun t => { t with stepStore := true })), by decide +kernel⟩,
    ⟨0, request 0x0710 2 [3, 0, 0, 0, 0, 0, 10, 0, 0, 0, 246, 255] 0, given 0x0710 2 [3, 0, 0, 0, 0, 0, 10, 0, 0, 0, 246, 255] head0,
        by decide +kernel⟩,
    ⟨0, request 0x0711 7 [] 64, givenBulk 0x0711 7 [] [1, 0, 0, 0, 2, 0, 0, 0, 3, 0, 0, 0, 4, 0, 0, 0, 5, 0, 0, 0, 6, 0, 0, 0, 7, 0, 0, 0, 8, 0, 0, 0,
        9, 0, 0, 0, 10, 0, 0, 0, 11, 0, 0, 0, 12, 0, 0, 0, 13, 0, 0, 0, 14, 0, 0, 0, 15, 0, 0, 0, 16, 0, 0, 0] head0, by decide +kernel⟩,
    ⟨0, request 0x0712 7 [] 64, givenBulk 0x0712 7 [] [1, 0, 0, 0, 2, 0, 0, 0, 3, 0, 0, 0, 4, 0, 0, 0, 5, 0, 0, 0, 6, 0, 0, 0, 7, 0, 0, 0, 8, 0, 0, 0,
        9, 0, 0, 0, 10, 0, 0, 0, 11, 0, 0, 0, 12, 0, 0, 0, 13, 0, 0, 0, 14, 0, 0, 0, 15, 0, 0, 0, 16, 0, 0, 0] head0, by decide +kernel⟩,
    ⟨0, request 0x0712 7 [] 64, givenBulk 0x0712 7 [] (List.replicate 64 1) head0, by decide +kernel⟩⟩

/-- States and operands for the clauses of TimedOutputIsWritten. -/
theorem wit_TimedOutputIsWritten :
    (∃ (t : Fin 64) (c : Cmd) (s : State) (n : Fin 4), Takes
        { op := 0x070F, lane := 2, len := 28, states := [.factory, .opened, .sealed], rsv := [(3, 1), (18, 2)] } t c s ∧ payField c 0 1 = ↑n ∧
        payField c 1 1 = 15 ∧ payField c 2 1 < 16 ∧ payField c 4 4 < 2 ^ 16 ∧ (payField c 4 4).testBit 7 = false ∧ payField c 8 4 < 1000000000 ∧ 1000
        ≤ payField c 20 4 ∧ payField c 20 4 ≤ 4000000000 ∧ payField c 20 4 % 5 = 0 ∧ 20 ≤ payField c 24 4 ∧ payField c 24 4 ≤ 4000000000 ∧ ((payField
        c 4 4).testBit 1 = true → payField c 24 4 + 20 ≤ payField c 20 4) ∧ payField c 2 1 = s.time.epoch.toNat ∧ s.time.outs[n].pulse = none ∧
        (payField c 4 4).testBit 0 = true ∧ (payField c 4 4).testBit 1 = false ∧ (payField c 4 4).testBit 3 = true) ∧
    (∃ (t : Fin 64) (c : Cmd) (s : State) (n : Fin 4), Takes
        { op := 0x070F, lane := 2, len := 28, states := [.factory, .opened, .sealed], rsv := [(3, 1), (18, 2)] } t c s ∧ payField c 0 1 = ↑n ∧
        payField c 1 1 = 15 ∧ payField c 2 1 < 16 ∧ payField c 4 4 < 2 ^ 16 ∧ (payField c 4 4).testBit 7 = false ∧ payField c 8 4 < 1000000000 ∧ 1000
        ≤ payField c 20 4 ∧ payField c 20 4 ≤ 4000000000 ∧ payField c 20 4 % 5 = 0 ∧ 20 ≤ payField c 24 4 ∧ payField c 24 4 ≤ 4000000000 ∧ ((payField
        c 4 4).testBit 1 = true → payField c 24 4 + 20 ≤ payField c 20 4) ∧ payField c 2 1 = s.time.epoch.toNat ∧ s.time.outs[n].pulse = none ∧
        (payField c 4 4).testBit 0 = false) ∧
    (∃ (t : Fin 64) (c : Cmd) (s : State) (n : Fin 4), Takes
        { op := 0x070F, lane := 2, len := 28, states := [.factory, .opened, .sealed], rsv := [(3, 1), (18, 2)] } t c s ∧ payField c 0 1 = ↑n ∧
        payField c 1 1 = 15 ∧ payField c 2 1 < 16 ∧ payField c 4 4 < 2 ^ 16 ∧ (payField c 4 4).testBit 7 = false ∧ payField c 8 4 < 1000000000 ∧ 1000
        ≤ payField c 20 4 ∧ payField c 20 4 ≤ 4000000000 ∧ payField c 20 4 % 5 = 0 ∧ 20 ≤ payField c 24 4 ∧ payField c 24 4 ≤ 4000000000 ∧ ((payField
        c 4 4).testBit 1 = true → payField c 24 4 + 20 ≤ payField c 20 4) ∧ payField c 2 1 ≠ s.time.epoch.toNat) ∧
    (∃ (t : Fin 64) (c : Cmd) (s : State) (n : Fin 4), Takes
        { op := 0x070F, lane := 2, len := 28, states := [.factory, .opened, .sealed], rsv := [(3, 1), (18, 2)] } t c s ∧ payField c 0 1 = ↑n ∧
        payField c 1 1 = 15 ∧ payField c 2 1 < 16 ∧ payField c 4 4 < 2 ^ 16 ∧ (payField c 4 4).testBit 7 = false ∧ payField c 8 4 < 1000000000 ∧ 1000
        ≤ payField c 20 4 ∧ payField c 20 4 ≤ 4000000000 ∧ payField c 20 4 % 5 = 0 ∧ 20 ≤ payField c 24 4 ∧ payField c 24 4 ≤ 4000000000 ∧ ((payField
        c 4 4).testBit 1 = true → payField c 24 4 + 20 ≤ payField c 20 4) ∧ payField c 2 1 = s.time.epoch.toNat ∧ s.time.outs[n].pulse.isSome = true ∧
        (payField c 4 4).testBit 0 = true) :=
  ⟨
    ⟨0, request 0x070F 2 ([0, 15, 0, 0, 29, 0, 0, 0, 255, 201, 154, 59, 1] ++ List.replicate 7 0 ++ [232, 3, 0, 0, 212, 3, 0, 0]) 0, given 0x070F 2
        ([0, 15, 0, 0, 29, 0, 0, 0, 255, 201, 154, 59, 1] ++ List.replicate 7 0 ++ [232, 3, 0, 0, 212, 3, 0, 0]) on, 0, by decide +kernel⟩,
    ⟨0, request 0x070F 2 ([0, 15, 0, 0, 4, 0, 0, 0, 255, 201, 154, 59, 1] ++ List.replicate 7 0 ++ [232, 3, 0, 0, 212, 3, 0, 0]) 0, given 0x070F 2
        ([0, 15, 0, 0, 4, 0, 0, 0, 255, 201, 154, 59, 1] ++ List.replicate 7 0 ++ [232, 3, 0, 0, 212, 3, 0, 0]) on, 0, by decide +kernel⟩,
    ⟨0, request 0x070F 2 ([0, 15, 1, 0, 4, 0, 0, 0, 255, 201, 154, 59, 1] ++ List.replicate 7 0 ++ [232, 3, 0, 0, 212, 3, 0, 0]) 0, given 0x070F 2
        ([0, 15, 1, 0, 4, 0, 0, 0, 255, 201, 154, 59, 1] ++ List.replicate 7 0 ++ [232, 3, 0, 0, 212, 3, 0, 0]) on, 0, by decide +kernel⟩,
    ⟨0, request 0x070F 2 ([0, 15, 0, 0, 29, 0, 0, 0, 255, 201, 154, 59, 1] ++ List.replicate 7 0 ++ [232, 3, 0, 0, 212, 3, 0, 0]) 0, given 0x070F 2
        ([0, 15, 0, 0, 29, 0, 0, 0, 255, 201, 154, 59, 1] ++ List.replicate 7 0 ++ [232, 3, 0, 0, 212, 3, 0, 0]) (on.modTout 0 (fun o =>
        { o with pulse := some 5 })), 0, by decide +kernel⟩⟩

/-- States and operands for the clauses of FirnCommandsTakeEffect. -/
theorem wit_FirnCommandsTakeEffect :
    (∃ (t : Fin 64) (c : Cmd) (s : State), Takes { op := 0x0801, lane := 1, len := 0 } t c s) ∧
    (∃ (t : Fin 64) (c : Cmd) (s : State), Takes { op := 0x0802, lane := 2, len := 4 } t c s ∧ payField c 0 4 / 512 % 128 = 0) ∧
    (∃ (t : Fin 64) (c : Cmd) (s : State), Takes { op := 0x0803, lane := 3, len := 3, bulkOut := true } t c s ∧ 1 ≤ payField c 2 1 ∧ payField c 2 1 ≤
        64 ∧ payField c 0 2 + payField c 2 1 ≤ 3072 ∧ (∀ p ∈ List.map (fun k => payField c 0 2 + k) (List.range (payField c 2 1)), pageLost s.firn p =
        false)) ∧
    (∃ (t : Fin 64) (c : Cmd) (s : State), Takes { op := 0x0803, lane := 3, len := 3, bulkOut := true } t c s ∧ 1 ≤ payField c 2 1 ∧ payField c 2 1 ≤
        64 ∧ payField c 0 2 + payField c 2 1 ≤ 3072 ∧ (∃ p ∈ List.map (fun k => payField c 0 2 + k) (List.range (payField c 2 1)), pageLost s.firn p =
        true)) ∧
    (∃ (t : Fin 64) (c : Cmd) (s : State), Takes { op := 0x0803, lane := 3, len := 3, bulkOut := true } t c s ∧ 3072 < payField c 0 2 + payField c 2
        1) ∧
    (∃ (t : Fin 64) (c : Cmd) (s : State), Takes
        { op := 0x0804, lane := 3, len := 3, bulkIn := some (fun p b => decide (b.length = 64 * leAt p 2 1)), states := [.factory, .opened, .sealed] }
        t c s ∧ 1 ≤ payField c 2 1 ∧ payField c 2 1 ≤ 32 ∧ 3040 ≤ payField c 0 2 ∧ payField c 0 2 + payField c 2 1 ≤ 3072 ∧ s.hw.frozen = false) ∧
    (∃ (t : Fin 64) (c : Cmd) (s : State), Takes
        { op := 0x0804, lane := 3, len := 3, bulkIn := some (fun p b => decide (b.length = 64 * leAt p 2 1)), states := [.factory, .opened, .sealed] }
        t c s ∧ 1 ≤ payField c 2 1 ∧ payField c 2 1 ≤ 32 ∧ 3040 ≤ payField c 0 2 ∧ payField c 0 2 + payField c 2 1 ≤ 3072 ∧ s.hw.frozen = true) ∧
    (∃ (t : Fin 64) (c : Cmd) (s : State), Takes
        { op := 0x0804, lane := 3, len := 3, bulkIn := some fun (p b : List Byte) => decide (b.length = 64 * leAt p 2 1), states := [.factory, .opened, .sealed] }
        t c s ∧ (payField c 2 1 = 0 ∨ 32 < payField c 2 1 ∨ payField c 0 2 < 3040 ∨ 3072 < payField c 0 2 + payField c 2 1)) :=
  ⟨
    ⟨0, request 0x0801 1 [] 0, given 0x0801 1 [] on, by decide +kernel⟩,
    ⟨0, request 0x0802 2 [252, 1, 0, 0] 0, given 0x0802 2 [252, 1, 0, 0] on, by decide +kernel⟩,
    ⟨0, request 0x0803 11 [0, 0, 1] 0, given 0x0803 11 [0, 0, 1] (on.modFirn (fun f => { f with slots := [(0, false), (600, true)] })),
        by decide +kernel⟩,
    ⟨0, request 0x0803 11 [0, 0, 1] 0, given 0x0803 11 [0, 0, 1] on, by decide +kernel⟩,
    ⟨0, request 0x0803 11 [255, 11, 2] 0, given 0x0803 11 [255, 11, 2] on, by decide +kernel⟩,
    ⟨0, request 0x0804 7 [255, 11, 1] 64, givenBulk 0x0804 7 [255, 11, 1] (List.replicate 64 7) on, by decide +kernel⟩,
    ⟨0, request 0x0804 7 [255, 11, 1] 64, givenBulk 0x0804 7 [255, 11, 1] (List.replicate 64 7) (on.modHw (fun h => { h with frozen := true })),
        by decide +kernel⟩,
    ⟨0, request 0x0804 7 [0, 0, 1] 64, givenBulk 0x0804 7 [0, 0, 1] (List.replicate 64 7) on, by decide +kernel⟩⟩

theorem push_elsewhere : ∀ e ∈ [((3 : BitVec 6), (none : Option (Fin 64)))], e.1 ≠ rosterAddr 0 := by
  intro e h
  rw [List.mem_singleton.mp h]
  decide

/-- States and operands for the clauses of RingCommandsTakeEffect. -/
theorem wit_RingCommandsTakeEffect :
    (∃ (t : Fin 64) (c : Cmd) (s : State), Takes { op := 0x0901, lane := 1, len := 0 } t c s) ∧
    (∃ (t : Fin 64) (c : Cmd) (s : State), Takes { op := 0x0903, lane := 3, len := 0, bulkOut := true, head := true } t c s) ∧
    (∃ (t : Fin 64) (c : Cmd) (s : State) (g : Fin 16), Takes { op := 0x0906, lane := 1, len := 1, head := true } t c s ∧ payField c 0 1 = ↑g + 1) ∧
    (∃ (t : Fin 64) (c : Cmd) (s : State) (a : Fin 61), Takes { op := 0x0907, lane := 3, len := 1, bulkOut := true, head := true } t c s ∧ payField c
        0 1 = ↑a + 2) ∧
    (∃ (t : Fin 64) (c : Cmd) (s : State), Takes { op := 0x0907, lane := 3, len := 1, bulkOut := true, head := true } t c s ∧ (payField c 0 1 < 2 ∨ 62
        < payField c 0 1)) ∧
    (∃ (t : Fin 64) (c : Cmd) (s : State), s.hw.frozen = false ∧ Takes
        { op := 0x0902, lane := 2, len := 4, head := true, states := [.factory, .opened, .sealed] } t c s ∧ payField c 0 4 < 8) ∧
    (∃ (t : Fin 64) (c : Cmd) (s : State), s.hw.frozen = false ∧ Takes
        { op := 0x0902, lane := 2, len := 4, head := true, states := [.factory, .opened, .sealed] } t c s ∧ 8 ≤ payField c 0 4) ∧
    (∃ (t : Fin 64) (c : Cmd) (s : State) (a : Fin 61), s.hw.frozen = false ∧ Takes
        { op := 0x0904, lane := 2, len := 2, head := true, states := [.factory, .opened, .sealed], pairs := [(0, 1)] } t c s ∧ payField c 0 1 = ↑a + 2
        ∧ s.ring.roster[a].st = Presence.absent) ∧
    (∃ (t : Fin 64) (c : Cmd) (s : State) (a : Fin 61), s.hw.frozen = false ∧ Takes
        { op := 0x0904, lane := 2, len := 2, head := true, states := [.factory, .opened, .sealed], pairs := [(0, 1)] } t c s ∧ payField c 0 1 = ↑a + 2
        ∧ s.ring.roster[a].st ≠ Presence.absent) ∧
    (∃ (t : Fin 64) (c : Cmd) (s : State) (g : Fin 16), s.hw.frozen = false ∧ Takes
        { op := 0x0905, lane := 3, len := 0, bulkIn := some (fun x b => decide (b.length = 64)), head := true, states := [.factory, .opened, .sealed] }
        t c s ∧ leAt (bulkOf c s) 0 1 = ↑g + 1 ∧ balDescOk (bulkOf c s) = true) ∧
    (∃ (t : Fin 64) (c : Cmd) (s : State) (g : Fin 16), s.hw.frozen = false ∧ Takes
        { op := 0x0905, lane := 3, len := 0, bulkIn := some (fun x b => decide (b.length = 64)), head := true, states := [.factory, .opened, .sealed] }
        t c s ∧ leAt (bulkOf c s) 0 1 = ↑g + 1 ∧ leAt (bulkOf c s) 2 2 = 0) ∧
    (∃ (t : Fin 64) (c : Cmd) (s : State) (a : Fin 61), s.hw.frozen = false ∧ Takes
        { op := 0x0908, lane := 2, len := 1, head := true, states := [.factory, .opened, .sealed] } t c s ∧ payField c 0 1 = ↑a + 2 ∧ mirrorHeld
        (mirrorEntry s a) = true ∧ s.ring.roster[a].st = Presence.present ∧ ∀ e ∈ s.ring.push, e.1 ≠ rosterAddr a) ∧
    (∃ (t : Fin 64) (c : Cmd) (s : State) (a : Fin 61), s.hw.frozen = false ∧ Takes
        { op := 0x0908, lane := 2, len := 1, head := true, states := [.factory, .opened, .sealed] } t c s ∧ payField c 0 1 = ↑a + 2 ∧ mirrorHeld
        (mirrorEntry s a) = true ∧ s.ring.roster[a].st = Presence.present ∧ ∃ e ∈ s.ring.push, e.1 = rosterAddr a) ∧
    (∃ (t : Fin 64) (c : Cmd) (s : State) (a : Fin 61), s.hw.frozen = false ∧ Takes
        { op := 0x0908, lane := 2, len := 1, head := true, states := [.factory, .opened, .sealed] } t c s ∧ payField c 0 1 = ↑a + 2 ∧ (mirrorHeld
        (mirrorEntry s a) = false ∨ s.ring.roster[a].st ≠ Presence.present)) ∧
    (∃ (t : Fin 64) (c : Cmd) (s : State) (a : Fin 61), s.hw.frozen = false ∧ Takes
        { op := 0x0909, lane := 2, len := 1, head := true, states := [.factory, .opened, .sealed] } t c s ∧ payField c 0 1 = ↑a + 2) :=
  ⟨
    ⟨0, request 0x0901 1 [] 0, given 0x0901 1 [] head0, by decide +kernel⟩,
    ⟨0, request 0x0903 11 [] 0, given 0x0903 11 [] head0, by decide +kernel⟩,
    ⟨0, request 0x0906 1 [1] 0, given 0x0906 1 [1] head0, 0, by decide +kernel⟩,
    ⟨0, request 0x0907 11 [2] 0, given 0x0907 11 [2] head0, 0, by decide +kernel⟩,
    ⟨0, request 0x0907 11 [1] 0, given 0x0907 11 [1] head0, by decide +kernel⟩,
    ⟨0, request 0x0902 2 [7, 0, 0, 0] 0, given 0x0902 2 [7, 0, 0, 0] head0, by decide +kernel⟩,
    ⟨0, request 0x0902 2 [8, 0, 0, 0] 0, given 0x0902 2 [8, 0, 0, 0] head0, by decide +kernel⟩,
    ⟨0, request 0x0904 2 [2, 253] 0, given 0x0904 2 [2, 253] (head0.modRing (fun r =>
        { r with roster := r.roster.set 0 { r.roster[0] with st := .absent } })), 0, by decide +kernel⟩,
    ⟨0, request 0x0904 2 [2, 253] 0, given 0x0904 2 [2, 253] head0, 0, by decide +kernel⟩,
    ⟨0, request 0x0905 7 [] 64, givenBulk 0x0905 7 [] ([1, 0, 1, 0, 1, 1, 2, 1, 0, 0, 2, 2] ++ List.replicate 52 0) head0, 0, by decide +kernel⟩,
    ⟨0, request 0x0905 7 [] 64, givenBulk 0x0905 7 [] ([1, 0, 0, 0, 1, 1, 2, 1, 0, 0, 2, 2] ++ List.replicate 52 0) head0, 0, by decide +kernel⟩,
    ⟨0, request 0x0908 2 [2] 0, given 0x0908 2 [2] (head0.modRing (fun r =>
        { r with roster := r.roster.set 0 { r.roster[0] with st := .present }, mirror := memPuts 0 [] 11 [4], push := [(3, none)] })), 0,
        by decide +kernel, by decide +kernel, by decide +kernel, by decide +kernel, by decide +kernel, push_elsewhere⟩,
    ⟨0, request 0x0908 2 [2] 0, given 0x0908 2 [2] (head0.modRing (fun r =>
        { r with roster := r.roster.set 0 { r.roster[0] with st := .present }, mirror := memPuts 0 [] 11 [4], push := [(2, none)] })), 0,
        by decide +kernel⟩,
    ⟨0, request 0x0908 2 [2] 0, given 0x0908 2 [2] head0, 0, by decide +kernel⟩,
    ⟨0, request 0x0909 2 [2] 0, given 0x0909 2 [2] head0, 0, by decide +kernel⟩⟩

/-- States and operands for the clauses of PlcCommandsTakeEffect. -/
theorem wit_PlcCommandsTakeEffect :
    (∃ (t : Fin 64) (c : Cmd) (s : State), Takes { op := 0x0A02, lane := 1, len := 0 } t c s) ∧
    (∃ (t : Fin 64) (c : Cmd) (s : State) (k : Fin 240), Takes { op := 0x0A05, lane := 1, len := 1 } t c s ∧ payField c 0 1 = ↑k + 1 ∧
        s.plc.nodes[k].st ≠ 0) ∧
    (∃ (t : Fin 64) (c : Cmd) (s : State) (k : Fin 240), Takes { op := 0x0A05, lane := 1, len := 1 } t c s ∧ payField c 0 1 = ↑k + 1 ∧
        s.plc.nodes[k].st = 0) ∧
    (∃ (t : Fin 64) (c : Cmd) (s : State) (k : Fin 240), Takes { op := 0x0A06, lane := 1, len := 1 } t c s ∧ payField c 0 1 = ↑k + 1 ∧
        s.plc.nodes[k].st ≠ 0) ∧
    (∃ (t : Fin 64) (c : Cmd) (s : State) (k : Fin 240), Takes { op := 0x0A06, lane := 1, len := 1 } t c s ∧ payField c 0 1 = ↑k + 1 ∧
        s.plc.nodes[k].st = 0) ∧
    (∃ (t : Fin 64) (c : Cmd) (s : State), Takes { op := 0x0A09, lane := 3, len := 0, bulkOut := true, lean := true } t c s ∧ (s.plc.fixedMaps = true
        ∨ s.plc.maps = [])) ∧
    (∃ (t : Fin 64) (c : Cmd) (s : State), Takes { op := 0x0A09, lane := 3, len := 0, bulkOut := true, lean := true } t c s ∧ s.plc.fixedMaps = false
        ∧ s.plc.maps.length = 384) ∧
    (∃ (t : Fin 64) (c : Cmd) (s : State), s.hw.frozen = false ∧ Takes
        { op := 0x0A01, lane := 2, len := 8, states := [.factory, .opened, .sealed], rsv := [(5, 3)] } t c s ∧ payField c 0 1 ≤ 1 ∧ payField c 1 1 ≤
        40 ∧ 100 ≤ payField c 2 2 ∧ payField c 2 2 ≤ 60000 ∧ payField c 4 1 ≤ 1) ∧
    (∃ (t : Fin 64) (c : Cmd) (s : State) (k : Fin 240), s.hw.frozen = false ∧ Takes
        { op := 0x0A03, lane := 2, len := 10, states := [.factory, .opened, .sealed] } t c s ∧ payField c 8 1 = 0 ∧ (∀ (j : Fin 240), nodeIdAt s j ≠
        some (BitVec.ofNat 64 (payField c 0 8))) ∧ nodeIdAt s k = none ∧ (∀ j < k, nodeIdAt s j ≠ none)) ∧
    (∃ (t : Fin 64) (c : Cmd) (s : State) (j : Fin 240), s.hw.frozen = false ∧ Takes
        { op := 0x0A03, lane := 2, len := 10, states := [.factory, .opened, .sealed] } t c s ∧ payField c 8 1 = 0 ∧ nodeIdAt s j = some (BitVec.ofNat
        64 (payField c 0 8))) ∧
    (∃ (t : Fin 64) (c : Cmd) (s : State), s.hw.frozen = false ∧ Takes { op := 0x0A03, lane := 2, len := 10, states := [.factory, .opened, .sealed] }
        t c s ∧ payField c 8 1 = 0 ∧ (∀ (j : Fin 240), nodeIdAt s j ≠ none ∧ nodeIdAt s j ≠ some (BitVec.ofNat 64 (payField c 0 8)))) ∧
    (∃ (t : Fin 64) (c : Cmd) (s : State) (k : Fin 240), s.hw.frozen = false ∧ Takes
        { op := 0x0A03, lane := 2, len := 10, states := [.factory, .opened, .sealed] } t c s ∧ payField c 8 1 = 1 ∧ payField c 9 1 = ↑k + 1 ∧ nodeIdAt
        s k ≠ none) ∧
    (∃ (t : Fin 64) (c : Cmd) (s : State) (k : Fin 240), s.hw.frozen = false ∧ Takes
        { op := 0x0A03, lane := 2, len := 10, states := [.factory, .opened, .sealed] } t c s ∧ payField c 8 1 = 1 ∧ payField c 9 1 = ↑k + 1 ∧ nodeIdAt
        s k = none) ∧
    (∃ (t : Fin 64) (c : Cmd) (s : State) (k : Fin 240), s.hw.frozen = false ∧ Takes
        { op := 0x0A04, lane := 2, len := 12, states := [.factory, .opened, .sealed], rsv := [(1, 3)] } t c s ∧ payField c 0 1 = ↑k + 1 ∧ nodeIdAt s k
        = some (BitVec.ofNat 64 (payField c 4 8))) ∧
    (∃ (t : Fin 64) (c : Cmd) (s : State) (k : Fin 240), s.hw.frozen = false ∧ Takes
        { op := 0x0A04, lane := 2, len := 12, states := [.factory, .opened, .sealed], rsv := [(1, 3)] } t c s ∧ payField c 0 1 = ↑k + 1 ∧ nodeIdAt s k
        ≠ some (BitVec.ofNat 64 (payField c 4 8))) ∧
    (∃ (t : Fin 64) (c : Cmd) (s : State) (k : Fin 240), s.hw.frozen = false ∧ Takes
        { op := 0x0A07, lane := 2, len := 36, states := [.factory, .opened, .sealed], lean := true, rsv := [(2, 2)] } t c s ∧ payField c 0 1 = ↑k + 1
        ∧ 1 ≤ payField c 1 1 ∧ payField c 1 1 ≤ 32 ∧ s.plc.nodes[k].st ≠ 0 ∧ s.plc.nodes[k].downlink = []) ∧
    (∃ (t : Fin 64) (c : Cmd) (s : State) (k : Fin 240), s.hw.frozen = false ∧ Takes
        { op := 0x0A07, lane := 2, len := 36, states := [.factory, .opened, .sealed], lean := true, rsv := [(2, 2)] } t c s ∧ payField c 0 1 = ↑k + 1
        ∧ 1 ≤ payField c 1 1 ∧ payField c 1 1 ≤ 32 ∧ s.plc.nodes[k].st ≠ 0 ∧ s.plc.nodes[k].downlink ≠ []) ∧
    (∃ (t : Fin 64) (c : Cmd) (s : State) (k : Fin 240), s.hw.frozen = false ∧ Takes
        { op := 0x0A08, lane := 2, len := 1, states := [.factory, .opened, .sealed], lean := true } t c s ∧ payField c 0 1 = ↑k + 1 ∧
        s.plc.nodes[k].st ≠ 0 ∧ s.plc.ident = none) ∧
    (∃ (t : Fin 64) (c : Cmd) (s : State) (k : Fin 240), s.hw.frozen = false ∧ Takes
        { op := 0x0A08, lane := 2, len := 1, states := [.factory, .opened, .sealed], lean := true } t c s ∧ payField c 0 1 = ↑k + 1 ∧
        s.plc.nodes[k].st ≠ 0 ∧ s.plc.ident.isSome = true) :=
  ⟨
    ⟨0, request 0x0A02 1 [] 0, given 0x0A02 1 [] on, by decide +kernel⟩,
    ⟨0, request 0x0A05 1 [1] 0, given 0x0A05 1 [1] (on.modNode 0 (fun n => { n with st := 1, id := 5 })), 0, by decide +kernel⟩,
    ⟨0, request 0x0A05 1 [1] 0, given 0x0A05 1 [1] on, 0, by decide +kernel⟩,
    ⟨0, request 0x0A06 1 [1] 0, given 0x0A06 1 [1] (on.modNode 0 (fun n => { n with st := 1, id := 5 })), 0, by decide +kernel⟩,
    ⟨0, request 0x0A06 1 [1] 0, given 0x0A06 1 [1] on, 0, by decide +kernel⟩,
    ⟨0, request 0x0A09 11 [] 0, given 0x0A09 11 [] on, by decide +kernel⟩,
    ⟨0, request 0x0A09 11 [] 0, given 0x0A09 11 [] (on.modPlc (fun p => { p with maps := List.replicate 384 2 })), by decide +kernel⟩,
    ⟨0, request 0x0A01 2 [1, 40, 96, 234, 1, 0, 0, 0] 0, given 0x0A01 2 [1, 40, 96, 234, 1, 0, 0, 0] on, by decide +kernel⟩,
    ⟨0, request 0x0A03 2 ([5] ++ List.replicate 9 0) 0, given 0x0A03 2 ([5] ++ List.replicate 9 0) on, 0, by decide +kernel⟩,
    ⟨0, request 0x0A03 2 ([5] ++ List.replicate 9 0) 0, given 0x0A03 2 ([5] ++ List.replicate 9 0) (on.modNode 0 (fun n =>
        { n with st := 1, id := 5 })), 0, by decide +kernel⟩,
    ⟨0, request 0x0A03 2 ([6] ++ List.replicate 9 0) 0, given 0x0A03 2 ([6] ++ List.replicate 9 0) (on.modPlc (fun p =>
        { p with nodes := Vector.replicate 240 { Node.reset with st := 1, id := 5 } })), by decide +kernel⟩,
    ⟨0, request 0x0A03 2 ([6] ++ List.replicate 7 0 ++ [1, 1]) 0, given 0x0A03 2 ([6] ++ List.replicate 7 0 ++ [1, 1]) (on.modNode 0 (fun n =>
        { n with st := 1, id := 5 })), 0, by decide +kernel⟩,
    ⟨0, request 0x0A03 2 ([6] ++ List.replicate 7 0 ++ [1, 1]) 0, given 0x0A03 2 ([6] ++ List.replicate 7 0 ++ [1, 1]) on, 0, by decide +kernel⟩,
    ⟨0, request 0x0A04 2 ([1, 0, 0, 0, 5] ++ List.replicate 7 0) 0, given 0x0A04 2 ([1, 0, 0, 0, 5] ++ List.replicate 7 0) (on.modNode 0 (fun n =>
        { n with st := 1, id := 5 })), 0, by decide +kernel⟩,
    ⟨0, request 0x0A04 2 ([1, 0, 0, 0, 5] ++ List.replicate 7 0) 0, given 0x0A04 2 ([1, 0, 0, 0, 5] ++ List.replicate 7 0) on, 0, by decide +kernel⟩,
    ⟨0, request 0x0A07 2 ([1, 32, 0, 0] ++ List.replicate 32 9) 0, given 0x0A07 2 ([1, 32, 0, 0] ++ List.replicate 32 9) (on.modNode 0 (fun n =>
        { n with st := 1, id := 5 })), 0, by decide +kernel⟩,
    ⟨0, request 0x0A07 2 ([1, 32, 0, 0] ++ List.replicate 32 9) 0, given 0x0A07 2 ([1, 32, 0, 0] ++ List.replicate 32 9) (on.modNode 0 (fun n =>
        { n with st := 1, id := 5, downlink := [1] })), 0, by decide +kernel⟩,
    ⟨0, request 0x0A08 2 [1] 0, given 0x0A08 2 [1] (on.modNode 0 (fun n => { n with st := 1, id := 5 })), 0, by decide +kernel⟩,
    ⟨0, request 0x0A08 2 [1] 0, given 0x0A08 2 [1] ((on.modNode 0 (fun n => { n with st := 1, id := 5 })).modPlc (fun p =>
        { p with ident := some (0, 0, []) })), 0, by decide +kernel⟩⟩

/-- States and operands for the clauses of DisplayCommandsTakeEffect. -/
theorem wit_DisplayCommandsTakeEffect :
    (∃ (t : Fin 64) (c : Cmd) (s : State), Takes { op := 0x0B01, lane := 2, len := 8, states := [.factory, .opened, .sealed], rsv := [(7, 1)] } t c s
        ∧ s.hw.frozen = false ∧ payField c 0 1 ≤ 2 ∧ payField c 1 1 ≤ 2 ∧ payField c 2 2 ≤ 480 ∧ payField c 4 2 ≤ 320 ∧ payField c 6 1 ≤ 7) ∧
    (∃ (t : Fin 64) (c : Cmd) (s : State), Takes { op := 0x0B01, lane := 2, len := 8, states := [.factory, .opened, .sealed], rsv := [(7, 1)] } t c s
        ∧ s.hw.frozen = false ∧ (480 < payField c 2 2 ∨ 320 < payField c 4 2)) ∧
    (∃ (t : Fin 64) (c : Cmd) (s : State), Takes { op := 0x0B02, lane := 1, len := 0 } t c s) ∧
    (∃ (t : Fin 64) (c : Cmd) (s : State), Takes
        { op := 0x0B03, lane := 3, len := 8, bulkIn := some (fun p b => decide (2 * b.length = leAt p 4 2 * leAt p 6 2)), states := [.factory, .opened, .sealed], lean := true }
        t c s ∧ 1 ≤ payField c 4 2 ∧ 1 ≤ payField c 6 2 ∧ payField c 4 2 % 2 = 0 ∧ payField c 0 2 + payField c 4 2 ≤ s.disp.width.toNat ∧ payField c 2
        2 + payField c 6 2 ≤ s.disp.height.toNat ∧ (s.disp.legalMask = 0 ∨ payField c 2 2 + payField c 6 2 + 32 ≤ s.disp.height.toNat)) ∧
    (∃ (t : Fin 64) (c : Cmd) (s : State), Takes
        { op := 0x0B03, lane := 3, len := 8, bulkIn := some (fun p b => decide (2 * b.length = leAt p 4 2 * leAt p 6 2)), states := [.factory, .opened, .sealed], lean := true }
        t c s ∧ (payField c 4 2 % 2 = 1 ∨ s.disp.width.toNat < payField c 0 2 + payField c 4 2 ∨ s.disp.height.toNat < payField c 2 2 + payField c 6 2
        ∨ s.disp.legalMask ≠ 0 ∧ s.disp.height.toNat < payField c 2 2 + payField c 6 2 + 32)) ∧
    (∃ (t : Fin 64) (c : Cmd) (s : State) (k : Fin 8), Takes
        { op := 0x0B05, lane := 3, len := 1, bulkIn := some (fun x b => decide (b.length = 384)), states := [.factory, .opened, .sealed], lean := true }
        t c s ∧ payField c 0 1 = ↑k ∧ lutOk (bulkOf c s) = true ∧ (s.disp.upd = none ∧ s.disp.repairDue = false ∧ s.disp.checkPend = false) ∧
        s.hw.frozen = false) ∧
    (∃ (t : Fin 64) (c : Cmd) (s : State), Takes
        { op := 0x0B05, lane := 3, len := 1, bulkIn := some (fun x b => decide (b.length = 384)), states := [.factory, .opened, .sealed], lean := true }
        t c s ∧ payField c 0 1 ≤ 7 ∧ lutOk (bulkOf c s) = true ∧ s.disp.upd.isSome = true) ∧
    (∃ (t : Fin 64) (c : Cmd) (s : State), Takes
        { op := 0x0B05, lane := 3, len := 1, bulkIn := some (fun x b => decide (b.length = 384)), states := [.factory, .opened, .sealed], lean := true }
        t c s ∧ (7 < payField c 0 1 ∨ lutOk (bulkOf c s) = false)) ∧
    (∃ (t : Fin 64) (c : Cmd) (s : State), Takes
        { op := 0x0B06, lane := 3, len := 4, bulkIn := some (fun x b => decide (1 ≤ b.length) && decide (b.length ≤ 300)), states := [.factory, .opened, .sealed], lean := true }
        t c s ∧ payField c 0 4 + (bulkOf c s).length ≤ 300 ∧ (s.disp.upd = none ∧ s.disp.repairDue = false ∧ s.disp.checkPend = false) ∧ s.hw.frozen =
        false) ∧
    (∃ (t : Fin 64) (c : Cmd) (s : State), Takes
        { op := 0x0B06, lane := 3, len := 4, bulkIn := some (fun x b => decide (1 ≤ b.length) && decide (b.length ≤ 300)), states := [.factory, .opened, .sealed], lean := true }
        t c s ∧ 300 < payField c 0 4 + (bulkOf c s).length) ∧
    (∃ (t : Fin 64) (c : Cmd) (s : State), Takes { op := 0x0B07, lane := 2, len := 8, states := [.factory, .opened], pairs := [(0, 4)] } t c s ∧
        s.hw.frozen = false ∧ payField c 0 4 < 32) ∧
    (∃ (t : Fin 64) (c : Cmd) (s : State), Takes { op := 0x0B07, lane := 2, len := 8, states := [.factory, .opened], pairs := [(0, 4)] } t c s ∧
        s.hw.frozen = false ∧ 32 ≤ payField c 0 4) ∧
    (∃ (t : Fin 64) (c : Cmd) (s : State), Takes
        { op := 0x0B04, lane := 2, len := 10, states := [.factory, .opened, .sealed], lean := true, rsv := [(1, 1)] } t c s ∧ payField c 0 1 ≤ 2 ∧
        (s.disp.mode = 0 ∨ s.disp.crevOpen = true)) ∧
    (∃ (t : Fin 64) (c : Cmd) (s : State), Takes
        { op := 0x0B04, lane := 2, len := 10, states := [.factory, .opened, .sealed], lean := true, rsv := [(1, 1)] } t c s ∧ payField c 0 1 ≤ 2 ∧
        s.disp.mode ≠ 0 ∧ s.disp.crevOpen = false ∧ regionAllowed s.disp (payField c 2 2) (payField c 4 2) (payField c 6 2) (payField c 8 2) = false) ∧
    (∃ (t : Fin 64) (c : Cmd) (s : State), Takes
        { op := 0x0B04, lane := 2, len := 10, states := [.factory, .opened, .sealed], lean := true, rsv := [(1, 1)] } t c s ∧ payField c 0 1 ≤ 2 ∧
        s.disp.mode ≠ 0 ∧ s.disp.crevOpen = false ∧ regionAllowed s.disp (payField c 2 2) (payField c 4 2) (payField c 6 2) (payField c 8 2) = true ∧
        s.disp.mode = 1 ∧ bandsLoaded s.disp (↑(chooseBand s).1) (payField c 2 2) (payField c 4 2) (payField c 6 2) (payField c 8 2) = false) ∧
    (∃ (t : Fin 64) (c : Cmd) (s : State), Takes
        { op := 0x0B04, lane := 2, len := 10, states := [.factory, .opened, .sealed], lean := true, rsv := [(1, 1)] } t c s ∧ payField c 0 1 ≤ 2 ∧
        s.disp.mode ≠ 0 ∧ s.disp.crevOpen = false ∧ regionAllowed s.disp (payField c 2 2) (payField c 4 2) (payField c 6 2) (payField c 8 2) = true ∧
        s.disp.mode = 1 ∧ bandsLoaded s.disp (↑(chooseBand s).1) (payField c 2 2) (payField c 4 2) (payField c 6 2) (payField c 8 2) = true ∧
        (s.disp.upd.isSome = true ∨ s.disp.repairDue = true)) ∧
    (∃ (t : Fin 64) (c : Cmd) (s : State), Takes
        { op := 0x0B04, lane := 2, len := 10, states := [.factory, .opened, .sealed], lean := true, rsv := [(1, 1)] } t c s ∧ payField c 0 1 ≤ 2 ∧
        s.disp.mode ≠ 0 ∧ s.disp.crevOpen = false ∧ regionAllowed s.disp (payField c 2 2) (payField c 4 2) (payField c 6 2) (payField c 8 2) = true ∧
        s.disp.mode = 1 ∧ bandsLoaded s.disp (↑(chooseBand s).1) (payField c 2 2) (payField c 4 2) (payField c 6 2) (payField c 8 2) = true ∧
        s.disp.upd = none ∧ s.disp.repairDue = false ∧ s.disp.checkPend = false ∧ s.hw.frozen = false) ∧
    (∃ (t : Fin 64) (c : Cmd) (s : State), Takes
        { op := 0x0B04, lane := 2, len := 10, states := [.factory, .opened, .sealed], lean := true, rsv := [(1, 1)] } t c s ∧ payField c 0 1 ≤ 2 ∧
        s.disp.mode ≠ 0 ∧ s.disp.crevOpen = false ∧ regionAllowed s.disp (payField c 2 2) (payField c 4 2) (payField c 6 2) (payField c 8 2) = true
        ∧ s.disp.mode = 2) :=
  ⟨
    ⟨0, request 0x0B01 2 [2, 2, 224, 1, 64, 1, 7, 0] 0, given 0x0B01 2 [2, 2, 224, 1, 64, 1, 7, 0] panel, by decide +kernel⟩,
    ⟨0, request 0x0B01 2 [2, 2, 226, 1, 64, 1, 7, 0] 0, given 0x0B01 2 [2, 2, 226, 1, 64, 1, 7, 0] panel, by decide +kernel⟩,
    ⟨0, request 0x0B02 1 [] 0, given 0x0B02 1 [] panel, by decide +kernel⟩,
    ⟨0, request 0x0B03 7 [98, 0, 63, 0, 2, 0, 1, 0] 1, givenBulk 0x0B03 7 [98, 0, 63, 0, 2, 0, 1, 0] [33] panel, by decide +kernel⟩,
    ⟨0, request 0x0B03 7 [99, 0, 63, 0, 2, 0, 1, 0] 1, givenBulk 0x0B03 7 [99, 0, 63, 0, 2, 0, 1, 0] [33] panel, by decide +kernel⟩,
    ⟨0, request 0x0B05 7 [0] 384, givenBulk 0x0B05 7 [0] ([8, 10, 1] ++ List.replicate 141 0 ++ [1] ++ List.replicate 239 0) panel, 0,
        by decide +kernel⟩,
    ⟨0, request 0x0B05 7 [0] 384, givenBulk 0x0B05 7 [0] ([8, 10, 1] ++ List.replicate 141 0 ++ [1] ++ List.replicate 239 0) (panel.modDisp (fun d =>
        { d with upd := some { id := 1, typ := 0, x := 0, y := 0, w := 2, h := 1, frames := 1, frame := 0, stage := .record, band := 0, copied := [], groups := [] } })),
        by decide +kernel⟩,
    ⟨0, request 0x0B05 7 [0] 384, givenBulk 0x0B05 7 [0] (List.replicate 384 0) panel, by decide +kernel⟩,
    ⟨0, request 0x0B06 7 [43, 1, 0, 0] 1, givenBulk 0x0B06 7 [43, 1, 0, 0] [33] panel, by decide +kernel⟩,
    ⟨0, request 0x0B06 7 [44, 1, 0, 0] 1, givenBulk 0x0B06 7 [44, 1, 0, 0] [33] panel, by decide +kernel⟩,
    ⟨0, request 0x0B07 2 [31, 0, 0, 0, 224, 255, 255, 255] 0, given 0x0B07 2 [31, 0, 0, 0, 224, 255, 255, 255] panel, by decide +kernel⟩,
    ⟨0, request 0x0B07 2 [2, 2, 224, 1, 253, 253, 31, 254] 0, given 0x0B07 2 [2, 2, 224, 1, 253, 253, 31, 254] panel, by decide +kernel⟩,
    ⟨0, request 0x0B04 2 [0, 0, 98, 0, 63, 0, 2, 0, 1, 0] 0, given 0x0B04 2 [0, 0, 98, 0, 63, 0, 2, 0, 1, 0] (panel.modDisp (fun d =>
        { d with mode := 0 })), by decide +kernel⟩,
    ⟨0, request 0x0B04 2 [1, 0, 99, 0, 63, 0, 2, 0, 1, 0] 0, given 0x0B04 2 [1, 0, 99, 0, 63, 0, 2, 0, 1, 0] panel, by decide +kernel⟩,
    ⟨0, request 0x0B04 2 [0, 0, 98, 0, 63, 0, 2, 0, 1, 0] 0, given 0x0B04 2 [0, 0, 98, 0, 63, 0, 2, 0, 1, 0] (panel.modDisp (fun d =>
        { d with luts := Vector.replicate 8 none })), by decide +kernel⟩,
    ⟨0, request 0x0B04 2 [0, 0, 98, 0, 63, 0, 2, 0, 1, 0] 0, given 0x0B04 2 [0, 0, 98, 0, 63, 0, 2, 0, 1, 0] (panel.modDisp (fun d =>
        { d with upd := some { id := 1, typ := 0, x := 0, y := 0, w := 2, h := 1, frames := 1, frame := 0, stage := .record, band := 0, copied := [], groups := [] } })),
        by decide +kernel⟩,
    ⟨0, request 0x0B04 2 [0, 0, 98, 0, 63, 0, 2, 0, 1, 0] 0, given 0x0B04 2 [0, 0, 98, 0, 63, 0, 2, 0, 1, 0] panel, by decide +kernel⟩,
    ⟨0, request 0x0B04 2 [0, 0, 98, 0, 63, 0, 2, 0, 1, 0] 0, given 0x0B04 2 [0, 0, 98, 0, 63, 0, 2, 0, 1, 0] (panel.modDisp (fun d =>
        { d with mode := 2 })), by decide +kernel⟩⟩

/-- States and operands for the clauses of AuxCommandsTakeEffect. -/
theorem wit_AuxCommandsTakeEffect :
    (∃ (t : Fin 64) (c : Cmd) (s : State), Takes { op := 0x0C03, lane := 1, len := 0 } t c s) ∧
    (∃ (t : Fin 64) (c : Cmd) (s : State) (n : Fin 8), Takes { op := 0x0C06, lane := 1, len := 1 } t c s ∧ payField c 0 1 = ↑n) ∧
    (∃ (t : Fin 64) (c : Cmd) (s : State) (n : Fin 8), Takes { op := 0x0C08, lane := 1, len := 1 } t c s ∧ payField c 0 1 = ↑n) ∧
    (∃ (t : Fin 64) (c : Cmd) (s : State), Takes { op := 0x0C08, lane := 1, len := 1 } t c s ∧ 7 < payField c 0 1) ∧
    (∃ (t : Fin 64) (c : Cmd) (s : State), Takes { op := 0x0C01, lane := 2, len := 24, states := [.factory, .opened, .sealed], rsv := [(3, 1)] } t c s
        ∧ s.hw.frozen = false ∧ payField c 0 1 ≤ 1 ∧ 1 ≤ payField c 1 1 ∧ payField c 1 1 ≤ 16 ∧ payField c 2 1 ≤ 1 ∧ (∀ b ∈ List.take (payField c 1 1)
        (List.drop 4 (dPayload c.desc)), BitVec.toNat b ≤ 15) ∧ payField c 1 1 * convTime (payField c 2 1 == 1) ≤ payField c 20 4 ∧ payField c 20 4 ≤
        60000000) ∧
    (∃ (t : Fin 64) (c : Cmd) (s : State) (n : Fin 16), Takes
        { op := 0x0C02, lane := 2, len := 8, states := [.factory, .opened, .sealed], rsv := [(2, 2)] } t c s ∧ s.hw.frozen = false ∧ payField c 0 1 =
        ↑n ∧ payField c 1 1 ≤ 1 ∧ payField c 4 2 ≤ payField c 6 2) ∧
    (∃ (t : Fin 64) (c : Cmd) (s : State) (n : Fin 16), Takes
        { op := 0x0C02, lane := 2, len := 8, states := [.factory, .opened, .sealed], rsv := [(2, 2)] } t c s ∧ s.hw.frozen = false ∧ payField c 0 1 =
        ↑n ∧ payField c 1 1 ≤ 1 ∧ payField c 6 2 < payField c 4 2) ∧
    (∃ (t : Fin 64) (c : Cmd) (s : State) (n : Fin 16), Takes { op := 0x0C04, lane := 1, len := 1 } t c s ∧ payField c 0 1 = ↑n ∧ s.aux.powered = true
        ∧ s.aux.cal = true) ∧
    (∃ (t : Fin 64) (c : Cmd) (s : State) (n : Fin 16), Takes { op := 0x0C04, lane := 1, len := 1 } t c s ∧ payField c 0 1 = ↑n ∧ s.aux.powered =
        true ∧ s.aux.cal = false ∧ s.stalled 10 = false ∧ s.aux.running = none ∧ s.aux.pending = [] ∧ s.aux.lowPowerPend = none) ∧
    (∃ (t : Fin 64) (c : Cmd) (s : State), Takes { op := 0x0C04, lane := 1, len := 1 } t c s ∧ 15 < payField c 0 1) ∧
    (∃ (t : Fin 64) (c : Cmd) (s : State) (n : Fin 8), Takes { op := 0x0C05, lane := 2, len := 4, states := [.factory, .opened] } t c s ∧ s.hw.frozen
        = false ∧ payField c 0 1 = ↑n ∧ payField c 1 1 ≤ 1 ∧ 10 ≤ payField c 2 2 ∧ payField c 2 2 ≤ 20000) ∧
    (∃ (t : Fin 64) (c : Cmd) (s : State) (n : Fin 8), Takes { op := 0x0C05, lane := 2, len := 4, states := [.factory, .opened] } t c s ∧ s.hw.frozen
        = false ∧ payField c 0 1 = ↑n ∧ payField c 1 1 ≤ 1 ∧ (payField c 2 2 < 10 ∨ 20000 < payField c 2 2)) ∧
    (∃ (t : Fin 64) (c : Cmd) (s : State) (n : Fin 8), Takes
        { op := 0x0C07, lane := 2, len := 16, states := [.factory, .opened], d2 := true, rsv := [(1, 3)] } t c s ∧ s.hw.frozen = false ∧ payField c 0
        1 = ↑n ∧ cfWriteOk s (payField c 4 4) (payField c 8 8) = true) ∧
    (∃ (t : Fin 64) (c : Cmd) (s : State) (n : Fin 8), Takes
        { op := 0x0C07, lane := 2, len := 16, states := [.factory, .opened], d2 := true, rsv := [(1, 3)] } t c s ∧ s.hw.frozen = false ∧ payField c 0
        1 = ↑n ∧ cfWriteOk s (payField c 4 4) (payField c 8 8) = false) :=
  ⟨
    ⟨0, request 0x0C03 1 [] 0, given 0x0C03 1 [] on, by decide +kernel⟩,
    ⟨0, request 0x0C06 1 [0] 0, given 0x0C06 1 [0] on, 0, by decide +kernel⟩,
    ⟨0, request 0x0C08 1 [0] 0, given 0x0C08 1 [0] on, 0, by decide +kernel⟩,
    ⟨0, request 0x0C08 1 [8] 0, given 0x0C08 1 [8] on, by decide +kernel⟩,
    ⟨0, request 0x0C01 2 ([0, 16, 0, 0] ++ List.replicate 16 15 ++ [0, 135, 147, 3]) 0, given 0x0C01 2 ([0, 16, 0, 0] ++ List.replicate 16 15 ++ [0,
        135, 147, 3]) on, by decide +kernel⟩,
    ⟨0, request 0x0C02 2 [0, 1, 0, 0, 5, 0, 5, 0] 0, given 0x0C02 2 [0, 1, 0, 0, 5, 0, 5, 0] on, 0, by decide +kernel⟩,
    ⟨0, request 0x0C02 2 [0, 1, 0, 0, 6, 0, 5, 0] 0, given 0x0C02 2 [0, 1, 0, 0, 6, 0, 5, 0] on, 0, by decide +kernel⟩,
    ⟨0, request 0x0C04 1 [0] 0, given 0x0C04 1 [0] (on.modAux (fun a => { a with powered := true, ready := true, cal := true })), 0,
        by decide +kernel⟩,
    ⟨0, request 0x0C04 1 [15] 0, given 0x0C04 1 [15] auxOn, 15, by decide +kernel⟩,
    ⟨0, request 0x0C04 1 [16] 0, given 0x0C04 1 [16] on, by decide +kernel⟩,
    ⟨0, request 0x0C05 2 [0, 1, 32, 78] 0, given 0x0C05 2 [0, 1, 32, 78] on, 0, by decide +kernel⟩,
    ⟨0, request 0x0C05 2 [0, 1, 33, 78] 0, given 0x0C05 2 [0, 1, 33, 78] on, 0, by decide +kernel⟩,
    ⟨0, request 0x0C07 2 ([0, 0, 0, 0, 0, 64, 1] ++ List.replicate 9 0) 0, given 0x0C07 2 ([0, 0, 0, 0, 0, 64, 1] ++ List.replicate 9 0) on, 0,
        by decide +kernel⟩,
    ⟨0, request 0x0C07 2 (List.replicate 16 0) 0, given 0x0C07 2 (List.replicate 16 0) on, 0, by decide +kernel⟩⟩

/-- States and operands for the clauses of StoreRequestsWaitForKettle. -/
theorem wit_StoreRequestsWaitForKettle :
    (∃ (ch : Change) (t : Fin 64) (s : State), s.firnOn = true ∧ s.hw.frozen = false ∧ s.stalled 11 = false ∧ requestIdsWf s = true ∧ kettleFresh s =
        false) ∧
    (∃ (ch : Change) (t : Fin 64) (s : State) (d : Int), s.firnOn = true ∧ s.hw.frozen = false ∧ s.stalled 11 = false ∧ requestIdsWf s = true ∧
        kettleFresh s = true ∧ kettleOk s = false ∧ ch = Change.stepEpoch d) ∧
    (∃ (ch : Change) (t : Fin 64) (s : State) (g : CalTarget), s.firnOn = true ∧ s.hw.frozen = false ∧ s.stalled 11 = false ∧ requestIdsWf s = true
        ∧ kettleFresh s = true ∧ kettleOk s = false ∧ ch = Change.calCommit g) ∧
    (∃ (ch : Change) (t : Fin 64) (s : State), s.firnOn = true ∧ s.hw.frozen = false ∧ s.stalled 11 = false ∧ requestIdsWf s = true ∧ kettleFresh s =
        true ∧ kettleOk s = false ∧ (∀ (d : Int), ch ≠ Change.stepEpoch d) ∧ (∀ (g : CalTarget), ch ≠ Change.calCommit g) ∧ (∀ (x y : List (Fin 24 ×
        Word)) (z : List Word), ch ≠ Change.mirrorApply x y z)) ∧
    (∃ (ch : Change) (t : Fin 64) (s : State), s.firnOn = true ∧ s.hw.frozen = false ∧ s.stalled 11 = false ∧ requestIdsWf s = true ∧ kettleFresh s
        = true ∧ kettleOk s = true ∧ (∀ o ∈ s.firn.reqs, o.stage ≠ ReqStage.kwait) ∧ (∀ o ∈ s.firn.reqs, ∀ k ∈ reqKeys o, k ∉ changeKeys ch) ∧
        (isCommit ch = true → ∀ o ∈ s.firn.reqs, isCommit o.change = true → o.stage = ReqStage.running)) :=
  ⟨
    ⟨.ltrim 5, 0, given 0x0100 0 [] on, by decide +kernel⟩,
    ⟨.stepEpoch 1000000, 0, kettled 0 (given 0x0100 0 [] on), 1000000, by decide +kernel⟩,
    ⟨.calCommit (.cir 0), 0, kettled 0 (given 0x0100 0 [] on), .cir 0, by decide +kernel⟩,
    ⟨.ltrim 5, 0, kettled 0 (given 0x0100 0 [] on), by decide +kernel, by decide +kernel, by decide +kernel, by decide +kernel, by decide +kernel,
        by decide +kernel, by simp [reqOf], by simp [reqOf], by simp [reqOf]⟩,
    ⟨.ltrim 5, 0, kettled 0xFFFF (given 0x0100 0 [] on), by decide +kernel⟩⟩

/-- States and operands for the clauses of StoresEndInOkOrWorn. -/
theorem wit_StoresEndInOkOrWorn :
    (∃ (r : StoreReq) (t : Fin 64) (s : State), r.tag = some t ∧ (∀ (a b : List (Fin 24 × Word)) (e : List Word), r.change ≠ Change.mirrorApply a b
        e) ∧ (r.members.any fun (m : Member) => decide (m.st = MemberState.failed)) = true) ∧
    (∃ (r : StoreReq) (t : Fin 64) (s : State), r.tag = some t ∧ (∀ (a b : List (Fin 24 × Word)) (e : List Word), r.change ≠ Change.mirrorApply a b
        e) ∧ (r.members.any fun (m : Member) => decide (m.st = MemberState.failed)) = false ∧ followUps r.change (applyChange r.change (dropReq
        r.id s)) = []) :=
  ⟨
    ⟨reqOf 0 (.ltrim 5) .running [mem 108 false 1 .failed] (some 0), 0, withReqs [reqOf 0 (.ltrim 5) .running [mem 108 false 1 .failed] (some 0)]
        (given 0x0706 2 [0, 0, 0, 0] on), by decide +kernel, by simp [reqOf], by decide +kernel⟩,
    ⟨reqOf 0 (.ltrim 5) .running [mem 108 false 0 .done] (some 0), 0, withReqs [reqOf 0 (.ltrim 5) .running [mem 108 false 0 .done] (some 0)]
        (given 0x0706 2 [0, 0, 0, 0] on), by decide +kernel, by simp [reqOf], by decide +kernel, by decide +kernel⟩⟩

/-- States and operands for the clauses of StoredChangesTakeEffect. -/
theorem wit_StoredChangesTakeEffect :
    (∃ (s : State) (c : Fin 24) (q : Word) (p : BitVec 48), cirEn s.circuits[c].cfg = true ∧ s.circuits[c].stopped = false) ∧
    (∃ (s : State) (c : Fin 24) (z : Byte) (nl : NoLoad), cirEn s.circuits[c].cfg = true ∧ s.circuits[c].stopped = false) :=
  ⟨
    ⟨on, 0, 1, 1000, by decide +kernel⟩,
    ⟨on, 0, 0, .reset, by decide +kernel⟩⟩

/-- States and operands for the clauses of PageStoresEndInTheirSlot. -/
theorem wit_PageStoresEndInTheirSlot :
    (∃ (b : Fin 16) (w : SaveMeter) (s : State) (r : StoreReq) (m : Member), s.firnOn = true ∧ s.stalled 11 = false ∧ busyMember s.firn.reqs ↑b =
        some (r, m)) ∧
    (∃ (b : Fin 16) (w : SaveMeter) (s : State) (r : StoreReq) (m : Member), s.firnOn = true ∧ s.stalled 11 = false ∧ busyMember s.firn.reqs ↑b =
        some (r, m) ∧ m.tries = 0) ∧
    (∃ (b : Fin 16) (w : SaveMeter) (s : State) (r : StoreReq) (m : Member), s.firnOn = true ∧ s.stalled 11 = false ∧ busyMember s.firn.reqs ↑b =
        some (r, m) ∧ m.tries ≠ 0) :=
  ⟨
    ⟨12, ⟨40, 5000⟩, withReqs [reqOf 0 (.ltrim 5) .running [mem 108 false 0 .busy] none] on, reqOf 0 (.ltrim 5) .running [mem 108 false 0 .busy]
        none, mem 108 false 0 .busy, by decide +kernel⟩,
    ⟨12, ⟨40, 5000⟩, withReqs [reqOf 0 (.ltrim 5) .running [mem 108 false 0 .busy] none] on, reqOf 0 (.ltrim 5) .running [mem 108 false 0 .busy]
        none, mem 108 false 0 .busy, by decide +kernel⟩,
    ⟨12, ⟨40, 5000⟩, withReqs [reqOf 0 (.ltrim 5) .running [mem 108 true 1 .busy] none] on, reqOf 0 (.ltrim 5) .running [mem 108 true 1 .busy]
        none, mem 108 true 1 .busy, by decide +kernel⟩⟩

/-- States and operands for the clauses of FirnEventsTakeEffect. -/
theorem wit_FirnEventsTakeEffect :
    (∃ (base : ℕ) (s : State) (r : StoreReq), s.firnOn = true ∧ s.stalled 11 = false ∧ List.find? (groupReady s.firn base) s.firn.reqs = some r) ∧
    (∃ (s : State) (r : StoreReq), s.firnOn = true ∧ s.hw.frozen = false ∧ s.stalled 11 = false ∧ kettleFresh s = true ∧ kettleOk s = true ∧
        s.firn.reqs = [r] ∧ r.stage = ReqStage.kwait) ∧
    (∃ (s : State), s.coreOn = true ∧ s.hw.loaded = true ∧ s.hw.frozen = false ∧ 28800 ≤ BitVec.toNat s.firn.ptCkpt) ∧
    (∃ (s : State) (a b : Bool), s.coreOn = true ∧ s.hw.loaded = true ∧ s.hw.frozen = false ∧ 1575 ≤ BitVec.toNat s.firn.ptScrub ∧ s.firn.reqs = [] ∧
        pageLost s.firn s.firn.scrubPage.toNat = false ∧ (a && b) = false) ∧
    (∃ (s : State), s.coreOn = true ∧ s.hw.loaded = true ∧ s.hw.frozen = false ∧ 1575 ≤ BitVec.toNat s.firn.ptScrub ∧ s.firn.reqs = []) ∧
    (∃ (s : State), s.coreOn = true ∧ s.hw.loaded = true ∧ s.hw.frozen = false ∧ BitVec.toNat s.firn.ptCkpt < 28800) :=
  ⟨
    ⟨76, withReqs [reqOf 0 (.cirMap [] []) .running ((List.range 8).map (fun k => mem (76 + k) true 0 .done)) none] on,
        { id := 0, rank := 3, change := Change.cirMap [] [], tag := none, stage := ReqStage.running, members := [{ page := 76, data := (List.replicate 64 (1)), slot := true, group := 0, tries := 0, st := MemberState.done }, { page := 77, data := (List.replicate 64 (1)), slot := true, group := 0, tries := 0, st := MemberState.done }, { page := 78, data := (List.replicate 64 (1)), slot := true, group := 0, tries := 0, st := MemberState.done }, { page := 79, data := (List.replicate 64 (1)), slot := true, group := 0, tries := 0, st := MemberState.done }, { page := 80, data := (List.replicate 64 (1)), slot := true, group := 0, tries := 0, st := MemberState.done }, { page := 81, data := (List.replicate 64 (1)), slot := true, group := 0, tries := 0, st := MemberState.done }, { page := 82, data := (List.replicate 64 (1)), slot := true, group := 0, tries := 0, st := MemberState.done }, { page := 83, data := (List.replicate 64 (1)), slot := true, group := 0, tries := 0, st := MemberState.done }] },
        by decide +kernel⟩,
    ⟨kettled 0xFFFF (withReqs [reqOf 0 (.ltrim 5) .kwait [] none] on),
        { id := 0, rank := 3, change := Change.ltrim 5, tag := none, stage := ReqStage.kwait, members := [] }, by decide +kernel⟩,
    ⟨on.modFirn (fun f => { f with ptCkpt := 28800 }), by decide +kernel⟩,
    ⟨on.modFirn (fun f => { f with ptScrub := 1575, slots := [(0, true)] }), true, false, by decide +kernel⟩,
    ⟨on.modFirn (fun f => { f with ptScrub := 1575 }), by decide +kernel⟩,
    ⟨withReqs [reqOf 0 (.cirMap [] []) .running ((List.range 8).map (fun k => mem (76 + k) true 0 .done)) none] on, by decide +kernel⟩⟩

/-- States and operands for the clauses of CycleClosesBookTotals. -/
theorem wit_CycleClosesBookTotals :
    (∃ (c : Fin 24) (s : State) (i : Instr), s.metering = true ∧ s.sec.state ≠ .retired ∧ (i = Instr.cycleClose c ∧ s.circuits[c].due =
        CloseDue.crossing ∨ i = Instr.nozcTimeout c ∧ s.circuits[c].due = CloseDue.timeout ∨ i = Instr.fixedBoundary c ∧ s.circuits[c].due =
        CloseDue.boundary)) :=
  ⟨0, on.modCir 0 (fun c => { c with due := .crossing, len := 100 }), .cycleClose 0, by decide +kernel⟩

/-- States and operands for the clauses of PulsesAndPortEvents. -/
theorem wit_PulsesAndPortEvents :
    (∃ (o : Fin 8) (s : State) (at_ : ℕ) (rest : List ℕ), s.metering = true ∧ s.cfs[o].pulse = none ∧ s.cfs[o].sched = at_ :: rest ∧ at_ ≤
        s.time.ticks) ∧
    (∃ (o : Fin 8) (s : State) (at_ : ℕ) (rest : List ℕ), s.metering = true ∧ s.cfs[o].pulse = none ∧ s.cfs[o].sched = at_ :: rest ∧ s.time.ticks <
        at_) ∧
    (∃ (o : Fin 8) (s : State) (stop : ℕ), s.metering = true ∧ s.cfs[o].pulse = some stop ∧ stop ≤ s.time.ticks) ∧
    (∃ (p : Fin 24) (s : State), s.coreOn = true ∧ s.ports[p].settle = 1) ∧
    (∃ (k : Fin 2) (s : State), s.coreOn = true ∧ s.pqSets[k].settle = 1) ∧
    (∃ (p : Fin 24) (g : Word) (d : Word) (s : State), s.metering = true ∧ 32000 ≤ s.ports[p].blockCnt) ∧
    (∃ (p : Fin 24) (g : Word) (d : Word) (s : State) (c : Fin 24), s.metering = true ∧ 32000 ≤ s.ports[p].blockCnt ∧ s.circuitOf p = some c) ∧
    (∃ (p : Fin 24) (g : Word) (d : Word) (s : State), s.metering = true ∧ 32000 ≤ s.ports[p].blockCnt ∧ s.circuitOf p = none) ∧
    (∃ (p : Fin 24) (g : Word) (d : Word) (s : State), s.metering = true ∧ 32000 ≤ s.ports[p].blockCnt ∧ blockValid s.ports[p] = false) ∧
    (∃ (p : Fin 24) (g : Word) (d : Word) (s : State), s.metering = true ∧ s.ports[p].blockCnt < 32000) ∧
    (∃ (p : Fin 24) (s : State), s.coreOn = true ∧ s.ports[p].mstate = MatchState.track ∧ 60 ≤ BitVec.toNat s.ports[p].age) ∧
    (∃ (s : State), s.coreOn = true ∧ s.hw.loaded = true ∧ s.hw.frozen = false ∧ 691200 ≤ BitVec.toNat s.firn.ptMatch) ∧
    (∃ (s : State), s.coreOn = true ∧ s.time.mode = AlignMode.pull ∧ 32000 ≤ s.time.lockRun) :=
  ⟨
    ⟨0, on.modCf 0 (fun c => { c with sched := [0, 9] }), 0, [9], by decide +kernel⟩,
    ⟨0, on.modCf 0 (fun c => { c with sched := [1] }), 1, [], by decide +kernel⟩,
    ⟨0, on.modCf 0 (fun c => { c with pulse := some 0 }), 0, by decide +kernel⟩,
    ⟨0, on.modPort 0 (fun p => { p with settle := 1 }), by decide +kernel⟩,
    ⟨0, on.modSet 0 (fun p => { p with settle := 1 }), by decide +kernel⟩,
    ⟨0, 0x40000000, 0, on.modPort 0 (fun p => { p with blockCnt := 32000 }), by decide +kernel⟩,
    ⟨0, 0x40000000, 0, on.modPort 0 (fun p => { p with blockCnt := 32000 }), 0, by decide +kernel⟩,
    ⟨0, 0x40000000, 0, (on.modPort 0 (fun p => { p with blockCnt := 32000 })).modCir 0 (fun c => { c with cfg := 0 }), by decide +kernel⟩,
    ⟨0, 0x40000000, 0, on.modPort 0 (fun p => { p with blockCnt := 32000 }), by decide +kernel⟩,
    ⟨0, 0x40000000, 0, on, by decide +kernel⟩,
    ⟨0, on.modPort 0 (fun p => { p with mstate := .track, age := 60 }), by decide +kernel⟩,
    ⟨on.modFirn (fun f => { f with ptMatch := 691200 }), by decide +kernel⟩,
    ⟨on.modTime (fun f => { f with mode := .pull, lockRun := 32000 }), by decide +kernel⟩⟩

/-- States and operands for the clauses of CoarseWithoutMatching. -/
theorem wit_CoarseWithoutMatching :
    (∃ (r : Port), portDual r.cfg = false ∨ r.mstate = MatchState.fault) :=
  ⟨{ Port.reset 0 with cfg := 1 }, by decide +kernel⟩

/-- States and operands for the clauses of TracerEventsTakeEffect. -/
theorem wit_TracerEventsTakeEffect :
    (∃ (p : Fin 24) (hi : Bool) (lo : Bool) (lost : Bool) (s : State), s.metering = true ∧ pilotOn s.ports[p] = true ∧ (hi = true ∨ lo = true ∨
        lost = true)) ∧
    (∃ (p : Fin 24) (hi : Bool) (lo : Bool) (lost : Bool) (s : State) (zr : ℤ) (zx : ℤ), s.metering = true ∧ pilotOn s.ports[p] = true ∧ hi = false
        ∧ lo = false ∧ lost = false ∧ 8000 ≤ s.ports[p].tracer.demN ∧ demodulated s.ports[p].tracer = some (zr, zx) ∧ 10000000000 ^ 2 < zr * zr +
        zx * zx) ∧
    (∃ (p : Fin 24) (hi : Bool) (lo : Bool) (lost : Bool) (s : State) (zr : ℤ) (zx : ℤ), s.metering = true ∧ pilotOn s.ports[p] = true ∧ hi = false
        ∧ lo = false ∧ lost = false ∧ 8000 ≤ s.ports[p].tracer.demN ∧ demodulated s.ports[p].tracer = some (zr, zx) ∧ zr * zr + zx * zx ≤
        10000000000 ^ 2) ∧
    (∃ (p : Fin 24) (hi : Bool) (lo : Bool) (lost : Bool) (s : State), s.metering = true ∧ pilotOn s.ports[p] = true ∧ hi = false ∧ lo = false ∧
        lost = false ∧ 8000 ≤ s.ports[p].tracer.demN ∧ demodulated s.ports[p].tracer = none) ∧
    (∃ (p : Fin 24) (hi : Bool) (lo : Bool) (lost : Bool) (s : State), s.metering = true ∧ pilotOn s.ports[p] = true ∧ hi = false ∧ lo = false ∧
        lost = false ∧ s.ports[p].tracer.demN < 8000) ∧
    (∃ (p : Fin 24) (wide : Bool) (s : State), s.metering = true ∧ pilotOn s.ports[p] = true ∧ s.ports[p].tracer.st = 2 ∧ 4 * 2 ^ (BitVec.toNat
        s.ports[p].tracer.cfg / 256 % 16) ≤ s.ports[p].tracer.blocks.length ∧ (meanOf (List.map (fun (x : ℤ × ℤ) => x.1) s.ports[p].tracer.blocks)
        ^ 2 + meanOf (List.map (fun (x : ℤ × ℤ) => x.2) s.ports[p].tracer.blocks) ^ 2) * ↑s.ports[p].tracer.blocks.length < 10000 * (List.map (fun
        (a : ℤ × ℤ) => (meanOf (List.map (fun (x : ℤ × ℤ) => x.1) s.ports[p].tracer.blocks) - a.1) ^ 2 + (meanOf (List.map (fun (x : ℤ × ℤ) => x.2)
        s.ports[p].tracer.blocks) - a.2) ^ 2) s.ports[p].tracer.blocks).sum) ∧
    (∃ (p : Fin 24) (wide : Bool) (s : State), s.metering = true ∧ pilotOn s.ports[p] = true ∧ s.ports[p].tracer.st = 2 ∧ 4 * 2 ^ (BitVec.toNat
        s.ports[p].tracer.cfg / 256 % 16) ≤ s.ports[p].tracer.blocks.length ∧ periodNoisy wide (meanOf (List.map (fun (x : ℤ × ℤ) => x.1)
        s.ports[p].tracer.blocks), meanOf (List.map (fun (x : ℤ × ℤ) => x.2) s.ports[p].tracer.blocks)) s.ports[p].tracer.blocks = true) ∧
    (∃ (p : Fin 24) (wide : Bool) (s : State), s.metering = true ∧ pilotOn s.ports[p] = true ∧ s.ports[p].tracer.st = 2 ∧ 4 * 2 ^ (BitVec.toNat
        s.ports[p].tracer.cfg / 256 % 16) ≤ s.ports[p].tracer.blocks.length ∧ periodNoisy wide (meanOf (List.map (fun (x : ℤ × ℤ) => x.1)
        s.ports[p].tracer.blocks), meanOf (List.map (fun (x : ℤ × ℤ) => x.2) s.ports[p].tracer.blocks)) s.ports[p].tracer.blocks = false) ∧
    (∃ (p : Fin 24) (wide : Bool) (s : State), s.metering = true ∧ pilotOn s.ports[p] = true ∧ (s.ports[p].tracer.st ≠ 2 ∨
        s.ports[p].tracer.blocks.length < 4 * 2 ^ (BitVec.toNat s.ports[p].tracer.cfg / 256 % 16))) ∧
    (∃ (p : Fin 24) (s : State), s.coreOn = true ∧ s.ports[p].tracer.st = 1 ∧ 256000 ≤ s.ports[p].tracer.stTicks) ∧
    (∃ (p : Fin 24) (s : State), s.coreOn = true ∧ (s.ports[p].tracer.st ≠ 1 ∨ s.ports[p].tracer.stTicks < 256000)) ∧
    (∃ (p : Fin 24) (s : State), s.coreOn = true ∧ s.ports[p].tracer.st = 3 ∧ 64 * 32000 ≤ s.ports[p].tracer.stTicks) ∧
    (∃ (p : Fin 24) (s : State), s.coreOn = true ∧ (s.ports[p].tracer.st ≠ 3 ∨ s.ports[p].tracer.stTicks < 64 * 32000)) ∧
    (∃ (s : State), s.coreOn = true ∧ s.hw.loaded = true ∧ s.hw.frozen = false ∧ 28800 ≤ BitVec.toNat s.firn.ptTrace ∧ queuedTrims
        { pending := s.pending, fresh := s.fresh, power := s.power, sec := s.sec, mp := s.mp, hw := s.hw, mb := s.mb, ports := s.ports, volts := s.volts, cal := s.cal, circuits := s.circuits, cfs := s.cfs, energy := s.energy, pqSets := s.pqSets, pq := s.pq, firn := { arr := s.firn.arr, ram := s.firn.ram, slots := s.firn.slots, gseq := s.firn.gseq, reqs := s.firn.reqs, issued := s.firn.issued, charge := s.firn.charge, unclean := s.firn.unclean, torn := s.firn.torn, lostSeen := s.firn.lostSeen, lowKettle := s.firn.lowKettle, kettleSmall := s.firn.kettleSmall, worn := s.firn.worn, wear := s.firn.wear, tornPages := s.firn.tornPages, refreshes := s.firn.refreshes, defers := s.firn.defers, mpWaitMax := s.firn.mpWaitMax, dispStalls := s.firn.dispStalls, ptCkpt := s.firn.ptCkpt, ptMatch := s.firn.ptMatch, ptTrace := 0, ptScrub := s.firn.ptScrub, ptSub := s.firn.ptSub, scrubPage := s.firn.scrubPage, runLog := s.firn.runLog, save := s.firn.save, dirty := s.firn.dirty, pump := s.firn.pump, runLogOwed := s.firn.runLogOwed, startNext := s.firn.startNext }, clk := s.clk, time := s.time, ring := s.ring, plc := s.plc, aux := s.aux, s0 := s.s0, disp := s.disp, cdc := s.cdc }
        = []) ∧
    (∃ (s : State), s.coreOn = true ∧ s.hw.loaded = true ∧ s.hw.frozen = false ∧ 28800 ≤ BitVec.toNat s.firn.ptTrace ∧ queuedTrims
        { pending := s.pending, fresh := s.fresh, power := s.power, sec := s.sec, mp := s.mp, hw := s.hw, mb := s.mb, ports := s.ports, volts := s.volts, cal := s.cal, circuits := s.circuits, cfs := s.cfs, energy := s.energy, pqSets := s.pqSets, pq := s.pq, firn := { arr := s.firn.arr, ram := s.firn.ram, slots := s.firn.slots, gseq := s.firn.gseq, reqs := s.firn.reqs, issued := s.firn.issued, charge := s.firn.charge, unclean := s.firn.unclean, torn := s.firn.torn, lostSeen := s.firn.lostSeen, lowKettle := s.firn.lowKettle, kettleSmall := s.firn.kettleSmall, worn := s.firn.worn, wear := s.firn.wear, tornPages := s.firn.tornPages, refreshes := s.firn.refreshes, defers := s.firn.defers, mpWaitMax := s.firn.mpWaitMax, dispStalls := s.firn.dispStalls, ptCkpt := s.firn.ptCkpt, ptMatch := s.firn.ptMatch, ptTrace := 0, ptScrub := s.firn.ptScrub, ptSub := s.firn.ptSub, scrubPage := s.firn.scrubPage, runLog := s.firn.runLog, save := s.firn.save, dirty := s.firn.dirty, pump := s.firn.pump, runLogOwed := s.firn.runLogOwed, startNext := s.firn.startNext }, clk := s.clk, time := s.time, ring := s.ring, plc := s.plc, aux := s.aux, s0 := s.s0, disp := s.disp, cdc := s.cdc }
        ≠ []) :=
  ⟨
    ⟨0, false, true, false, on.modTracer 0 (fun t => { t with cfg := t.cfg ||| 1, st := 2 }), by decide +kernel⟩,
    ⟨0, false, false, false, on.modTracer 0 (fun t =>
        { t with cfg := t.cfg ||| 1, st := 2, demN := 8000, demAmp := 1, demI := 0, demQ := -(2 ^ 30) }), 0, -20000000000, by decide +kernel⟩,
    ⟨0, false, false, false, on.modTracer 0 (fun t =>
        { t with cfg := t.cfg ||| 1, st := 2, demN := 8000, demAmp := 2, demI := 2 ^ 30, demQ := 0 }), 10000000000, 0, by decide +kernel⟩,
    ⟨0, false, false, false, on.modTracer 0 (fun t => { t with cfg := t.cfg ||| 1, st := 2, demN := 8000 }), by decide +kernel⟩,
    ⟨0, false, false, false, on.modTracer 0 (fun t => { t with cfg := t.cfg ||| 1, st := 2, demN := 7999 }), by decide +kernel⟩,
    ⟨0, false, on.modTracer 0 (fun t => { t with cfg := 0x401, st := 2, blocks := List.replicate 63 (200, 5) ++ [(300, 5)] }), by decide +kernel⟩,
    ⟨0, true, on.modTracer 0 (fun t => { t with cfg := 0x401, st := 2, blocks := List.replicate 63 (200, 5) ++ [(300, 5)] }), by decide +kernel⟩,
    ⟨0, true, on.modTracer 0 (fun t => { t with cfg := 0x401, st := 2, blocks := List.replicate 63 (200, 5) ++ [(200, 5)] }), by decide +kernel⟩,
    ⟨0, true, on.modTracer 0 (fun t => { t with cfg := t.cfg ||| 1, st := 2, blocks := [(200, 5)] }), by decide +kernel⟩,
    ⟨0, on.modTracer 0 (fun t => { t with cfg := t.cfg ||| 1, st := 1, stTicks := 256000 }), by decide +kernel⟩,
    ⟨0, on.modTracer 0 (fun t => { t with cfg := t.cfg ||| 1, st := 1, stTicks := 255999 }), by decide +kernel⟩,
    ⟨0, on.modTracer 0 (fun t => { t with cfg := t.cfg ||| 1, st := 3, stTicks := 2048000 }), by decide +kernel⟩,
    ⟨0, on.modTracer 0 (fun t => { t with cfg := t.cfg ||| 1, st := 3, stTicks := 2047999 }), by decide +kernel⟩,
    ⟨on.modFirn (fun f => { f with ptTrace := 28800 }), by decide +kernel⟩,
    ⟨(on.modFirn (fun f => { f with ptTrace := 28800 })).modTracer 0 (fun t =>
        { t with cfg := t.cfg ||| 17, st := 2, refValid := true, everAccepted := true, rLoop := 200, ref := 100, rsNom := 0, accepted := List.replicate 64 200 }),
        by decide +kernel⟩⟩

/-- States and operands for the clauses of PowerFailEventsTakeEffect. -/
theorem wit_PowerFailEventsTakeEffect :
    (∃ (i : Instr) (cause dt : ℕ) (kettle : BitVec 16) (s : State), (i = Instr.earlyWarning dt kettle ∧ cause = 1 ∨ i = Instr.brownOut dt kettle ∧
        cause = 2 ∨ i = Instr.resetNLow dt kettle ∧ cause = 3) ∧ s.coreOn = true ∧ s.hw.frozen = false) ∧
    (∃ (dt : ℕ) (kettle : BitVec 16) (s : State), s.coreOn = true ∧ s.hw.frozen = true) ∧
    (∃ (dt : ℕ) (kettle : BitVec 16) (s : State), s.coreOn = true ∧ s.hw.frozen = true ∧ s.firn.save.saving = false) ∧
    (∃ (v : Bool) (again : Bool) (s : State), s.firnOn = true ∧ saveEnded (endRunLog v again s) = true) ∧
    (∃ (us : List ℕ) (s : State), s.firnOn = true ∧ s.power.supply = Supply.kettle) ∧
    (∃ (s : State), s.coreOn = true ∧ s.hw.frozen = true ∧ s.firn.save.saving = false) ∧
    (∃ (s : State), s.coreOn = true ∧ s.hw.frozen = true ∧ s.firn.save.saving = true) :=
  ⟨
    ⟨.earlyWarning 5 0x1234, 1, 5, 0x1234, on, by decide +kernel⟩,
    ⟨5, 0x1234, on.modHw (fun h => { h with frozen := true }), by decide +kernel⟩,
    ⟨5, 0x1234, on.modHw (fun h => { h with frozen := true }), by decide +kernel⟩,
    ⟨true, true, ((withReqs [{ reqOf 0 .save .running [mem 112 false 0 .done] none with rank := 1 }] on).modHw (fun h =>
        { h with frozen := true })).modFirn (fun f => { f with save := { f.save with saving := true } }), by decide +kernel⟩,
    ⟨[], on.modPower (fun p => { p with supply := .kettle }), by decide +kernel⟩,
    ⟨on.modHw (fun h => { h with frozen := true }), by decide +kernel⟩,
    ⟨(on.modHw (fun h => { h with frozen := true })).modFirn (fun f => { f with save := { f.save with saving := true } }), by decide +kernel⟩⟩

/-- States and operands for the clauses of StartUpAndBackupSupply. -/
theorem wit_StartUpAndBackupSupply :
    (∃ (leanN head low : Bool) (s : State), s.firnOn = false) ∧
    (∃ (a b d : Bool) (s : State), s.firnOn = true) ∧
    (∃ (s : State), s.coreOn = true ∧ s.hw.loaded = false ∧ s.hw.frozen = false) ∧
    (∃ (level : Bool) (s : State), s.coreOn = true ∧ s.hw.swapping = false ∧ (level = true ∨ s.disp.mode ≠ 1 ∧ s.plc.txUntil ≤ s.nowNs ∧ ∀ (x :
        Exchange), s.plc.xchg = some x → x.detected = none)) ∧
    (∃ (s : State), s.coreOn = true ∧ (s.hw.swapping = true ∨ s.nowNs < s.plc.txUntil ∨ s.disp.mode = 1 ∧ s.disp.upd.isSome = true)) ∧
    (∃ (s : State), s.power.state = PowerState.hold) ∧
    (∃ (s : State), s.power.state = PowerState.hold ∧ s.power.vsupHeld = false) ∧
    (∃ (s : State), s.power.state = PowerState.off) ∧
    (∃ (s : State), s.power.state ≠ PowerState.off) ∧
    (∃ (mv : ℕ) (s : State), s.coreOn = true) :=
  ⟨
    ⟨true, true, true, State.reset, by decide +kernel⟩,
    ⟨true, true, true, on, by decide +kernel⟩,
    ⟨on.modHw (fun h => { h with loaded := false }), by decide +kernel⟩,
    ⟨true, on, by decide +kernel, by decide +kernel, Or.inl rfl⟩,
    ⟨on.modHw (fun h => { h with swapping := true }), by decide +kernel⟩,
    ⟨on.modPower (fun p => { p with state := .hold, aoReset := false, supply := .vbak, vsupValid := false, vsupHeld := false }), by decide +kernel⟩,
    ⟨on.modPower (fun p => { p with state := .hold, aoReset := false, supply := .vbak, vsupValid := false, vsupHeld := false }), by decide +kernel⟩,
    ⟨State.reset, by decide +kernel⟩,
    ⟨on.modPower (fun p => { p with state := .hold, aoReset := false, supply := .vbak, vsupValid := false, vsupHeld := false }), by decide +kernel⟩,
    ⟨2000, on, by decide +kernel⟩⟩

/-- States and operands for the clauses of CrystalTicksCount. -/
theorem wit_CrystalTicksCount :
    (∃ (s : State), s.power.state ≠ PowerState.off ∧ s.clk.crystalRuns = true ∧ (∀ (n : Fin 4), s.clk.alarms[n].due = false) ∧ s.clk.boundaryDue =
        false ∧ s.clk.legal.write = none ∧ s.clk.service.write = none ∧ s.clk.slewTotal = 0 ∧ s.clk.slewHeld = 0 ∧ s.clk.tcDue = false) ∧
    (∃ (s : State) (n : BitVec 33) (w : BitVec 3), s.power.state ≠ PowerState.off ∧ s.clk.crystalRuns = true ∧ (∀ (k : Fin 4), s.clk.alarms[k].due =
        false) ∧ s.clk.boundaryDue = false ∧ s.clk.service.write = some (n, some w, 0)) ∧
    (∃ (s : State), s.power.state ≠ PowerState.off ∧ s.clk.crystalRuns = false) ∧
    (∃ (s : State), s.power.state ≠ PowerState.off) :=
  ⟨
    ⟨on.modClk (fun k => { k with crystalRuns := true }), by decide +kernel⟩,
    ⟨on.modClk (fun k => { k with crystalRuns := true, service := { k.service with write := some (7, some 6, 0) } }), 7, 6, by decide +kernel⟩,
    ⟨on, by decide +kernel⟩,
    ⟨on.modClk (fun k => { k with crystalRuns := true }), by decide +kernel⟩⟩

/-- States and operands for the clauses of ClockEventsTakeEffect. -/
theorem wit_ClockEventsTakeEffect :
    (∃ (n : Fin 4) (s : State), s.power.state ≠ PowerState.off ∧ s.stalled 7 = false ∧ s.clk.alarms[n].due = true) ∧
    (∃ (s : State), s.power.state ≠ PowerState.off ∧ s.clk.legal.wdayDue = true) ∧
    (∃ (s : State), s.power.state ≠ PowerState.off ∧ s.clk.service.wdayDue = true) ∧
    (∃ (s : State), s.coreOn = true ∧ s.hw.loaded = true ∧ s.stalled 7 = false ∧ s.clk.boundaryDue = true ∧ s.clk.billIsOpen = true ∧ s.clk.boundary =
        none) ∧
    (∃ (s : State) (b : Boundary), s.mpRuns = true ∧ s.clk.boundary = some b ∧ s.stalled 7 = false) ∧
    (∃ (s : State), s.coreOn = true ∧ s.time.inUse = true ∧ s.stalled 7 = false ∧ s.gridNs % 1000000000 = 0 ∧ s.clk.skipSample = true) ∧
    (∃ (s : State), s.coreOn = true ∧ s.time.inUse = true ∧ s.stalled 7 = false ∧ s.gridNs % 1000000000 = 0 ∧ s.clk.skipSample = false) ∧
    (∃ (theta : ℤ) (s : State), s.power.state ≠ PowerState.off ∧ s.clk.tcDue = true) ∧
    (∃ (theta : ℤ) (s : State), s.clk.tcDue = false) ∧
    (∃ (s : State) (tick : ℕ), s.mpRuns = true ∧ BitVec.getLsbD s.clk.cfg 1 = true ∧ s.clk.tcTable ≠ [] ∧ s.aux.inputs[Fin.ofNat 16 (BitVec.toNat
        s.clk.cfg / 4 % 8)].tick = some tick) ∧
    (∃ (s : State), s.power.state ≠ PowerState.off ∧ BitVec.getLsbD s.clk.cfg 1 = true ∧ 524288 ≤ s.clk.tcAge) :=
  ⟨
    ⟨0, on.modClk (fun k => { k with alarms := k.alarms.set 0 { k.alarms[0] with due := true } }), by decide +kernel⟩,
    ⟨on.modClk (fun k => { k with legal := { k.legal with wday := 6, wdayDue := true }, service := { k.service with wday := 6, wdayDue := true } }),
        by decide +kernel⟩,
    ⟨on.modClk (fun k => { k with legal := { k.legal with wday := 6, wdayDue := true }, service := { k.service with wday := 6, wdayDue := true } }),
        by decide +kernel⟩,
    ⟨on.modClk (fun k => { k with boundaryDue := true, billIsOpen := true }), by decide +kernel⟩,
    ⟨on.modClk (fun k => { k with boundary := some { stop := 5, next := 5, time := .zero, flags := 0, spans := 1 } }),
        { stop := 5, next := 5, time := { ns := 0, sec := 0, epoch := 0, ring := false, valid := false, lock := false }, flags := 0, spans := 1 },
        by decide +kernel⟩,
    ⟨(on.modTime (fun t => { t with inUse := true })).modClk (fun k => { k with skipSample := true }), by decide +kernel⟩,
    ⟨on.modTime (fun t => { t with inUse := true }), by decide +kernel⟩,
    ⟨25, on.modClk (fun k => { k with tcDue := true }), by decide +kernel⟩,
    ⟨25, on, by decide +kernel⟩,
    ⟨(on.modClk (fun k => { k with cfg := 0x102, tcTable := (List.range 16).flatMap (fun k => leBytes 2 (k + 1) ++ leBytes 2 0) })).modAuxIn 0 (fun i
        => { i with tick := some 3, result := 0x20 }), 3, by decide +kernel⟩,
    ⟨on.modClk (fun k => { k with cfg := 2, tcAge := 524288 }), by decide +kernel⟩⟩

/-- States and operands for the clauses of SyncEventsTakeEffect. -/
theorem wit_SyncEventsTakeEffect :
    (∃ (s : State), s.coreOn = true ∧ s.ring.isHead = true ∧ s.time.startStored = true ∧ s.time.step = none) ∧
    (∃ (s : State), s.coreOn = true ∧ s.ring.isHead = true ∧ s.time.startWorn = true ∧ s.hw.frozen = false) ∧
    (∃ (r : RingSel) (f : RxFrame) (dt : ℕ) (s : State), Hears tySync f s ∧ s.ring.isHead = false ∧ rxStalled s (entryPort r) = false ∧ s.time.seen =
        false) ∧
    (∃ (r : RingSel) (f : RxFrame) (dt : ℕ) (s : State), Hears tySync f s ∧ s.ring.isHead = false ∧ rxStalled s (entryPort r) = false ∧ s.time.seen
        = true ∧ s.time.lastAt = none ∧ (syncIn (takeAsym s) r f dt).origin.epoch = s.time.epoch ∧ (syncIn (takeAsym s) r f dt).off.natAbs ≤ 1000 *
        65536) ∧
    (∃ (r : RingSel) (f : RxFrame) (dt : ℕ) (s : State), Hears tySync f s ∧ s.ring.isHead = false ∧ rxStalled s (entryPort r) = false ∧ s.time.seen
        = true ∧ s.time.lastAt = none ∧ (syncIn (takeAsym s) r f dt).origin.epoch = s.time.epoch ∧ 1000 * 65536 < (syncIn (takeAsym s) r f
        dt).off.natAbs ∧ s.time.farRun < 2) ∧
    (∃ (r : RingSel) (f : RxFrame) (dt : ℕ) (s : State), Hears tySync f s ∧ s.ring.isHead = false ∧ rxStalled s (entryPort r) = false ∧ s.time.seen
        = true ∧ s.time.lastAt = none ∧ (syncIn (takeAsym s) r f dt).origin.epoch = s.time.epoch ∧ 1000 * 65536 < (syncIn (takeAsym s) r f
        dt).off.natAbs ∧ 2 ≤ s.time.farRun) ∧
    (∃ (r : RingSel) (f : RxFrame) (dt : ℕ) (s : State), Hears tySync f s ∧ s.ring.isHead = false ∧ rxStalled s (entryPort r) = false ∧ s.time.seen
        = true ∧ s.time.lastAt = none ∧ (syncIn (takeAsym s) r f dt).origin.epoch ≠ s.time.epoch) ∧
    (∃ (r : RingSel) (f : RxFrame) (dt : ℕ) (s : State) (a : ℕ), Hears tySync f s ∧ s.ring.isHead = false ∧ rxStalled s (entryPort r) = false ∧
        s.time.seen = true ∧ s.time.lastAt = some a ∧ (syncIn (takeAsym s) r f dt).origin.epoch + 1 = s.time.epoch ∧ (syncIn (takeAsym s) r f
        dt).origin.total < a) ∧
    (∃ (r : RingSel) (f : RxFrame) (dt : ℕ) (s : State), s.coreOn = true ∧ s.ring.isHead = false ∧ rxStalled s (entryPort r) = false ∧ frameGood f =
        false) ∧
    (∃ (s : State), s.coreOn = true ∧ s.ring.isHead = false ∧ s.time.seen = true ∧ s.time.mode ≠ AlignMode.holdover) ∧
    (∃ (f : RxFrame) (s : State), Hears tyStep f s ∧ s.ring.isHead = false ∧ s.time.seen = true ∧ (stampOf (List.take 12 f.payload)).epoch =
        s.time.epoch ∧ s.nowNs ≤ (stampOf (List.take 12 f.payload)).total) :=
  ⟨
    ⟨headE, by decide +kernel⟩,
    ⟨head0.modTime (fun t => { t with startWorn := true }), by decide +kernel⟩,
    ⟨RingSel.primary, frame tySync broadcast 1 (stampB 0 0 0 ++ leBytes 4 0 ++ leBytes 4 1), 0, on, by decide +kernel⟩,
    ⟨RingSel.primary, frame tySync broadcast 1 (stampB 0 0 0 ++ leBytes 4 0 ++ leBytes 4 1), 0, unit5, by decide +kernel⟩,
    ⟨RingSel.primary, frame tySync broadcast 1 (stampB 2000 0 0 ++ leBytes 4 0 ++ leBytes 4 1), 0, unit5, by decide +kernel⟩,
    ⟨RingSel.primary, frame tySync broadcast 1 (stampB 2000 0 0 ++ leBytes 4 0 ++ leBytes 4 1), 0, unit5.modTime (fun t => { t with farRun := 2 }),
        by decide +kernel⟩,
    ⟨RingSel.primary, frame tySync broadcast 1 (stampB 0 0 1 ++ leBytes 4 0 ++ leBytes 4 1), 0, unit5, by decide +kernel⟩,
    ⟨RingSel.primary, frame tySync broadcast 1 (stampB 0 0 0 ++ leBytes 4 0 ++ leBytes 4 1), 0, unit5.modTime (fun t =>
        { t with epoch := 1, lastAt := some 7 }), 7, by decide +kernel⟩,
    ⟨RingSel.primary, { frame tySync broadcast 1 (stampB 0 0 0 ++ leBytes 4 0 ++ leBytes 4 1) with crc := 5 }, 0, on, by decide +kernel⟩,
    ⟨unit5, by decide +kernel⟩,
    ⟨frame tyStep broadcast 1 (stampB 7000000 0 0 ++ leBytes 8 1000000 ++ leBytes 1 1 ++ leBytes 3 0), unit5, by decide +kernel⟩⟩

/-- States and operands for the clauses of StepsEdgesAndOutputs. -/
theorem wit_StepsEdgesAndOutputs :
    (∃ (p : StepPend) (s : State), s.coreOn = true ∧ s.time.step = some p ∧ s.reached p.at_ = true) ∧
    (∃ (x : PpsEdge) (s : State), BitVec.getLsbD s.time.cfg 2 ≠ x.falling) ∧
    (∃ (x : PpsEdge) (s : State), s.coreOn = true ∧ s.ring.isHead = true ∧ BitVec.toNat s.time.cfg % 4 = 1 ∧ BitVec.getLsbD s.time.cfg 2 =
        x.falling) ∧
    (∃ (s : State), s.coreOn = true ∧ s.ring.isHead = true ∧ BitVec.toNat s.time.cfg % 4 = 1) ∧
    (∃ (n : Fin 4) (ns : ℕ) (s : State), s.coreOn = true ∧ s.time.outs[n].nextEdge = some ns ∧ s.reached ns = true ∧ s.time.outs[n].pulse = none ∧
        ∀ (stop : ℕ), s.time.outs[n].lastEnd = some stop → stop + 20 * 65536 ≤ (ns * 65536 + 163839) / 163840 * 163840) ∧
    (∃ (n : Fin 4) (ns : ℕ) (s : State) (stop : ℕ), s.coreOn = true ∧ s.time.outs[n].nextEdge = some ns ∧ s.reached ns = true ∧
        (s.time.outs[n].pulse = some stop ∨ s.time.outs[n].pulse = none ∧ s.time.outs[n].lastEnd = some stop) ∧ (ns * 65536 + 163839) / 163840 *
        163840 < stop + 20 * 65536) ∧
    (∃ (n : Fin 4) (stop : ℕ) (s : State), s.coreOn = true ∧ s.time.outs[n].pulse = some stop ∧ stop ≤ s.time.rt + tickUnits ∧ s.time.outs[n].pend =
        none) ∧
    (∃ (n : Fin 4) (stop : ℕ) (s : State) (a : BitVec 80) (p : Word) (w : Word), s.coreOn = true ∧ s.time.outs[n].pulse = some stop ∧ stop ≤
        s.time.rt + tickUnits ∧ s.time.outs[n].pend = some (a, p, w)) :=
  ⟨
    ⟨{ at_ := 0, delta := 31250, epoch := 1, sends := 0 }, unit5.modTime (fun t =>
        { t with step := some { at_ := 0, delta := 31250, epoch := 1, sends := 0 } }), by decide +kernel⟩,
    ⟨⟨0, true⟩, on, by decide +kernel⟩,
    ⟨⟨0, true⟩, headE.modTime (fun t => { t with cfg := 5 }), by decide +kernel⟩,
    ⟨headE.modTime (fun t => { t with cfg := 1 }), by decide +kernel⟩,
    ⟨0, 0, on.modTout 0 (fun o => { o with nextEdge := some 0 }), by decide +kernel, by decide +kernel, by decide +kernel, by decide +kernel, fun _
        h => nomatch (show (none : Option Nat) = some _ from h)⟩,
    ⟨0, 0, on.modTout 0 (fun o => { o with nextEdge := some 0, lastEnd := some 1 }), 1, by decide +kernel⟩,
    ⟨0, 0, on.modTout 0 (fun o => { o with nextEdge := some 0, pulse := some 0 }), by decide +kernel⟩,
    ⟨0, 0, on.modTout 0 (fun o => { o with pulse := some 0, pend := some (1, 0, 5) }), 1, 0, 5, by decide +kernel⟩⟩

/-- States and operands for the clauses of RingLinksTakeEffect. -/
theorem wit_RingLinksTakeEffect :
    (∃ (p : RingPort) (s : State), s.coreOn = true ∧ s.time.syncOk = true ∧ (portOf p s.ring).up = true) ∧
    (∃ (p : RingPort) (f : RxFrame) (dt : ℕ) (s : State), s.coreOn = true ∧ rxStalled s p = false ∧ frameGood f = true ∧ f.typ = tyAlign ∧ alignKind
        f.payload = 1) ∧
    (∃ (p : RingPort) (f : RxFrame) (dt : ℕ) (s : State) (t1 ms : ℕ), s.coreOn = true ∧ rxStalled s p = false ∧ frameGood f = true ∧ f.typ = tyAlign ∧
        alignKind f.payload = 2 ∧ s.ring.isHead = false ∧ (portOf p s.ring).sentT1 = some (t1, ms) ∧ leAt f.payload 10 2 = (portOf p
        s.ring).xseq.toNat ∧ (s.time.rt + dt) / 65536000000 ≤ ms + 5) ∧
    (∃ (p : RingPort) (f : RxFrame) (dt : ℕ) (s : State) (t1 ms : ℕ), s.coreOn = true ∧ rxStalled s p = false ∧ frameGood f = true ∧ f.typ = tyAlign ∧
        alignKind f.payload = 2 ∧ s.ring.isHead = false ∧ (portOf p s.ring).sentT1 = some (t1, ms) ∧ ms + 5 < (s.time.rt + dt) / 65536000000) ∧
    (∃ (p : RingPort) (s : State), s.coreOn = true ∧ (portOf p s.ring).up = false) ∧
    (∃ (p : RingPort) (s : State) (n : ℕ), s.coreOn = true ∧ (portOf p s.ring).up = true ∧ s.ring.isHead = false) ∧
    (∃ (r : RingSel) (f : RxFrame) (resid : ℕ) (s : State), s.coreOn = true ∧ s.ring.isHead = false ∧ (portOf (entryPort r) s.ring).up = true ∧
        frameGood f = true ∧ f.typ ≠ tyAlign ∧ f.typ ≠ tySync) ∧
    (∃ (r : RingSel) (f : RxFrame) (resid : ℕ) (s : State), s.coreOn = true ∧ s.ring.isHead = false ∧ (portOf (entryPort r) s.ring).up = true ∧
        frameGood f = true ∧ f.typ = tySync) ∧
    (∃ (r : RingSel) (f : RxFrame) (resid : ℕ) (s : State), s.coreOn = true ∧ s.ring.isHead = false ∧ (portOf (entryPort r) s.ring).up = true ∧
        f.typ = tyAlign) ∧
    (∃ (r : RingSel) (f : RxFrame) (resid : ℕ) (s : State), s.coreOn = true ∧ s.ring.isHead = false ∧ (portOf (entryPort r) s.ring).up = true ∧
        f.violation = true ∧ f.typ ≠ tyAlign ∧ frameForMe s f = false) ∧
    (∃ (r : RingSel) (f : RxFrame) (resid : ℕ) (s : State), s.coreOn = true ∧ s.ring.isHead = false ∧ (portOf (entryPort r) s.ring).up = true ∧
        s.ring.addr ≠ 0) ∧
    (∃ (g : RingSel) (dt : ℕ) (s : State), s.coreOn = true ∧ s.time.syncOk = true ∧ s.stalled 4 = false ∧ s.ring.isHead = false ∧ s.ring.addr ≠ 0 ∧
        s.ring.grantPend = none ∧ (g, (s.time.rt + dt) / 65536000000) ∈ s.ring.noTx) ∧
    (∃ (g : RingSel) (dt : ℕ) (s : State), s.coreOn = true ∧ s.time.syncOk = true ∧ s.stalled 4 = false ∧ s.ring.isHead = false ∧ s.ring.addr ≠ 0 ∧
        s.ring.grantPend = none ∧ mustReport s = false ∧ (g, (s.time.rt + dt) / 65536000000) ∉ s.ring.noTx ∧ List.filter (fun (f : TxFrame) =>
        decide (f.ring = g) && frameMayGo s ((s.time.rt + dt) / 65536000000) f) s.ring.txq = []) ∧
    (∃ (g : RingSel) (dt : ℕ) (s : State) (f : TxFrame), s.coreOn = true ∧ s.time.syncOk = true ∧ s.stalled 4 = false ∧ s.ring.isHead = false ∧
        s.ring.addr ≠ 0 ∧ s.ring.grantPend = none ∧ mustReport s = false ∧ (g, (s.time.rt + dt) / 65536000000) ∉ s.ring.noTx ∧ List.filter (fun (f
        : TxFrame) => decide (f.ring = g) && frameMayGo s ((s.time.rt + dt) / 65536000000) f) s.ring.txq = [f] ∧ f.typ ≠ tyAlign ∧ f.payload.length
        ≤ 256 ∧ f.tag = none) :=
  ⟨
    ⟨.a, bothUp unit5, by decide +kernel⟩,
    ⟨.a, alignF 1 3, 0, unit5, by decide +kernel⟩,
    ⟨.a, alignF 2 3, 0, (bothUp unit5).modRing (fun r => { r with portA := { r.portA with xseq := 3, sentT1 := some (0, 0) } }), 0, 0,
        by decide +kernel⟩,
    ⟨.a, alignF 2 3, 6000000 * 65536, (bothUp unit5).modRing (fun r => { r with portA := { r.portA with xseq := 3, sentT1 := some (0, 0) } }), 0, 0,
        by decide +kernel⟩,
    ⟨.a, unit5, by decide +kernel⟩,
    ⟨.a, bothUp unit5, 0, by decide +kernel⟩,
    ⟨.primary, frame tyIdle 1 6 [1, 0, 0, 0], 9, bothUp unit5, by decide +kernel⟩,
    ⟨.primary, frame tySync broadcast 1 (stampB 0 0 0 ++ leBytes 4 0 ++ leBytes 4 1), 9, bothUp unit5, by decide +kernel⟩,
    ⟨.primary, alignF 1 3, 9, bothUp unit5, by decide +kernel⟩,
    ⟨.primary, { frame tyIdle 1 6 [1, 0, 0, 0] with violation := true }, 9, bothUp unit5, by decide +kernel⟩,
    ⟨.primary, frame tyIdle 1 6 [1, 0, 0, 0], 9, bothUp unit5, by decide +kernel⟩,
    ⟨.primary, 0, (bothUp unit5).modRing (fun r => { r with noTx := [(.primary, 0)] }), by decide +kernel⟩,
    ⟨.primary, 0, bothUp unit5, by decide +kernel⟩,
    ⟨.primary, 0, (bothUp unit5).modRing (fun r => { r with txq := [idleTx .primary] }), idleTx .primary, by decide +kernel⟩⟩

/-- States and operands for the clauses of RingAddressesAreAssigned. -/
theorem wit_RingAddressesAreAssigned :
    (∃ (s : State), s.coreOn = true ∧ s.ring.isHead = true ∧ s.time.startStored = true) ∧
    (∃ (f : RxFrame) (s : State), Hears tyEnum f s ∧ leAt f.payload 0 1 = 1 ∧ s.ring.isHead = true) ∧
    (∃ (f : RxFrame) (s : State), Hears tyEnum f s ∧ leAt f.payload 0 1 = 1 ∧ s.ring.isHead = false) ∧
    (∃ (f : RxFrame) (i : Fin 61) (s : State), s.coreOn = true ∧ s.ring.isHead = true ∧ f.src = rosterAddr i ∧ frameGood f = true ∧ f.typ = tyEnum ∧
        frameForMe s f = true ∧ leAt f.payload 0 1 = 2 ∧ (s.ring.roster[i].st = Presence.free ∨ s.ring.roster[i].uid = BitVec.ofNat 64 (leAt f.payload
        4 8))) ∧
    (∃ (f : RxFrame) (i : Fin 61) (s : State), s.coreOn = true ∧ s.ring.isHead = true ∧ f.src = rosterAddr i ∧ Hears tyIdle f s) ∧
    (∃ (f : RxFrame) (i : Fin 61) (s : State), s.coreOn = true ∧ s.ring.isHead = true ∧ f.src = rosterAddr i ∧ s.time.ticks <
        s.ring.roster[i].heard + 320) ∧
    (∃ (f : RxFrame) (i : Fin 61) (s : State), s.coreOn = true ∧ s.ring.isHead = true ∧ f.src = rosterAddr i ∧ s.ring.roster[i].st =
        Presence.present ∧ s.ring.roster[i].heard + 320 ≤ s.time.ticks) ∧
    (∃ (sof : Bool) (s : State), s.coreOn = true ∧ s.time.syncOk = true ∧ s.ring.isHead = false ∧ s.ring.addr = 0 ∧ s.ring.grantPend = none ∧ 0 <
        s.ring.backoff) ∧
    (∃ (sof : Bool) (s : State), s.coreOn = true ∧ s.time.syncOk = true ∧ s.ring.isHead = false ∧ s.ring.addr = 0 ∧ s.ring.grantPend = none ∧
        s.ring.backoff = 0) ∧
    (∃ (f : RxFrame) (s : State) (i : Fin 61), s.coreOn = true ∧ s.ring.isHead = true ∧ frameGood f = true ∧ f.typ = tyVacancy ∧ frameForMe s f =
        true ∧ leAt f.payload 0 1 = 2 ∧ addrOfUid s.ring (claimOf f.payload).uid = some i) ∧
    (∃ (f : RxFrame) (s : State) (i : Fin 61), s.coreOn = true ∧ s.ring.isHead = true ∧ frameGood f = true ∧ f.typ = tyVacancy ∧ frameForMe s f =
        true ∧ leAt f.payload 0 1 = 2 ∧ claimAddr s.ring [claimOf f.payload] [] (claimOf f.payload) = some i) ∧
    (∃ (f : RxFrame) (s : State), s.coreOn = true ∧ s.ring.isHead = true ∧ frameGood f = true ∧ f.typ = tyVacancy ∧ frameForMe s f = true ∧ leAt
        f.payload 0 1 = 2 ∧ claimAddr s.ring [claimOf f.payload] [] (claimOf f.payload) = none) ∧
    (∃ (s : State), s.coreOn = true ∧ s.ring.isHead = false) ∧
    (∃ (f : RxFrame) (s : State), Hears tyVacancy f s ∧ s.ring.isHead = false ∧ s.hw.frozen = false) :=
  ⟨
    ⟨headE, by decide +kernel⟩,
    ⟨frame tyEnum broadcast 1 ([1, 2, 2, 5, 9] ++ List.replicate 59 0 ++ leBytes 8 3), headE, by decide +kernel⟩,
    ⟨frame tyEnum broadcast 1 ([1, 2, 2, 5, 9] ++ List.replicate 59 0 ++ leBytes 8 3), unit5, by decide +kernel⟩,
    ⟨frame tyEnum 1 5 ([2, 0, 0, 0] ++ leBytes 8 88 ++ leBytes 8 1 ++ leBytes 8 2 ++ leBytes 4 6), 3, headE, by decide +kernel⟩,
    ⟨frame tyIdle 1 5 ([1, 0, 0, 0] ++ leBytes 4 9), 3, headE.modRing (fun r =>
        { r with roster := r.roster.set 3 { r.roster[3] with st := .present, uid := 88 } }), by decide +kernel⟩,
    ⟨frame tyIdle 1 5 ([1, 0, 0, 0] ++ leBytes 4 9), 3, headE.modRing (fun r =>
        { r with roster := r.roster.set 3 { r.roster[3] with st := .present, uid := 88 } }), by decide +kernel⟩,
    ⟨frame tyIdle 1 5 ([1, 0, 0, 0] ++ leBytes 4 9), 3, (headE.modRing (fun r =>
        { r with roster := r.roster.set 3 { r.roster[3] with st := .present, uid := 88 } })).modTime (fun t => { t with ticks := 320 }),
        by decide +kernel⟩,
    ⟨true, unit5.modRing (fun r => { r with addr := 0, backoff := 1 }), by decide +kernel⟩,
    ⟨true, unit5.modRing (fun r => { r with addr := 0 }), by decide +kernel⟩,
    ⟨vac 2 1 0 88, headE.modRing (fun r => { r with roster := r.roster.set 3 { r.roster[3] with st := .present, uid := 88 } }), 3,
        by decide +kernel⟩,
    ⟨vac 2 1 0 99, headE.modRing (fun r => { r with roster := r.roster.set 3 { r.roster[3] with st := .present, uid := 88 } }), 0,
        by decide +kernel⟩,
    ⟨vac 2 1 0 99, headE.modRing (fun r => { r with roster := Vector.replicate 61 { RosterEntry.reset with st := .present, uid := 5 } }),
        by decide +kernel⟩,
    ⟨unit5, by decide +kernel⟩,
    ⟨vac 3 broadcast 1 0, unit5, by decide +kernel⟩⟩

/-- States and operands for the clauses of RingGapsAndBalance. -/
theorem wit_RingGapsAndBalance :
    (∃ (f : RxFrame) (s : State), Hears tyWrap f s ∧ s.ring.isHead = true ∧ leAt f.payload 0 1 = 2 ∧ s.ring.wrapPend = none ∧ s.time.step = none ∧
        f.src ∈ s.ring.chain ∧ 2 ≤ f.src.toNat ∧ f.src.toNat ≤ 62 ∧ (∀ (i : Fin 61), f.src = rosterAddr i → s.ring.roster[i].st = Presence.present)
        ∧ s.ring.breaks = [] ∧ s.ring.gap = none ∧ leAt f.payload 3 1 = 1) ∧
    (∃ (f : RxFrame) (s : State), Hears tyWrap f s ∧ s.ring.isHead = true ∧ leAt f.payload 0 1 = 2 ∧ s.ring.wrapPend = none ∧ s.time.step = none ∧
        f.src ∈ s.ring.chain ∧ 2 ≤ f.src.toNat ∧ f.src.toNat ≤ 62 ∧ (∀ (i : Fin 61), f.src = rosterAddr i → s.ring.roster[i].st = Presence.present)
        ∧ s.ring.breaks = [] ∧ s.ring.gap = none ∧ leAt f.payload 3 1 = 2) ∧
    (∃ (f : RxFrame) (s : State) (y : BitVec 6) (g : Wrap), Hears tyWrap f s ∧ s.ring.isHead = true ∧ leAt f.payload 0 1 = 2 ∧ s.ring.wrapPend =
        none ∧ s.time.step = none ∧ f.src ∈ s.ring.chain ∧ 2 ≤ f.src.toNat ∧ f.src.toNat ≤ 62 ∧ (∀ (i : Fin 61), f.src = rosterAddr i →
        s.ring.roster[i].st = Presence.present) ∧ s.ring.gap = some g ∧ y ≠ 1 ∧ y ≠ f.src ∧ s.ring.breaks =
        [{ up := f.src, down := y, upOk := false, downOk := true }] ∧ leAt f.payload 3 1 = 3) ∧
    (∃ (f : RxFrame) (s : State), Hears tyWrap f s ∧ s.ring.isHead = false ∧ leAt f.payload 0 1 = 1) ∧
    (∃ (w : Wrap) (s : State), s.ring.wrapPend = some w ∧ s.coreOn = true ∧ s.reached w.at_ = true) ∧
    (∃ (w : Wrap) (s : State), s.ring.wrapPend = some w ∧ s.coreOn = true ∧ s.reached w.at_ = false) ∧
    (∃ (i : BalInterval) (s : State), s.ring.balEnded = some i ∧ s.coreOn = true ∧ s.ring.isHead = true) ∧
    (∃ (i : BalInterval) (s : State), s.ring.balEnded = some i ∧ s.coreOn = true ∧ s.ring.isHead = false) ∧
    (∃ (i : BalInterval) (s : State), s.ring.balEnded = some i ∧ s.coreOn = true ∧ s.ring.isHead = true ∧ s.gridNs < i.fin + 20000000 ∧ ∃ (g : Fin
        16), balEn s.ring.groups[g].desc = true ∧ ∃ m ∈ balMembers s.ring.groups[g].desc, ∀ r ∈ s.ring.reports, r.unit.toNat ≠ m.1) ∧
    (∃ (i : BalInterval) (s : State), s.ring.balEnded = some i ∧ s.coreOn = true ∧ s.ring.isHead = true ∧ balanceDue s i = true) ∧
    (∃ (f : RxFrame) (s : State), Hears tyBalance f s ∧ s.ring.isHead = true ∧ reportFits s (stampOf (List.take 12 f.payload)) = true) ∧
    (∃ (start : Stamp) (gap : Bool) (reports : List BalReport) (k : ℕ) (g : BalGroup), balEn g.desc = true ∧ (((List.map (balEntry reports)
        (balMembers g.desc)).any fun e => e.isNone) = true ∨ gap = true)) :=
  ⟨
    ⟨frame tyWrap 1 5 ([2, 0, 0, 1] ++ List.replicate 12 0), headE.modRing (fun r =>
        { r with roster := r.roster.set 3 { r.roster[3] with st := .present, uid := 88 }, order := [5], chain := [5] }), by decide +kernel⟩,
    ⟨frame tyWrap 1 5 ([2, 0, 0, 2] ++ List.replicate 12 0), headE.modRing (fun r =>
        { r with roster := r.roster.set 3 { r.roster[3] with st := .present, uid := 88 }, order := [5], chain := [5] }), by decide +kernel⟩,
    ⟨frame tyWrap 1 5 ([2, 0, 0, 3] ++ List.replicate 12 0), headE.modRing (fun r =>
        { r with roster := r.roster.set 3 { r.roster[3] with st := .present, uid := 88 }, order := [5], chain := [5], gap := some { up := 5, down := 6, at_ := 0 }, breaks := [{ up := 5, down := 6, upOk := false, downOk := true }] }),
        6, { up := 5, down := 6, at_ := 0 }, by decide +kernel⟩,
    ⟨frame tyWrap broadcast 1 ([1, 5, 9, 0] ++ stampB 8000000 0 0 ++ [0, 0, 0, 0]), unit5, by decide +kernel⟩,
    ⟨{ up := 5, down := 9, at_ := 0 }, unit5.modRing (fun r => { r with wrapPend := some { up := 5, down := 9, at_ := 0 } }), by decide +kernel⟩,
    ⟨{ up := 5, down := 9, at_ := 5000000 }, unit5.modRing (fun r => { r with wrapPend := some { up := 5, down := 9, at_ := 5000000 } }),
        by decide +kernel⟩,
    ⟨{ start := { ns := 0, sec := 0, epoch := 0, ring := false, valid := false, lock := false }, sums := (Vector.replicate 24 ({ net := 0, flags := 0 })), stepped := false, gap := false },
        headE.modRing (fun r => { r with balEnded := some { start := .zero, sums := Vector.replicate 24 .zero, stepped := false, gap := false } }),
        by decide +kernel⟩,
    ⟨{ start := .zero, sums := Vector.replicate 24 .zero, stepped := false, gap := false, fin := 0 }, unit5.modRing (fun r =>
        { r with balEnded := some { start := .zero, sums := Vector.replicate 24 .zero, stepped := false, gap := false, fin := 0 } }),
        by decide +kernel⟩,
    ⟨{ start := .zero, sums := Vector.replicate 24 .zero, stepped := false, gap := false, fin := 5 }, headE.modRing (fun r =>
        { r with balEnded := some { start := .zero, sums := Vector.replicate 24 .zero, stepped := false, gap := false, fin := 5 }, groups := r.groups.set 0 { r.groups[0] with desc := [1, 1, 1, 0, 1, 1, 2, 1, 0, 0, 2, 2] ++ List.replicate 52 0 } }),
        by decide +kernel⟩,
    ⟨{ start := .zero, sums := Vector.replicate 24 .zero, stepped := false, gap := false, fin := 5 }, headE.modRing (fun r =>
        { r with balEnded := some { start := .zero, sums := Vector.replicate 24 .zero, stepped := false, gap := false, fin := 5 } }),
        by decide +kernel⟩,
    ⟨frame tyBalance 1 5 (stampB 0 0 0 ++ [1, 0, 0, 0] ++ List.replicate 12 0), headE.modRing (fun r =>
        { r with balEnded := some { start := .zero, sums := Vector.replicate 24 .zero, stepped := false, gap := false } }), by decide +kernel⟩,
    ⟨.zero, true, [], 0, { BalGroup.reset with desc := [1, 1, 1, 0, 1, 1, 2, 1, 0, 0, 2, 2] ++ List.replicate 52 0 }, by decide +kernel⟩⟩

/-- States and operands for the clauses of RingMailboxTakesEffect. -/
theorem wit_RingMailboxTakesEffect :
    (∃ (f : RxFrame) (s : State) (u : Fin 64) (us : List (Fin 64)), HearsMbox 1 f s ∧ s.ring.isHead = false ∧ freeTags s.mb = u :: us ∧ ringQueued
        s.mb < 8 ∧ s.hw.mpReady = true ∧ s.hw.swapping = false ∧ dBulk (padTo 64 (List.drop 8 f.payload)) = false) ∧
    (∃ (f : RxFrame) (s : State) (u : Fin 64) (us : List (Fin 64)), HearsMbox 1 f s ∧ s.ring.isHead = false ∧ freeTags s.mb = u :: us ∧ ringQueued
        s.mb < 8 ∧ s.hw.mpReady = true ∧ s.hw.swapping = false ∧ dBulk (padTo 64 (List.drop 8 f.payload)) = true ∧ s.mb.bulk = BulkState.free) ∧
    (∃ (f : RxFrame) (s : State) (u : Fin 64) (us : List (Fin 64)), HearsMbox 1 f s ∧ s.ring.isHead = false ∧ freeTags s.mb = u :: us ∧ ringQueued
        s.mb < 8 ∧ s.hw.mpReady = true ∧ s.hw.swapping = false ∧ dBulk (padTo 64 (List.drop 8 f.payload)) = true ∧ s.mb.bulk ≠ BulkState.free) ∧
    (∃ (f : RxFrame) (s : State) (u : Fin 64) (c : Cmd), HearsMbox 2 f s ∧ s.ring.push = [] ∧ s.ring.isHead = false ∧ answersTag s (padTo 64
        (List.drop 8 f.payload)) = some (u, c) ∧ s.mb.bulk ≠ BulkState.claimed u ∧ f.payload.length ≤ 72) ∧
    (∃ (f : RxFrame) (s : State) (u : Fin 64) (c : Cmd), HearsMbox 3 f s ∧ s.ring.isHead = false ∧ s.mb.bulk = BulkState.claimed u ∧ s.mb.tags[u] =
        some c ∧ c.remote = true ∧ dBulkOut c.desc = true ∧ mboxOrigin f = s.ring.addr ∧ leAt f.payload 4 4 + (List.drop 8 f.payload).length ≤ 4096) ∧
    (∃ (f : RxFrame) (s : State), HearsMbox 4 f s ∧ s.ring.isHead = true ∧ s.hw.frozen = false ∧ leAt f.payload 3 1 = 0) ∧
    (∃ (f : RxFrame) (s : State) (i : Fin 61) (h : MirrorHalf), HearsMbox 4 f s ∧ s.ring.isHead = true ∧ s.hw.frozen = false ∧ leAt f.payload 3 1 = 1
        ∧ rosterIdx (mboxOrigin f) = some i ∧ mirrorHeld (mirrorEntry s i) = false ∧ List.find? (fun h => decide (h.src = mboxOrigin f) && !h.part)
        s.ring.halves = some h) ∧
    (∃ (s : State), s.mpRuns = true ∧ s.time.syncOk = true ∧ s.ring.mirrorDue = true ∧ s.ring.isHead = false ∧ 2 ≤ s.ring.addr.toNat ∧
        s.ring.addr.toNat ≤ 62) ∧
    (∃ (f : RxFrame) (s : State), s.coreOn = true ∧ s.ring.isHead = true ∧ frameGood f = true ∧ f.typ = tyMbox ∧ f.dst ≠ broadcast ∧ frameForMe s f =
        true ∧ frameSeen s f = false ∧ mboxFinal f ≠ 1) ∧
    (∃ (f : RxFrame) (g : ℕ) (s : State), s.coreOn = true ∧ s.ring.isHead = true ∧ frameGood f = true ∧ f.typ ≠ tyAlign ∧ f.dst = broadcast ∧ f.src
        ≠ 1 ∧ gapPos s = some g) :=
  ⟨
    ⟨mb 1 1 5 0 0 (desc 0x0100 0 [] 0) 5 1, unit5, 0, [1, 2, 3, 4, 5, 6, 7, 8, 9, 10, 11, 12, 13, 14, 15, 16, 17, 18, 19, 20, 21, 22, 23, 24, 25, 26,
        27, 28, 29, 30, 31, 32, 33, 34, 35, 36, 37, 38, 39, 40, 41, 42, 43, 44, 45, 46, 47, 48, 49, 50, 51, 52, 53, 54, 55, 56, 57, 58, 59, 60, 61,
        62, 63], by decide +kernel⟩,
    ⟨mb 1 1 5 0 0 (desc 0x0301 7 [] 8) 5 1, unit5, 0, [1, 2, 3, 4, 5, 6, 7, 8, 9, 10, 11, 12, 13, 14, 15, 16, 17, 18, 19, 20, 21, 22, 23, 24, 25, 26,
        27, 28, 29, 30, 31, 32, 33, 34, 35, 36, 37, 38, 39, 40, 41, 42, 43, 44, 45, 46, 47, 48, 49, 50, 51, 52, 53, 54, 55, 56, 57, 58, 59, 60, 61,
        62, 63], by decide +kernel⟩,
    ⟨mb 1 1 5 0 0 (desc 0x0301 7 [] 8) 5 1, unit5.modMb (fun m => { m with bulk := .filling }), 0, [1, 2, 3, 4, 5, 6, 7, 8, 9, 10, 11, 12, 13, 14, 15,
        16, 17, 18, 19, 20, 21, 22, 23, 24, 25, 26, 27, 28, 29, 30, 31, 32, 33, 34, 35, 36, 37, 38, 39, 40, 41, 42, 43, 44, 45, 46, 47, 48, 49, 50,
        51, 52, 53, 54, 55, 56, 57, 58, 59, 60, 61, 62, 63], by decide +kernel⟩,
    ⟨mb 2 7 5 0 0 (leBytes 2 0x0100 ++ [0, 7, 0, 0] ++ leBytes 2 0x1234 ++ List.replicate 56 0) 5 1, unit5.modMb (fun m =>
        { m with tags := m.tags.set 0 (some (remoteCmd 0)) }), 0, remoteCmd 0, by decide +kernel⟩,
    ⟨mb 3 5 5 0 16 [1, 2, 0, 4] 5 1, unit5.modMb (fun m => { m with bulk := .claimed 0, tags := m.tags.set 0 (some (remoteCmd 11)) }), 0, cmdIn
        ((unit5.modMb (fun m => { m with bulk := .claimed 0, tags := m.tags.set 0 (some (remoteCmd 11)) }))), by decide +kernel⟩,
    ⟨mb 4 5 1 0 0 (List.replicate 128 3) 1 5, headE, by decide +kernel⟩,
    ⟨mb 4 5 1 1 0 (List.replicate 128 3) 1 5, headE.modRing (fun r =>
        { r with halves := [{ src := 5, part := false, body := List.replicate 128 3 }] }), 3,
        { src := 5, part := false, body := (List.replicate 128 (3)) }, by decide +kernel⟩,
    ⟨unit5.modRing (fun r => { r with mirrorDue := true }), by decide +kernel⟩,
    ⟨mb 1 6 5 0 0 (desc 0x0100 0 [] 0) 1 6, headE, by decide +kernel⟩,
    ⟨frame tyBalance broadcast 5 [], 1, headE.modRing (fun r => { r with order := [5, 6], gap := some { up := 5, down := 6, at_ := 0 } }),
        by decide +kernel⟩⟩

/-- States and operands for the clauses of PqEventsTakeEffect. -/
theorem wit_PqEventsTakeEffect :
    (∃ (b : Bool) (v : Vector ℕ 3) (s : State) (k : Fin 3), s.metering = true ∧ s.pqSets[setOf b].halfVal = some v ∧ s.pqSets[setOf b].swell = none ∧
        s.pqSets[setOf b].intr = none ∧ s.pqSets[setOf b].rvc = none ∧ evEn s.pqSets[setOf b].evt 1 = false ∧ evEn s.pqSets[setOf b].evt 2 = false ∧
        evEn s.pqSets[setOf b].evt 3 = false ∧ s.pqSets[setOf b].dip = none ∧ evEn s.pqSets[setOf b].evt 0 = true ∧ v[k] * 100 < vsDip s.pqSets[setOf
        b].cfg * BitVec.toNat s.pqSets[setOf b].udin) ∧
    (∃ (b : Bool) (v : Vector ℕ 3) (s : State) (e : LevelEvent), s.metering = true ∧ s.pqSets[setOf b].halfVal = some v ∧ s.pqSets[setOf b].swell =
        none ∧ s.pqSets[setOf b].intr = none ∧ s.pqSets[setOf b].rvc = none ∧ evEn s.pqSets[setOf b].evt 1 = false ∧ evEn s.pqSets[setOf b].evt 2 =
        false ∧ evEn s.pqSets[setOf b].evt 3 = false ∧ s.pqSets[setOf b].dip = some e ∧ (∀ (k : Fin 3), (vsDip s.pqSets[setOf b].cfg + vsHyst
        s.pqSets[setOf b].cfg) * BitVec.toNat s.pqSets[setOf b].udin ≤ v[k] * 100) ∧ s.pq.fifo.length < 64) ∧
    (∃ (b : Bool) (k : Fin 3) (e : TransEvent) (s : State), s.metering = true ∧ s.pqSets[setOf b].trans[k] = some e ∧ s.pqSets[setOf
        b].transDue.getLsbD ↑k = true) ∧
    (∃ (b : Bool) (w : WinClosed) (s : State), s.metering = true ∧ s.pqSets[setOf b].winPend = some w ∧ s.pqSets[setOf b].stepSeen = false) ∧
    (∃ (b : Bool) (s : State), s.metering = true ∧ vsEn s.pqSets[setOf b].cfg = true ∧ s.gridNs % 10000000000 = 0 ∧ s.pqSets[setOf b].freqCycles ≤
        100) ∧
    (∃ (b : Bool) (s : State), s.metering = true ∧ vsEn s.pqSets[setOf b].cfg = true ∧ s.gridNs % 10000000000 = 0 ∧ 100 < s.pqSets[setOf
        b].freqCycles) ∧
    (∃ (s : State), s.wideOn = true ∧ s.gridNs % 200000000 = 0 ∧ s.pq.wbGap = false ∧ s.stalled 1 = false) ∧
    (∃ (s : State), s.wideOn = true ∧ s.gridNs % 200000000 = 0 ∧ s.pq.wbGap = true) ∧
    (∃ (s : State), s.wideOn = true ∧ s.gridNs % 1000000000 = 0) :=
  ⟨
    ⟨false, #v[5, 170000000, 190000000], on.modSet 0 (fun q => { q with halfVal := some #v[5, 170000000, 190000000], evt := 0x01140F1E }), 0,
        by decide +kernel⟩,
    ⟨false, #v[200000000, 200000000, 200000000], on.modSet 0 (fun q =>
        { q with halfVal := some #v[200000000, 200000000, 200000000], dip := some lev, evt := 0x01140F1E }),
        { start := { ns := 0, sec := 0, epoch := 0, ring := false, valid := false, lock := false }, startTick := 0, chans := 1, extreme := 5, worst := 0, unsync := false, stepped := false, hasInt := false },
        by decide +kernel⟩,
    ⟨false, 0,
        { start := { ns := 0, sec := 0, epoch := 0, ring := false, valid := false, lock := false }, startTick := 0, lastTick := 0, quiet := 0, extreme := 0, cycle := 0, unsync := false, stepped := false },
        on.modSet 0 (fun q => { q with trans := #v[some tev, none, none], transDue := 1 }), by decide +kernel⟩,
    ⟨false, window, on.modSet 0 (fun q => { q with winPend := some window }), by decide +kernel⟩,
    ⟨false, on.modSet 0 (fun q => { q with halfVal := some #v[180000001, 200000000, 190000000], evt := 0x01140F1E }), by decide +kernel⟩,
    ⟨false, on.modSet 0 (fun q => { q with freqCycles := 101 }), by decide +kernel⟩,
    ⟨on.modPq (fun p => { p with wbGap := false }), by decide +kernel⟩,
    ⟨on.modPq (fun p => { p with wbGap := true }), by decide +kernel⟩,
    ⟨on, by decide +kernel⟩⟩

/-- A soft value of a received bit (R335). -/
def softOf (b : Bool) : Rat := if b then -2 else 2

/-- Paths of the decoder after k steps that agree in all but their last 16 bits: metric and last bits, the newest lowest. -/
def paths (k old : Nat) (l : List (Int × Nat)) : List TrellisPath :=
  l.map (fun e => some (e.1, (List.range k).map (old * 65536 + e.2).testBit))

/-- The paths before the first step. -/
def noPaths : List TrellisPath := some (0, []) :: List.replicate 63 none

/-- The bits of the reply's payload with its check bytes, and the soft values of their code. -/
def replyBits : List Bool := bitsOfBytes (rsWord (withCrc [3, 0, 0, 0, 9, 9]))
def replyCoded : List Rat := (codeBits replyBits).map softOf

theorem trellis_append (b : List Rat) : ∀ (a : List Rat) (l : List TrellisPath), a.length % 2 = 0 → trellis (a ++ b) l = trellis b (trellis a l)
  | [], _, _ => rfl
  | [_], _, h => by simp at h
  | _ :: _ :: a, l, h => trellis_append b a _ (by simp at h; omega)

/-- The paths after 50, 100 and 150 steps. -/
def pathsA : List TrellisPath := paths 50 0x300000002
  [(188, 0x4240), (172, 0x4220), (176, 0x4310), (176, 0x4430), (184, 0x4248), (184, 0x4268), (172, 0x4218), (172, 0x4278), (184, 0x4244),
    (176, 0x4224), (180, 0x4254), (172, 0x4274), (180, 0x428C), (172, 0x45AC), (176, 0x421C), (176, 0x443C), (200, 0x4242), (168, 0x4222),
    (172, 0x4312), (172, 0x4432), (172, 0x420A), (180, 0x42EA), (176, 0x421A), (176, 0x427A), (180, 0x4246), (172, 0x4226), (184, 0x4216),
    (168, 0x4436), (184, 0x424E), (176, 0x426E), (180, 0x425E), (172, 0x40BE), (188, 0x4241), (180, 0x40E1), (176, 0x4311), (184, 0x4271),
    (184, 0x4249), (176, 0x4269), (172, 0x4219), (172, 0x4439), (184, 0x4245), (184, 0x4225), (180, 0x4255), (172, 0x40B5), (180, 0x428D),
    (180, 0x426D), (176, 0x421D), (176, 0x427D), (192, 0x4243), (168, 0x4223), (180, 0x4313), (172, 0x4433), (180, 0x424B), (180, 0x42EB),
    (184, 0x425B), (176, 0x427B), (188, 0x4247), (172, 0x4227), (184, 0x4257), (168, 0x4437), (176, 0x420F), (176, 0x426F), (172, 0x421F),
    (172, 0x40BF)]
def pathsB : List TrellisPath := paths 100 0xc0000000909082d74c43d
  [(376, 0x9C00), (376, 0x9D20), (372, 0x9890), (380, 0x9DB0), (372, 0x8848), (380, 0x9D68), (376, 0x9D18), (384, 0x9D78), (372, 0x9E44),
    (372, 0x9D24), (384, 0x9D54), (384, 0x9D74), (376, 0x9D0C), (376, 0x9C2C), (372, 0x9C1C), (388, 0x9D7C), (372, 0x9182), (380, 0x9D62),
    (376, 0x9D52), (384, 0x9D72), (368, 0x9C0A), (384, 0x9D2A), (372, 0x9D1A), (380, 0x9D7A), (376, 0x9E46), (376, 0x9D26), (380, 0x9DD6),
    (372, 0x9836), (372, 0x9D0E), (372, 0x9C2E), (368, 0x9C1E), (400, 0x9D7E), (376, 0x9E41), (376, 0x9D21), (380, 0x9D51), (380, 0x9DB1),
    (372, 0x9689), (380, 0x9D69), (384, 0x9D19), (384, 0x9D79), (372, 0x9C05), (372, 0x9D25), (376, 0x9D55), (384, 0x9D75), (384, 0x9D4D),
    (376, 0x9C2D), (380, 0x9FDD), (388, 0x9D7D), (372, 0x9183), (372, 0x9D23), (376, 0x9D53), (376, 0x9833), (368, 0x9C0B), (384, 0x9D6B),
    (372, 0x9D1B), (388, 0x9D7B), (376, 0x9E47), (384, 0x9D67), (380, 0x9DD7), (380, 0x9D77), (372, 0x9D0F), (380, 0x9C2F), (368, 0x9C1F),
    (392, 0x9D7F)]
def pathsC : List TrellisPath := paths 150 0x30000000242420b5d310f675f8a1c59ebb
  [(572, 0x6E00), (572, 0x6F20), (576, 0x6F90), (576, 0x6FB0), (584, 0x6F88), (568, 0x6F28), (588, 0x6F98), (572, 0x6D38), (584, 0x6F84),
    (576, 0x6CA4), (580, 0x6F94), (580, 0x6F34), (580, 0x6ECC), (572, 0x6F2C), (592, 0x6F9C), (568, 0x6D3C), (576, 0x6E02), (576, 0x6F22),
    (580, 0x6F92), (580, 0x6FB2), (580, 0x6F8A), (572, 0x646A), (584, 0x6F9A), (584, 0x6FFA), (572, 0x6E06), (572, 0x6A66), (584, 0x6F96),
    (576, 0x6FB6), (576, 0x6F8E), (584, 0x6FAE), (588, 0x6F9E), (580, 0x6D3E), (580, 0x6E01), (572, 0x6F21), (584, 0x6F91), (576, 0x6FB1),
    (584, 0x6FC9), (568, 0x6F29), (580, 0x6F99), (572, 0x6D39), (576, 0x6F85), (576, 0x6CA5), (572, 0x6F95), (580, 0x6F35), (572, 0x6C0D),
    (572, 0x6F2D), (600, 0x6F9D), (568, 0x6D3D), (576, 0x6E03), (576, 0x6EE3), (580, 0x6F93), (572, 0x6FB3), (580, 0x6F8B), (572, 0x6F2B),
    (584, 0x6F9B), (576, 0x6D3B), (572, 0x6E07), (572, 0x3027), (584, 0x6F97), (584, 0x6FB7), (576, 0x6F8F), (576, 0x6FAF), (588, 0x6F9F),
    (572, 0x6D3F)]

theorem reply_trellis_a : trellis (replyCoded.take 100) noPaths = pathsA := by decide +kernel
theorem reply_trellis_b : trellis ((replyCoded.drop 100).take 100) pathsA = pathsB := by decide +kernel
theorem reply_trellis_c : trellis ((replyCoded.drop 200).take 100) pathsB = pathsC := by decide +kernel
theorem reply_trellis_d :
    (trellis (replyCoded.drop 300) pathsC).headD none = some (792, (replyBits ++ List.replicate 6 false).reverse) := by decide +kernel

/-- What the decoder answers, from the path it ends on. -/
theorem viterbi_of {soft : List Rat} {m : Rat} {bits : List Bool} (h : (trellis soft noPaths).headD none = some (m, bits)) :
    viterbi soft = (bits.drop 6).reverse := by
  rw [noPaths] at h
  simp only [viterbi, h]

/-- The paths after a list of soft values, in four pieces of which the first three hold 50 steps each. -/
theorem trellis_pieces {l : List Rat} {p a b c : List TrellisPath} {d : TrellisPath} (h : 300 ≤ l.length) (ha : trellis (l.take 100) p = a)
    (hb : trellis ((l.drop 100).take 100) a = b) (hc : trellis ((l.drop 200).take 100) b = c) (hd : (trellis (l.drop 300) c).headD none = d) :
    (trellis l p).headD none = d := by
  have cut : ∀ (l : List Rat) (q), 100 ≤ l.length → trellis l q = trellis (l.drop 100) (trellis (l.take 100) q) := by
    intro l q h
    conv_lhs => rw [← List.take_append_drop 100 l]
    exact trellis_append _ _ _ (by simp; omega)
  rw [cut l p (by omega), ha, cut _ a (by simp; omega), hb, List.drop_drop, cut _ b (by simp; omega), hc, List.drop_drop]
  exact hd

/-- The payload of a frame whose first possible length passes. -/
theorem rxPayload_of {p : Plc} {x : Exchange} {fch : BitVec 42} {syms : List RxSym} {maps : List (List Nat)} {n : Nat} {l : List Nat}
    {bs : List Byte}
    (hm : replyMaps x (fchMapsel fch) (if fchMapver fch = p.mapVer.toNat then mapsInUse p else p.oldMaps) (fchNsym fch) = maps)
    (hl : replyLens maps = n :: l)
    (hb : macOf ((demod ([robustMap, robustMap] ++ maps) ((syms.getD 3 { bins := [], blanked := 0 }).bins) (syms.drop 4)).drop 96) n = some bs)
    (ho : replyOk x (BitVec.ofNat 8 (leAt x.mac (if x.join then 9 else 1) 1)) bs = true) : rxPayload p x fch syms = some bs := by
  simp only [rxPayload, hm, hl, List.findSome?_cons, hb, Option.filter_some, ho, if_true]

/-- A copy that is complete and good. -/
theorem rxCopy_of {p : Plc} {x : Exchange} {start n : Nat} {snr : Byte} {syms : List RxSym} {fch : BitVec 42} {bs : List Byte}
    (hf : rxFch syms = fch) (hn : syms.length = 6 + n) (hs : fchNsym fch = n) (ho : (!fchOk x.node fch || !verHeld p fch) = false)
    (hb : rxPayload p x fch syms = some bs) : ∃ t d, rxCopy p x start snr syms = .good t d := by
  have all : syms.take (6 + n) = syms := List.take_of_length_le (by omega)
  exact ⟨_, _, by
    simp only [rxCopy, hf, hn, hs, ho, all, hb, show ¬ 6 + n < 6 by omega, Nat.lt_irrefl, if_false, Bool.false_eq_true]
    rfl⟩

/-- A reply of which the first input has a good copy and the second nothing yet. -/
theorem received_of {x : Exchange} {snr : Byte} {s : State} {st : Nat × Nat} (h : (s.stalled 1 || x.rxLost) = false) (hs : x.rxStart = some st)
    (h1 : ∃ t d, rxCopy s.plc x st.1 snr x.rxSyms[0] = .good t d) (h2 : x.rxSyms[1] = []) : ∃ t d, received x snr s = .good t d := by
  obtain ⟨t, d, h1⟩ := h1
  have w : ∀ p start, rxCopy p x start snr [] = .waits := fun _ _ => rfl
  exact ⟨t, d, by simp only [received, h, hs, h1, h2, w, firstCopy, Bool.false_eq_true, if_false]⟩

theorem reply_viterbi : viterbi replyCoded = replyBits :=
  (viterbi_of (trellis_pieces (by decide +kernel) reply_trellis_a reply_trellis_b reply_trellis_c reply_trellis_d)).trans (by simp)

/-- The soft bits of the reply's payload symbols. -/
def replySoft : List Rat :=
  (demod ([robustMap, robustMap] ++ List.replicate 9 robustMap) ((replySyms.getD 3 { bins := [], blanked := 0 }).bins) (replySyms.drop 4)).drop 96

theorem reply_deinterleaved : deinterleave (replySoft.take (codedLen 8)) = replyCoded := by decide +kernel

theorem macOf_of {soft coded : List Rat} {n : Nat} {bits : List Bool} (hd : deinterleave (soft.take (codedLen n)) = coded)
    (hv : viterbi coded = bits) : macOf soft n = (rsDecode ((chunks 8 (n + 16) bits).map bitsToNat)).map (fun l => l.map (BitVec.ofNat 8)) := by
  simp only [macOf, hd, hv]

theorem reply_checked : (rsDecode ((chunks 8 24 replyBits).map bitsToNat)).map (fun l => l.map (BitVec.ofNat 8)) =
    some [3, 0, 0, 0, 9, 9, 65, 235] := by decide +kernel

theorem reply_fch : rxFch replySyms = goodFch := by decide +kernel

/-- An exchange whose reply the first input has received. -/
def replyX : Exchange :=
  { xch true (some (7, 0)) with rxStart := some (0, 0), rxSyms := #v[replySyms, []] }

/-- The modem that waits for it. -/
def replyState : State := plc1.modPlc (fun p => { p with xchg := some replyX })

theorem reply_payload : rxPayload replyState.plc replyX goodFch replySyms = some [3, 0, 0, 0, 9, 9, 65, 235] :=
  rxPayload_of (maps := List.replicate 9 robustMap) (n := 8) (l := [9, 10]) (by decide +kernel) (by decide +kernel)
    ((macOf_of reply_deinterleaved reply_viterbi).trans reply_checked) (by decide +kernel)

theorem reply_is_good : ∃ t d, received replyX 4 replyState = .good t d :=
  received_of (st := (0, 0)) (by decide +kernel) rfl
    (rxCopy_of (n := 9) reply_fch (by decide +kernel) (by decide +kernel) (by decide +kernel) reply_payload) rfl

/-- States and operands for the clauses of PlcEventsTakeEffect. -/
theorem wit_PlcEventsTakeEffect :
    (∃ (s : State), plcOn s = true ∧ turnDue s = true ∧ s.plc.baseStored = true ∧ s.mpRuns = false) ∧
    (∃ (s : State), plcOn s = true ∧ turnDue s = true ∧ s.plc.baseStored = true ∧ s.mpRuns = true ∧ turnEnded s.plc = false) ∧
    (∃ (s : State), plcOn s = true ∧ turnDue s = true ∧ s.plc.baseStored = true ∧ s.mpRuns = true ∧ turnEnded s.plc = true ∧ s.plc.mapOwed = false ∧
        s.plc.pendNodes = []) ∧
    (∃ (s : State), plcOn s = true ∧ turnDue s = true ∧ s.plc.baseStored = true ∧ s.mpRuns = true ∧ turnEnded s.plc = true ∧ s.plc.mapOwed = true ∧
        baseStoring s = false) ∧
    (∃ (s : State), plcOn s = true ∧ s.mpRuns = true ∧ s.plc.prepared = none) ∧
    (∃ (s : State) (e : Fin 240 × BitVec 64) (l : List (Fin 240 × BitVec 64)), plcOn s = true ∧ s.mpRuns = true ∧ s.plc.xchg = none ∧
        s.plc.turnLeaves = e :: l ∧ s.plc.turnPend = false ∧ s.reached s.plc.nextAt = true) ∧
    (∃ (s : State) (i : Fin 240), plcOn s = true ∧ s.mpRuns = true ∧ s.plc.xchg = none ∧ s.plc.turnLeaves = [] ∧ s.plc.prepared = some i ∧
        s.reached (Max.max s.plc.nextAt (s.plc.prepAt + 2000000)) = false) ∧
    (∃ (s : State) (i : Fin 240), plcOn s = true ∧ s.mpRuns = true ∧ s.plc.xchg = none ∧ s.plc.turnLeaves = [] ∧ s.plc.prepared = some i ∧
        s.reached (Max.max s.plc.nextAt (s.plc.prepAt + 2000000)) = true) ∧
    (∃ (x : Exchange) (s : State), plcOn s = true ∧ s.plc.xchg = some x ∧ x.pollEnd + 2000000 ≤ s.nowNs + 31250) ∧
    (∃ (x : Exchange) (s : State) (d : ReplyDetection), plcOn s = true ∧ s.plc.xchg = some x ∧ x.winOpen = true ∧ x.detected = none ∧ x.pollEnd +
        2000000 ≤ s.nowNs + d.dt ∧ s.nowNs + d.dt < x.pollEnd + 5250000 ∧ (correlates (wideTick s) (wideTick s + d.dt * 8 / 15625 - d.lead1)
        d.lead1 x.rxBuf[0] || correlates (wideTick s) (wideTick s + d.dt * 8 / 15625 - d.lead2) d.lead2 x.rxBuf[1]) = true) ∧
    (∃ (x : Exchange) (s : State) (d : ReplyDetection), plcOn s = true ∧ s.plc.xchg = some x ∧ x.winOpen = true ∧ x.detected = none ∧ x.pollEnd +
        2000000 ≤ s.nowNs + d.dt ∧ s.nowNs + d.dt < x.pollEnd + 5250000 ∧ (correlates (wideTick s) (wideTick s + d.dt * 8 / 15625 - d.lead1)
        d.lead1 x.rxBuf[0] || correlates (wideTick s) (wideTick s + d.dt * 8 / 15625 - d.lead2) d.lead2 x.rxBuf[1]) = false) ∧
    (∃ (x : Exchange) (s : State) (d : ReplyDetection), plcOn s = true ∧ s.plc.xchg = some x ∧ (s.nowNs + d.dt < x.pollEnd + 2000000 ∨ x.pollEnd +
        5250000 ≤ s.nowNs + d.dt)) ∧
    (∃ (x : Exchange) (s : State), plcOn s = true ∧ s.plc.xchg = some x ∧ x.winOpen = true ∧ x.detected = none ∧ x.pollEnd + 5250000 ≤ s.nowNs + 31250
        ∧ s.plc.ident = none ∧ s.plc.turnPend = false) ∧
    (∃ (x : Exchange) (s : State) (r : RxReply) (d : Word × BitVec 4) (tick : ℕ) (c : Decoded), plcOn s = true ∧ s.plc.xchg = some x ∧ x.detected =
        some d ∧ s.plc.ident = none ∧ s.plc.turnPend = false ∧ received x r.snr s = RxOutcome.good tick c) ∧
    (∃ (x : Exchange) (s : State) (r : RxReply) (d : Word × BitVec 4), plcOn s = true ∧ s.plc.xchg = some x ∧ x.detected = some d ∧ s.plc.ident =
        none ∧ s.plc.turnPend = false ∧ received x r.snr s = RxOutcome.bad) ∧
    (∃ (x : Exchange) (s : State) (r : RxReply) (d : Word × BitVec 4), plcOn s = true ∧ s.plc.xchg = some x ∧ x.detected = some d ∧ s.plc.ident =
        none ∧ s.plc.turnPend = false ∧ received x r.snr s = RxOutcome.waits) ∧
    (∃ (x : Exchange) (s : State) (r : RxReply) (d : Word × BitVec 4), plcOn s = true ∧ s.plc.xchg = some x ∧ x.detected = some d ∧ s.plc.ident =
        none ∧ s.plc.turnPend = false ∧ (s.stalled 1 = true ∨ x.rxLost = true)) ∧
    (∃ (s : State), plcOn s = true ∧ s.mpRuns = true ∧ s.plc.fixedMaps = false ∧ (lowestLevel s.plc 0).isSome = true ∧ rebuilt s = mapsInUse s.plc) ∧
    (∃ (s : State), plcOn s = true ∧ s.mpRuns = true ∧ s.plc.fixedMaps = false ∧ (lowestLevel s.plc 0).isSome = true ∧ rebuilt s ≠ mapsInUse s.plc ∧
        s.plc.lastVer = none) :=
  ⟨
    ⟨plc1.modHw (fun h => { h with mpReady := false }), by decide +kernel⟩,
    ⟨plc1.modPlc (fun p => { p with turnLeft := [2] }), by decide +kernel⟩,
    ⟨plc1, by decide +kernel⟩,
    ⟨plc1.modPlc (fun p => { p with mapOwed := true }), by decide +kernel⟩,
    ⟨plc1, by decide +kernel⟩,
    ⟨plc1.modPlc (fun p => { p with turnLeaves := [(2, 5)] }), (2, 5), [], by decide +kernel⟩,
    ⟨plc1.modPlc (fun p => { p with prepared := some 2, turnLeft := [2], nextAt := 900000000000 }), 2, by decide +kernel⟩,
    ⟨(plc1.modPlc (fun p => { p with prepared := some 2, turnLeft := [2] })).modTime (fun t => { t with rt := 3000000 * 65536 }), 2,
        by decide +kernel⟩,
    ⟨{ node := 2, join := false, mac := [3, 0, 0, 0, 32, 78, 0, 0, 0, 68, 241], pollEnd := 100, winOpen := false, detected := none }, (plc1.modPlc
        (fun p => { p with xchg := some (xch false none) })).modTime (fun t => { t with rt := 3000000 * 65536 }), by decide +kernel⟩,
    ⟨xch true none, (plc1.modPlc (fun p => { p with xchg := some (xch true none) })).modTime (fun t =>
        { t with rt := 3000000 * 65536, ticks := 400 }), ⟨7, 1152, 1152⟩, by decide +kernel⟩,
    ⟨{ xch true none with rxBuf := Vector.replicate 2 (List.replicate 2400 (0, true)) }, (plc1.modPlc (fun p =>
        { p with xchg := some { xch true none with rxBuf := Vector.replicate 2 (List.replicate 2400 (0, true)) } })).modTime (fun t =>
        { t with rt := 3000000 * 65536, ticks := 400 }), ⟨7, 1152, 1152⟩, by decide +kernel⟩,
    ⟨xch false none, plc1.modPlc (fun p => { p with xchg := some (xch false none) }), ⟨7, 1152, 1152⟩, by decide +kernel⟩,
    ⟨{ node := 2, join := false, mac := [3, 0, 0, 0, 32, 78, 0, 0, 0, 68, 241], pollEnd := 100, winOpen := true, detected := none }, (plc1.modPlc (fun
        p => { p with xchg := some (xch true none) })).modTime (fun t => { t with rt := 6000000 * 65536 }), by decide +kernel⟩,
    by
      obtain ⟨tick, c, h⟩ := reply_is_good
      exact ⟨replyX, replyState, { snr := 4 }, (7, 0), tick, c, by decide +kernel, by decide +kernel, by decide +kernel,
        by decide +kernel, by decide +kernel, h⟩,
    ⟨{ xch true (some (7, 0)) with rxLost := true }, plc1.modPlc (fun p => { p with xchg := some { xch true (some (7, 0)) with rxLost := true } }),
        { snr := 4 }, (7, 0), by decide +kernel, by decide +kernel, by decide +kernel, by decide +kernel, by decide +kernel, rfl⟩,
    ⟨{ xch true (some (7, 0)) with rxStart := some (0, 0) }, plc1.modPlc (fun p =>
        { p with xchg := some { xch true (some (7, 0)) with rxStart := some (0, 0) } }), { snr := 4 }, (7, 0), by decide +kernel,
        by decide +kernel, by decide +kernel, by decide +kernel, by decide +kernel, rfl⟩,
    ⟨{ xch true (some (7, 0)) with rxLost := true }, plc1.modPlc (fun p => { p with xchg := some { xch true (some (7, 0)) with rxLost := true } }),
        { snr := 4 }, (7, 0), by decide +kernel⟩,
    ⟨plc1.modNode 2 (fun n => { n with levels := List.replicate 384 20 }), by decide +kernel⟩,
    ⟨plc1.modNode 2 (fun n => { n with levels := List.replicate 384 0 }), by decide +kernel⟩⟩

/-- States and operands for the clauses of DisplayEventsTakeEffect. -/
theorem wit_DisplayEventsTakeEffect :
    (∃ (u : Update) (s : State), dispOn s = true ∧ s.disp.upd = some u ∧ u.stage = UpdStage.ledger ∧ ledgerStoring s = false) ∧
    (∃ (u : Update) (s : State), dispOn s = true ∧ s.disp.upd = some u ∧ u.stage = UpdStage.ledger ∧ ledgerStoring s = true) ∧
    (∃ (u : Update) (s : State), dispOn s = true ∧ s.disp.upd = some u ∧ u.stage = UpdStage.rails ∧ s.disp.frameAt + 160 ≤ s.time.ticks) ∧
    (∃ (u : Update) (s : State), dispOn s = true ∧ s.disp.upd = some u ∧ u.stage = UpdStage.rails ∧ s.time.ticks < s.disp.frameAt + 160) ∧
    (∃ (u : Update) (s : State), dispOn s = true ∧ s.disp.upd = some u ∧ u.stage = UpdStage.frames ∧ u.frame + 1 < u.frames ∧ s.disp.frameAt +
        framePeriod s.disp u ≤ s.time.ticks) ∧
    (∃ (u : Update) (s : State), dispOn s = true ∧ s.disp.upd = some u ∧ s.time.ticks < s.disp.frameAt + framePeriod s.disp u) ∧
    (∃ (u : Update) (s : State), dispOn s = true ∧ s.disp.upd = some u ∧ u.stage = UpdStage.frames ∧ u.frames ≤ u.frame + 1 ∧ s.disp.frameAt +
        framePeriod s.disp u ≤ s.time.ticks ∧ s.disp.pendCfg = none ∧ s.power.leanPend = none) ∧
    (∃ (s : State), dispOn s = true ∧ s.disp.upd = none ∧ s.disp.mode = 2 ∧ s.disp.crevOpen = false ∧ s.disp.dpwrEn = true ∧ s.disp.frameAt + 533 ≤
        s.time.ticks) ∧
    (∃ (s : State), dispOn s = true ∧ s.mpRuns = true ∧ s.disp.checkPend = true ∧ s.disp.mode = 1 ∧ s.disp.crevReads < 2) ∧
    (∃ (s : State), dispOn s = true ∧ s.mpRuns = true ∧ s.disp.checkPend = true ∧ s.disp.mode = 1 ∧ 2 ≤ s.disp.crevReads ∧ recState s.disp.record ≠
        1) ∧
    (∃ (s : State), dispOn s = true ∧ s.mpRuns = true ∧ s.disp.checkPend = true ∧ s.disp.mode = 1 ∧ 2 ≤ s.disp.crevReads ∧ recState s.disp.record =
        1 ∧ s.disp.crevOpen = false) ∧
    (∃ (s : State), dispOn s = true ∧ s.disp.repairDue = true ∧ s.disp.upd = none ∧ s.disp.mode = 1 ∧ s.disp.crevOpen = false ∧ ledgerStoring s =
        false) ∧
    (∃ (s : State), dispOn s = true ∧ s.disp.crevOpen = true ∧ 100 ≤ s.disp.crevGood) ∧
    (∃ (s : State), dispOn s = true ∧ s.disp.crevOpen = true ∧ s.disp.crevGood < 100) ∧
    (∃ (s : State), dispOn s = true ∧ s.mpRuns = true ∧ s.disp.legalMask ≠ 0 ∧ s.disp.stripDue = true ∧ s.disp.crevOpen = false ∧ updateBusy s.disp =
        false ∧ s.disp.mode = 2) ∧
    (∃ (s : State), dispOn s = true ∧ s.mpRuns = true ∧ s.disp.legalMask ≠ 0 ∧ s.disp.stripDue = true ∧ s.disp.crevOpen = false ∧ updateBusy s.disp =
        false ∧ s.disp.mode = 1 ∧ bandsLoaded s.disp (↑(chooseBand s).1) 0 (s.disp.height.toNat - min s.disp.height.toNat 32) s.disp.width.toNat (min
        s.disp.height.toNat 32) = true) :=
  ⟨
    ⟨{ id := 1, typ := 0, x := 0, y := 0, w := 2, h := 1, frames := 8, frame := 0, stage := UpdStage.ledger, band := 3, copied := [], groups := [0] },
        panel32.modDisp (fun d => { d with upd := some (upd .ledger 0 8) }), by decide +kernel⟩,
    ⟨{ id := 1, typ := 0, x := 0, y := 0, w := 2, h := 1, frames := 8, frame := 0, stage := UpdStage.ledger, band := 3, copied := [], groups := [0] },
        waiting (panel32.modDisp (fun d => { d with upd := some (upd .ledger 0 8) })), by decide +kernel⟩,
    ⟨(upd .rails 0 8), (panel32.modDisp (fun d => { d with upd := some (upd .rails 0 8) })).modTime (fun t => { t with ticks := 160 }),
        by decide +kernel⟩,
    ⟨(upd .rails 0 8), (panel32.modDisp (fun d => { d with upd := some (upd .rails 0 8) })).modTime (fun t => { t with ticks := 159 }),
        by decide +kernel⟩,
    ⟨{ upd .frames 0 8 with luts := Vector.replicate 8 (some lut1) }, (panel32.modDisp (fun d =>
        { d with upd := some { upd .frames 0 8 with luts := Vector.replicate 8 (some lut1) } })).modTime (fun t => { t with ticks := 320 }),
        by decide +kernel⟩,
    ⟨{ upd .frames 0 8 with luts := Vector.replicate 8 (some lut1) }, (panel32.modDisp (fun d =>
        { d with upd := some { upd .frames 0 8 with luts := Vector.replicate 8 (some lut1) } })).modTime (fun t => { t with ticks := 319 }),
        by decide +kernel⟩,
    ⟨{ upd .frames 7 8 with luts := Vector.replicate 8 (some lut1) }, (panel32.modDisp (fun d =>
        { d with upd := some { upd .frames 7 8 with luts := Vector.replicate 8 (some lut1) } })).modTime (fun t => { t with ticks := 320 }),
        by decide +kernel⟩,
    ⟨(panel32.modDisp (fun d => { d with mode := 2, dpwrEn := true })).modTime (fun t => { t with ticks := 533 }), by decide +kernel⟩,
    ⟨panel32.modDisp (fun d => { d with checkPend := true, crevReads := 0 }), by decide +kernel⟩,
    ⟨panel32.modDisp (fun d => { d with checkPend := true, crevReads := 2 }), by decide +kernel⟩,
    ⟨panel32.modDisp (fun d => { d with checkPend := true, crevReads := 2, record := [0, 0, 0, 0, 1, 0] ++ List.replicate 58 0 }),
        by decide +kernel⟩,
    ⟨panel32.modDisp (fun d => { d with repairDue := true }), by decide +kernel⟩,
    ⟨panel32.modDisp (fun d => { d with crevOpen := true, crevGood := 100 }), by decide +kernel⟩,
    ⟨panel32.modDisp (fun d => { d with crevOpen := true, crevGood := 99 }), by decide +kernel⟩,
    ⟨panel32.modDisp (fun d => { d with mode := 2, legalMask := 1, stripDue := true }), by decide +kernel⟩,
    ⟨panel32.modDisp (fun d => { d with legalMask := 1, stripDue := true }), by decide +kernel⟩⟩

/-- States and operands for the clauses of AuxEventsTakeEffect. -/
theorem wit_AuxEventsTakeEffect :
    (∃ (i : Byte) (l : List Byte) (s : State), s.coreOn = true ∧ s.aux.powered = true ∧ s.power.state = PowerState.run ∧ s.aux.regular = i :: l ∧
        instantIn s (BitVec.toNat s.aux.regPeriod * 1000) = true ∧ s.stalled 10 = false ∧ s.aux.running = none ∧ s.aux.cal = false ∧ s.aux.calDue =
        false ∧ s.aux.lowPowerPend = none ∧ s.aux.pending = [] ∧ s.aux.passLeft = [] ∧ s.aux.passPend = false) ∧
    (∃ (i : Byte) (l : List Byte) (s : State) (c : Conv), s.coreOn = true ∧ s.aux.powered = true ∧ s.power.state = PowerState.run ∧ s.aux.regular = i
        :: l ∧ instantIn s (BitVec.toNat s.aux.regPeriod * 1000) = true ∧ s.stalled 10 = false ∧ s.aux.running = some c ∧ s.aux.passLeft ≠ []) ∧
    (∃ (s : State), s.coreOn = true ∧ s.aux.powered = true ∧ s.aux.cal = true ∧ auxWanted s = true ∧ instantIn s (BitVec.toNat s.aux.injPeriod * 1000)
        = true) ∧
    (∃ (s : State), s.coreOn = true ∧ s.aux.powered = true ∧ s.aux.cal = true ∧ auxWanted s = true ∧ s.aux.ready = true ∧ s.gridNs % 500000 = 0) ∧
    (∃ (s : State), s.coreOn = true ∧ s.aux.powered = true ∧ s.aux.cal = true ∧ auxWanted s = true ∧ s.aux.ready = true ∧ s.disp.mode ≠ 0 ∧ s.gridNs %
        10000000 = 0) ∧
    (∃ (code : BitVec 16) (dt : ℕ) (c : Conv) (s : State), s.coreOn = true ∧ s.stalled 9 = false ∧ s.aux.running = some c) ∧
    (∃ (s : State), s.coreOn = true ∧ s.aux.powered = true ∧ auxWanted s = true ∧ s.aux.cal = true ∧ s.aux.calDue = false ∧ s.aux.lowPowerPend =
        none) ∧
    (∃ (s : State) (c : Conv), s.coreOn = true ∧ s.aux.powered = true ∧ auxWanted s = true ∧ s.aux.cal = false ∧ s.aux.running = some c ∧
        s.aux.calTick + 60 * 32000 ≤ s.time.ticks) ∧
    (∃ (s : State) (c : Conv), s.coreOn = true ∧ s.aux.powered = true ∧ auxWanted s = true ∧ s.aux.cal = false ∧ s.aux.running = some c ∧
        s.time.ticks < s.aux.calTick + 60 * 32000) ∧
    (∃ (i : Fin 8) (s : State), s.coreOn = true ∧ s.aux.powered = true ∧ s.s0[i].en = false) ∧
    (∃ (i : Fin 8) (s : State), s.coreOn = true ∧ s.aux.powered = true ∧ s.s0[i].en = true) :=
  ⟨
    ⟨1, [2], auxOn, by decide +kernel⟩,
    ⟨1, [2], auxOn.modAux (fun a => { a with running := some { src := .regular, input := 1, late := false, waited := false }, passLeft := [2] }),
        { src := ConvSource.regular, input := 1, late := false, waited := false }, by decide +kernel⟩,
    ⟨auxOn.modAux (fun a => { a with cal := true }), by decide +kernel⟩,
    ⟨auxOn.modAux (fun a => { a with cal := true }), by decide +kernel⟩,
    ⟨(auxOn.modAux (fun a => { a with cal := true })).modDisp (fun d => { d with mode := 1 }), by decide +kernel⟩,
    ⟨0, 0, { src := ConvSource.regular, input := 1, late := false, waited := false }, auxOn.modAux (fun a =>
        { a with running := some { src := .regular, input := 1, late := false, waited := false }, passLeft := [2] }), by decide +kernel⟩,
    ⟨auxOn.modAux (fun a => { a with cal := true }), by decide +kernel⟩,
    ⟨(auxOn.modAux (fun a => { a with running := some { src := .regular, input := 1, late := false, waited := false }, passLeft := [2] })).modTime
        (fun t => { t with ticks := 1920000 }), { src := ConvSource.regular, input := 1, late := false, waited := false }, by decide +kernel⟩,
    ⟨auxOn.modAux (fun a => { a with running := some { src := .regular, input := 1, late := false, waited := false }, passLeft := [2] }),
        { src := ConvSource.regular, input := 1, late := false, waited := false }, by decide +kernel⟩,
    ⟨0, auxOn, by decide +kernel⟩,
    ⟨0, (auxOn.modS0 0 (fun i => { i with en := true })), by decide +kernel⟩⟩

/-- States and operands for the clauses of CrossingEventsTakeEffect. -/
theorem wit_CrossingEventsTakeEffect :
    (∃ (k : Fin 12) (s : State), s.coreOn = true ∧ s.stalled ↑k = false) ∧
    (∃ (k : Fin 12) (s : State), s.coreOn = true ∧ s.stalled ↑k = true) ∧
    (∃ (k : Fin 12) (s : State) (n : ℕ), s.coreOn = true ∧ s.stalled ↑k = false) :=
  ⟨
    ⟨7, bothUp on, by decide +kernel⟩,
    ⟨7, (bothUp on).modCdc (fun c => { c with stall := 0xFFF }), by decide +kernel⟩,
    ⟨7, bothUp on, 2, by decide +kernel⟩⟩

/-- States and operands for the clauses of SampleTickAdvances. -/
theorem wit_SampleTickAdvances :
    (∃ (x : Samples) (s : State), s.coreOn = false) ∧
    (∃ (x : Samples) (s : State) (d : ℤ), s.coreOn = true ∧ s.time.step = none ∧ s.time.offStep = some d ∧ s.time.mode ≠ AlignMode.holdover) ∧
    (∃ (x : Samples) (s : State), s.coreOn = true ∧ s.time.step = none ∧ s.time.offStep = none ∧ (∀ (c : Fin 24), s.circuits[c].due =
        CloseDue.none) ∧ ∀ (b : Fin 2), s.pqSets[b].halfVal = none ∧ s.pqSets[b].winPend = none ∧ s.pqSets[b].transDue = 0) :=
  ⟨
    ⟨{ coarse := Vector.replicate 24 5, fine := Vector.replicate 24 6, ovl := 1, volt := Vector.replicate 8 7 }, State.reset, by decide +kernel⟩,
    ⟨{ coarse := Vector.replicate 24 5, fine := Vector.replicate 24 6, ovl := 1, volt := Vector.replicate 8 7 }, on.modTime (fun t =>
        { t with offStep := some 5 }), 5, by decide +kernel⟩,
    ⟨{ coarse := Vector.replicate 24 5, fine := Vector.replicate 24 6, ovl := 1, volt := Vector.replicate 8 7 }, on, by decide +kernel⟩⟩

/-- States and operands for the clauses of MemoriesKept. -/
theorem wit_MemoriesKept :
    (∃ (s t : State), memoriesWf s = true ∧ requestIdsWf s = true ∧ step s = Host.Outcome.next t) :=
  ⟨headOf (lifeOf .factory 1 on), after (step (headOf (lifeOf .factory 1 on))), by decide +kernel, by decide +kernel, next_after _
      (by decide +kernel)⟩

/-- States and operands for the clauses of OtpIsNeverCleared. -/
theorem wit_OtpIsNeverCleared :
    (∃ (s t : State), step s = Host.Outcome.next t) :=
  ⟨headOf (lifeOf .factory 1 on), after (step (headOf (lifeOf .factory 1 on))), next_after _ (by decide +kernel)⟩

end Sys2Proof.Tests
end

section
/-! How a command that the MP takes ends, and what its body reads of the payload. -/

namespace Sys2Proof.Machine

variable {row : CmdRow} {body : CmdIn → State → Reply} {t : Fin 64} {c : Cmd} {s : State} {i : Instr}

/-- What the body of a command sees of command c under tag t. -/
def cmdIn (t : Fin 64) (c : Cmd) (s : State) : CmdIn :=
  { tag := t, org := c.origin, pay := dPayload c.desc, bulk := bulkOf c s }

@[simp] theorem p1_cmdIn (off : Nat) : p1 (cmdIn t c s) off = payField c off 1 := (rfl)
@[simp] theorem p4_cmdIn (off : Nat) : p4 (cmdIn t c s) off = payField c off 4 := (rfl)
@[simp] theorem p6_cmdIn (off : Nat) : p6 (cmdIn t c s) off = payField c off 6 := (rfl)
@[simp] theorem cmdIn_bulk : (cmdIn t c s).bulk = bulkOf c s := (rfl)

/-- A command that passes the common checks and needs no clock does what its body says. -/
theorem exec_takes (hi : exec i s = .next (runCmd row body t s)) (hc : row.clocks = false) (h : Takes row t c s) :
    exec i s = .next (settleReply t (body (cmdIn t c s) s)) := by
  rw [hi, runCmd_takes body h, clockBusy_free hc]
  rfl

/-- Such a command whose body answers at once gives that answer. -/
theorem exec_done {st : Status} {p b : List Byte} {s' : State} (hi : exec i s = .next (runCmd row body t s)) (hc : row.clocks = false)
    (h : Takes row t c s) (hb : body (cmdIn t c s) s = .done st p b s') : exec i s = .next (answer t st p b s') := by
  rw [exec_takes hi hc h, hb]
  rfl

/-- Outside a freeze, such a command whose body asks for a store opens it. -/
theorem exec_store {ch : Change} (hi : exec i s = .next (runCmd row body t s)) (hc : row.clocks = false) (h : Takes row t c s)
    (hf : s.hw.frozen = false) (hb : body (cmdIn t c s) s = .store ch s) : exec i s = .next (openStore ch (some t) s) := by
  rw [exec_takes hi hc h, hb]
  exact congrArg Host.Outcome.next (storeFor_asks hf ch)

/-! ### Records of a bank by number -/

@[simp] theorem getElem_vmod_self {α : Type} {n : Nat} (v : Vector α n) (k : Fin n) (f : α → α) : (vmod v k f)[k.val] = f v[k.val] :=
  vmod_get_self v k f

theorem getElem_vmod_of_ne {α : Type} {n : Nat} (v : Vector α n) {k j : Fin n} (f : α → α) (h : j ≠ k) : (vmod v k f)[j] = v[j] :=
  vmod_get_other v k j f h.symm

/-! ### Numbers and fields of a payload -/

/-- Circuit or port k + 1 is index k. -/
theorem num24_succ (k : Fin 24) : num24 (k.val + 1) = some k := by
  have hk := k.isLt
  simp only [num24, Nat.add_sub_cancel]
  rw [if_pos (by omega)]
  exact congrArg some (Fin.ext (Nat.mod_eq_of_lt hk))

theorem num24_none {n : Nat} (h : n = 0 ∨ 24 < n) : num24 n = none := if_neg (by omega)

theorem leNat_take_succ (l : List Byte) (m : Nat) :
    leNat (l.take (m + 1)) = (l.getD 0 0).toNat + 256 * leNat (l.tail.take m) := by
  cases l <;> simp [leNat]

/-- The first m bytes as a number depend only on those bytes, where a missing byte counts as 0. -/
theorem leNat_take_congr {m : Nat} {l l' : List Byte} (h : ∀ i < m, l.getD i 0 = l'.getD i 0) :
    leNat (l.take m) = leNat (l'.take m) := by
  induction m generalizing l l' with
  | zero => rfl
  | succ m ih =>
    have ht : ∀ i < m, l.tail.getD i 0 = l'.tail.getD i 0 := fun i hi => by
      simpa [List.getD_eq_getElem?_getD] using h (i + 1) (by omega)
    rw [leNat_take_succ, leNat_take_succ, h 0 (by omega), ih ht]

theorem getD_sliceAt (bs : List Byte) {off n i : Nat} (h : i < n) : (sliceAt bs off n).getD i 0 = bs.getD (off + i) 0 := by
  by_cases hb : off + i < bs.length
  · rw [sliceAt, List.getD_append _ _ _ _ (by simp; omega)]
    simp [List.getD_eq_getElem?_getD, h]
  · rw [sliceAt, List.getD_append_right _ _ _ _ (by simp; omega), List.getD_eq_default bs 0 (by omega)]
    simp [List.getD_eq_getElem?_getD, List.getElem?_replicate]
    split <;> rfl

/-- A field inside a slice is the field of the whole. -/
theorem leAt_sliceAt (bs : List Byte) {off n a m : Nat} (h : a + m ≤ n) : leAt (sliceAt bs off n) a m = leAt bs (off + a) m := by
  refine leNat_take_congr fun i hi => ?_
  have := getD_sliceAt bs (off := off) (n := n) (i := a + i) (by omega)
  simpa [List.getD_eq_getElem?_getD, Nat.add_assoc] using this

end Sys2Proof.Machine
end

section
/-! The calibration transactions: their targets, and how CAL_LOAD decides (R33, R34, R124, R133, R320). -/

namespace Sys2Proof.Machine

variable {t : Fin 64} {c : Cmd} {s : State} {g : CalTarget} {u : Txn}

/-! ### The target of a command -/

theorem calTarget_of_names (h : NamesTarget c g) : calTarget (cmdIn t c s) = some g := by
  cases g with
  | cir k =>
    obtain ⟨hk, hn⟩ := h
    simp [calTarget, hk, hn, num24_succ]
  | vset b =>
    obtain ⟨hk, hn⟩ := h
    cases b <;> simp [calTarget, hk, hn, bitN]

/-- A command on a target without a transaction hears NO_TXN. -/
theorem withTxn_none {f : Txn → Reply} (h : findTxn s g = none) : withTxn g s f = fail .noTxn s := by
  simp [withTxn, h]

/-- A command on a transaction that the device has not aborted works on it. -/
theorem withTxn_some {f : Txn → Reply} (h : findTxn s g = some u) (hs : u.st ≠ .stale) : withTxn g s f = f u := by
  simp [withTxn, h, hs]

/-! ### CAL_LOAD: what the load carries -/

/-- Each coefficient that MASK selects comes with its complement (R124, R133). -/
abbrev loadPairs (c : Cmd) : Prop :=
  ((payField c 3 1).testBit 0 = true → payField c 4 3 + payField c 7 3 = 0xFFFFFF) ∧
  ((payField c 3 1).testBit 1 = true → payField c 10 2 + payField c 12 2 = 0xFFFF) ∧
  ((payField c 3 1).testBit 2 = true → payField c 14 3 + payField c 17 3 = 0xFFFFFF)

/-- The selected gain and phase lie in their ranges (R33). -/
abbrev loadRanges (c : Cmd) : Prop :=
  ((payField c 3 1).testBit 0 = true → 0x300000 ≤ payField c 4 3 ∧ payField c 4 3 ≤ 0x500000) ∧
  ((payField c 3 1).testBit 1 = true → (BitVec.ofNat 16 (payField c 10 2)).toInt.natAbs ≤ 4096)

theorem all_maskCoefs (m : Nat) (f : Nat → Bool) :
    (maskCoefs m).all f = true ↔
      (m.testBit 0 = true → f 0 = true) ∧ (m.testBit 1 = true → f 1 = true) ∧ (m.testBit 2 = true → f 2 = true) := by
  simp only [maskCoefs, List.all_filter, List.range_succ, List.range_zero, List.nil_append, List.all_append, List.all_cons, List.all_nil,
    Bool.and_true, Bool.and_eq_true, Bool.or_eq_true, Bool.not_eq_true', and_assoc]
  cases m.testBit 0 <;> cases m.testBit 1 <;> cases m.testBit 2 <;> simp

/-- A field of RECORD is a field of the payload, four bytes on. -/
theorem record_field {off n : Nat} (h : off + n ≤ 16) : leAt (sliceAt (dPayload c.desc) 4 16) off n = payField c (4 + off) n :=
  leAt_sliceAt _ h

theorem loadPairs_iff :
    (maskCoefs (payField c 3 1)).all (fun k => pairOk (coefAt k).2 (sliceAt (dPayload c.desc) 4 16) (coefAt k).1) = true ↔
      loadPairs c := by
  rw [all_maskCoefs]
  simp [pairOk, coefAt, record_field]

theorem loadRanges_iff :
    (maskCoefs (payField c 3 1)).all (fun k => coefOk k (leAt (sliceAt (dPayload c.desc) 4 16) (coefAt k).1 (coefAt k).2)) = true ↔
      loadRanges c := by
  rw [all_maskCoefs]
  simp [coefOk, coefAt, record_field, sgnBits]

/-! ### CAL_LOAD: how it ends -/

theorem runCalLoad_complement (h : ¬ loadPairs c) : runCalLoad (cmdIn t c s) s = fail .complement s := by
  have hp := mt loadPairs_iff.1 h
  simp only [runCalLoad, p1_cmdIn]
  exact if_pos (by simpa [cmdIn] using hp)

/-- Behind the pairs, a value out of its range is refused for whatever channel and target. -/
theorem runCalLoad_range (hp : loadPairs c) (hr : ¬ loadRanges c) : runCalLoad (cmdIn t c s) s = fail .range s := by
  have hp := loadPairs_iff.2 hp
  have hr := mt loadRanges_iff.1 hr
  simp only [Bool.not_eq_true] at hr
  have hpay : (cmdIn t c s).pay = dPayload c.desc := rfl
  simp only [runCalLoad, p1_cmdIn, hpay, hp, hr]
  simp

section
variable (hp : loadPairs c) (hr : loadRanges c) (hg : NamesTarget c g) (hu : findTxn s g = some u) (ho : u.st = .opened)
  {p : Fin 24} (hch : payField c 2 1 = p.val + 1) (hm : payField c 3 1 < 8)
include hp hr hg hu ho hch hm

/-- A good load on an open transaction: all that is left to decide is whether the transaction covers the channel. -/
theorem runCalLoad_good :
    runCalLoad (cmdIn t c s) s =
      if u.chans.getLsbD p.val then
        okWith [] (if payField c 3 1 = 0 then loadShadow (Fin.ofNat 32 p.val) (sliceAt (dPayload c.desc) 4 16) (payField c 3 1) s
          else modTxn g (fun u => { u with loaded := u.loaded ||| BitVec.ofNat 32 (2 ^ p.val) })
            (loadShadow (Fin.ofNat 32 p.val) (sliceAt (dPayload c.desc) 4 16) (payField c 3 1) s))
      else fail .range s := by
  have hp := loadPairs_iff.2 hp
  have hr := loadRanges_iff.2 hr
  have hpay : (cmdIn t c s).pay = dPayload c.desc := rfl
  have hlt := p.isLt
  have hok : ¬ (7 < payField c 3 1 ∨ p.val + 1 < 1 ∨ 32 < p.val + 1 ∨ (!true) = true) := by simp; omega
  simp only [runCalLoad, p1_cmdIn, hpay, hp, hr, hch, if_neg hok, calTarget_of_names hg, withTxn_some hu (by rw [ho]; decide), ho]
  cases hc : u.chans.getLsbD p.val <;> simp only [Nat.add_sub_cancel, hc] <;> rfl

end

/-! ### CAL_LOAD: what a good one writes -/

/-- A transaction is found as it stands after a change that keeps its target. -/
theorem findTxn_modTxn {f : Txn → Txn} (hf : ∀ x, (f x).target = x.target) : findTxn (modTxn g f s) g = (findTxn s g).map f := by
  simp only [findTxn, modTxn, State.modCal_cal, List.find?_map]
  have hpred : ((fun u => decide (u.target = g)) ∘ fun u => if u.target = g then f u else u) = fun u => decide (u.target = g) := by
    funext x
    by_cases hx : x.target = g <;> simp [hx, hf]
  rw [hpred]
  cases hfind : s.cal.txns.find? (fun u => decide (u.target = g)) with
  | none => rfl
  | some x =>
    have hx : x.target = g := by simpa using List.find?_some hfind
    simp [hx]

theorem chanSplit_port (p : Fin 24) : chanSplit (Fin.ofNat 32 p.val) = .inl p := by
  have hp := p.isLt
  have hv : (Fin.ofNat 32 p.val).val = p.val := Nat.mod_eq_of_lt (by omega)
  rw [chanSplit, hv, if_pos hp]
  exact congrArg Sum.inl (Fin.ext (Nat.mod_eq_of_lt hp))

/-- The selected coefficients of RECORD stand in the shadow record, the others as before. -/
theorem foldl_putCoef_val (r : List Byte) (m : Nat) (x : CalPair) :
    ((maskCoefs m).foldl (fun x k => putCoef r k x) x).val = {
      gain := if m.testBit 0 then BitVec.ofNat 24 (leAt r 0 3) else x.val.gain,
      phase := if m.testBit 1 then BitVec.ofNat 16 (leAt r 6 2) else x.val.phase,
      offset := if m.testBit 2 then BitVec.ofNat 24 (leAt r 10 3) else x.val.offset } := by
  simp only [maskCoefs, List.range_succ, List.range_zero, List.nil_append, List.filter_append, List.filter_cons, List.filter_nil]
  cases m.testBit 0 <;> cases m.testBit 1 <;> cases m.testBit 2 <;> simp [putCoef, coefAt]

/-- Settles O17: R34 read off the order of the load's own checks, pairs first and ranges next. -/
theorem coefficientsOutOfRangeAreRefused : Obligations.CoefficientsOutOfRangeAreRefused := by
  intro t c s h m h0 h1 h2
  have range (hr : ¬ loadRanges c) : exec (.calLoad t) s = .next (answer t .range [] [] s) :=
    exec_done (body := runCalLoad) rfl rfl h (runCalLoad_range ⟨h0, h1, h2⟩ hr)
  refine ⟨fun hb hv => range fun ⟨hg, _⟩ => ?_, fun hb hv => range fun ⟨_, hph⟩ => ?_, by simp, by simp, by simp⟩
  · have := hg hb
    omega
  · have := hph hb
    omega

end Sys2Proof.Machine
end

section
/-! The calibration transactions at work: CAL_OPEN, CAL_LOAD, CAL_STATUS and CAL_ABORT (R33, R124, R131 to R133, R138, R140, R320). -/

namespace Sys2Proof.Machine

variable {t : Fin 64} {c : Cmd} {s : State} {g : CalTarget} {u : Txn}

/-! ### CAL_LOAD: the state after a good one -/

/-- A port whose shadow record has taken the selected coefficients of a load. -/
def loadedPort (c : Cmd) (r : Port) : Port :=
  { r with shadow := (maskCoefs (payField c 3 1)).foldl (fun x k => putCoef (sliceAt (dPayload c.desc) 4 16) k x) r.shadow }

/-- A transaction that has had a channel loaded. -/
def loadedTxn (p : Fin 24) (u : Txn) : Txn := { u with loaded := u.loaded ||| BitVec.ofNat 32 (2 ^ p.val) }

/-- The state after a good load of a port. -/
def loadedState (g : CalTarget) (p : Fin 24) (c : Cmd) (s : State) : State := modTxn g (loadedTxn p) (s.modPort p (loadedPort c))

theorem runCalLoad_loads (hp : loadPairs c) (hr : loadRanges c) (hg : NamesTarget c g) (hu : findTxn s g = some u) (ho : u.st = .opened)
    {p : Fin 24} (hch : payField c 2 1 = p.val + 1) (hm : payField c 3 1 < 8) (hcov : u.chans.getLsbD p.val = true)
    (hne : payField c 3 1 ≠ 0) : runCalLoad (cmdIn t c s) s = okWith [] (loadedState g p c s) := by
  rw [runCalLoad_good hp hr hg hu ho hch hm, if_pos hcov, if_neg hne]
  simp only [loadShadow, chanSplit_port]
  rfl

theorem findTxn_loadedState (p : Fin 24) (hu : findTxn s g = some u) : findTxn (loadedState g p c s) g = some (loadedTxn p u) := by
  rw [loadedState, findTxn_modTxn (f := loadedTxn p) fun _ => rfl]
  exact congrArg (Option.map (loadedTxn p)) hu

theorem loadedState_port (p : Fin 24) : (loadedState g p c s).ports[p] = loadedPort c s.ports[p] := vmod_get_self _ _ _

theorem loadedState_port_of_ne {p q : Fin 24} (h : q ≠ p) : (loadedState g p c s).ports[q] = s.ports[q] := getElem_vmod_of_ne _ _ h

theorem loadedPort_shadow (r : Port) :
    (loadedPort c r).shadow.val = {
      gain := if (payField c 3 1).testBit 0 then BitVec.ofNat 24 (payField c 4 3) else r.shadow.val.gain,
      phase := if (payField c 3 1).testBit 1 then BitVec.ofNat 16 (payField c 10 2) else r.shadow.val.phase,
      offset := if (payField c 3 1).testBit 2 then BitVec.ofNat 24 (payField c 14 3) else r.shadow.val.offset } := by
  have field {off n : Nat} (h : off + n ≤ 16) := record_field (c := c) h
  rw [loadedPort, foldl_putCoef_val, field (by decide), field (by decide), field (by decide)]

/-! ### CAL_OPEN -/

/-- The transaction that CAL_OPEN begins. -/
def openedTxn (s : State) (g : CalTarget) : Txn :=
  { target := g, chans := targetChans s g, loaded := 0, st := .opened, cnt := 0, left := 0, pqLeft := false }

/-- The state after CAL_OPEN: the new transaction in place of a finished one, and the active records in the shadow banks. -/
def openedState (s : State) (g : CalTarget) : State :=
  openShadow (targetChans s g) ((dropTxn g s).modCal (fun k => { k with txns := k.txns ++ [openedTxn s g] }))

theorem runCalOpen_opens (hg : NamesTarget c g) (hfree : ∀ u ∈ s.cal.txns, u.target = g → u.st = .done ∨ u.st = .stale)
    (hroom : (s.cal.txns.filter liveTxn).length < 4) :
    runCalOpen (cmdIn t c s) s = okWith (leBytes 4 (targetChans s g).toNat) (openedState s g) := by
  have hnone : s.cal.txns.any (fun u => liveTxn u && decide (u.target = g)) = false := by
    refine List.any_eq_false.2 fun u hu hlive => ?_
    simp only [liveTxn, Bool.and_eq_true, decide_eq_true_eq] at hlive
    obtain ⟨⟨hdone, hstale⟩, htarget⟩ := hlive
    exact (hfree u hu htarget).elim hdone hstale
  simp only [runCalOpen, calTarget_of_names hg, hnone, Bool.false_or, decide_eq_true_eq]
  exact if_neg (by omega)

theorem runCalOpen_busy (hg : NamesTarget c g)
    (h : (∃ u ∈ s.cal.txns, u.target = g ∧ u.st ≠ .done ∧ u.st ≠ .stale) ∨ 4 ≤ (s.cal.txns.filter liveTxn).length) :
    runCalOpen (cmdIn t c s) s = fail .busy s := by
  simp only [runCalOpen, calTarget_of_names hg]
  refine if_pos (Bool.or_eq_true_iff.2 (h.imp (fun ⟨u, hu, htarget, hdone, hstale⟩ => ?_) decide_eq_true))
  exact List.any_eq_true.2 ⟨u, hu, by simp [liveTxn, hdone, hstale, htarget]⟩

theorem findTxn_openedState : findTxn (openedState s g) g = some (openedTxn s g) := by
  have hold : (s.cal.txns.filter (fun u => decide (u.target ≠ g))).find? (fun u => decide (u.target = g)) = none :=
    List.find?_eq_none.2 fun u hu => by simpa using (List.mem_filter.1 hu).2
  simp only [findTxn, openedState, openShadow, dropTxn, State.modCal_cal, List.find?_append, hold]
  simp [openedTxn]

theorem openedState_ports (p : Fin 24) :
    (openedState s g).ports[p] =
      if (targetChans s g).getLsbD p.val then { s.ports[p] with shadow := withComplement (s.ports[p]).cal } else s.ports[p] := by
  simp [openedState, openShadow, dropTxn]

theorem openedState_volts (v : Fin 8) :
    (openedState s g).volts[v] =
      if (targetChans s g).getLsbD (24 + v.val) then { s.volts[v] with shadow := withComplement (s.volts[v]).cal } else s.volts[v] := by
  simp [openedState, openShadow, dropTxn]

/-! ### The transactions at work -/

theorem calOpen_works (h : Takes rowCalOpen t c s) (hg : NamesTarget c g) :
    ((∀ u ∈ s.cal.txns, u.target = g → u.st = .done ∨ u.st = .stale) → (s.cal.txns.filter liveTxn).length < 4 →
      ∃ s', exec (.calOpen t) s = .next (answer t .ok (leBytes 4 (targetChans s g).toNat) [] s') ∧
        findTxn s' g = some (openedTxn s g) ∧
        (∀ p : Fin 24, (s'.ports[p]).cal = (s.ports[p]).cal ∧ (s'.ports[p]).shadow =
          if (targetChans s g).getLsbD p.val then withComplement (s.ports[p]).cal else (s.ports[p]).shadow) ∧
        (∀ v : Fin 8, (s'.volts[v]).cal = (s.volts[v]).cal ∧ (s'.volts[v]).shadow =
          if (targetChans s g).getLsbD (24 + v.val) then withComplement (s.volts[v]).cal else (s.volts[v]).shadow)) ∧
    ((∃ u ∈ s.cal.txns, u.target = g ∧ u.st ≠ .done ∧ u.st ≠ .stale) ∨ 4 ≤ (s.cal.txns.filter liveTxn).length →
      exec (.calOpen t) s = .next (answer t .busy [] [] s)) := by
  refine ⟨fun hfree hroom => ⟨openedState s g, exec_done (body := runCalOpen) rfl rfl h (runCalOpen_opens hg hfree hroom),
    findTxn_openedState, fun p => ?_, fun v => ?_⟩, fun hbusy => exec_done (body := runCalOpen) rfl rfl h (runCalOpen_busy hg hbusy)⟩
  · rw [openedState_ports]
    split <;> simp
  · rw [openedState_volts]
    split <;> simp

theorem calStatus_reads (h : Takes rowCalStatus t c s) (hg : NamesTarget c g) :
    (∀ u, findTxn s g = some u → u.st ≠ .stale → exec (.calStatus t) s = .next (answer t .ok
      (leBytes 1 (txnCode u.st) ++ leBytes 3 0 ++ leBytes 4 u.loaded.toNat ++ leBytes 4 u.cnt.toNat) [] s)) ∧
    (findTxn s g = none → exec (.calStatus t) s = .next (answer t .noTxn [] [] s)) := by
  refine ⟨fun u hu hs => exec_done (body := runCalStatus) rfl rfl h ?_, fun hn => exec_done (body := runCalStatus) rfl rfl h ?_⟩
  · simp only [runCalStatus, calTarget_of_names hg, withTxn_some hu hs, okWith]
  · simp only [runCalStatus, calTarget_of_names hg, withTxn_none hn, fail]

theorem calAbort_works (h : Takes rowCalAbort t c s) (hg : NamesTarget c g) :
    (∀ u, findTxn s g = some u → u.st = .opened → (∀ r ∈ s.firn.reqs, r.change ≠ .calCommit g) →
      exec (.calAbort t) s = .next (answer t .ok [] [] (dropTxn g s))) ∧
    (∀ u, findTxn s g = some u → u.st = .deferred ∨ u.st = .storing ∨ u.st = .armed →
      exec (.calAbort t) s = .next (answer t .busy [] [] s)) ∧
    (findTxn s g = none → exec (.calAbort t) s = .next (answer t .noTxn [] [] s)) := by
  refine ⟨fun u hu ho hq => exec_done (body := runCalAbort) rfl rfl h ?_, fun u hu hw => exec_done (body := runCalAbort) rfl rfl h ?_,
    fun hn => exec_done (body := runCalAbort) rfl rfl h ?_⟩
  · have hreq : s.firn.reqs.any (fun r => decide (r.change = .calCommit g)) = false :=
      List.any_eq_false.2 fun r hr => by simpa using hq r hr
    simp [runCalAbort, calTarget_of_names hg, withTxn_some hu (by rw [ho]; decide), ho, hreq, okWith]
  · have hst : u.st ≠ .opened ∧ u.st ≠ .stale := by
      rcases hw with hw | hw | hw <;> rw [hw] <;> decide
    simp [runCalAbort, calTarget_of_names hg, withTxn_some hu hst.2, hst.1, fail]
  · simp only [runCalAbort, calTarget_of_names hg, withTxn_none hn, fail]

/-- Settles O16: each command reads its transaction, and CAL_LOAD checks pairs, then ranges, then coverage, before it writes. -/
theorem calTransactionsWork : Obligations.CalTransactionsWork := by
  refine ⟨fun t c s g hg => ⟨fun h => calOpen_works h hg, fun h => ?_, fun h => calAbort_works h hg⟩,
    fun t c s g u p h hg hu ho hch hm => ?_⟩
  · obtain ⟨hok, hnone⟩ := calStatus_reads h hg
    refine ⟨fun u hu hs => (hok u hu hs).trans ?_, hnone⟩
    cases hst : u.st with
    | stale => exact absurd hst hs
    | _ => simp only [txnCode]
  · have ends {st : Status} {pl b : List Byte} {s' : State} (hb : runCalLoad (cmdIn t c s) s = .done st pl b s') :
        exec (.calLoad t) s = .next (answer t st pl b s') := exec_done (body := runCalLoad) rfl rfl h hb
    refine ⟨fun hp hr hcov hne => ?_, fun hp => ends (runCalLoad_complement hp), fun hp hr => ends (runCalLoad_range hp hr),
      fun hp hr hcov => ends ?_⟩
    · refine ⟨loadedState g p c s, loadedTxn p u, ends (runCalLoad_loads hp hr hg hu ho hch hm hcov hne), findTxn_loadedState p hu, rfl,
        ?_, ?_, fun q hq => loadedState_port_of_ne hq, rfl⟩
      · rw [loadedState_port, loadedPort_shadow]
      · rw [loadedState_port, loadedPort]
    · rw [runCalLoad_good hp hr hg hu ho hch hm, hcov]
      rfl

end Sys2Proof.Machine
end

section
/-! The circuits group (R30, R50 to R56, R64, R77, R317 to R319). -/

namespace Sys2Proof.Machine

variable {t : Fin 64} {c : Cmd} {s : State}

/-! ### Readings -/

theorem runCirRead_some {k : Fin 24} (hk : payField c 0 1 = k.val + 1) :
    runCirRead (cmdIn t c s) s = okWith (cirReadPayload s.circuits[k]) s := by
  simp only [runCirRead, p1_cmdIn, hk, num24_succ]

theorem runCirRead_none (h : payField c 0 1 = 0 ∨ 24 < payField c 0 1) : runCirRead (cmdIn t c s) s = fail .range s := by
  simp only [runCirRead, p1_cmdIn, num24_none h]

theorem runPortStatus_some {p : Fin 24} (hp : payField c 0 1 = p.val + 1) :
    runPortStatus (cmdIn t c s) s = okWith (portStatusPayload s.ports[p]) (s.modPort p (fun r => { r with rejects := 0, switches := 0 })) := by
  simp only [runPortStatus, p1_cmdIn, hp, num24_succ]

theorem runPortStatus_none (h : payField c 0 1 = 0 ∨ 24 < payField c 0 1) : runPortStatus (cmdIn t c s) s = fail .range s := by
  simp only [runPortStatus, p1_cmdIn, num24_none h]

/-! ### CIR_MAP_WRITE -/

theorem runCirMap_stores (hok : mapOk s (bulkOf c s) = true) (hs : s.sec.state = .sealed → sealedMapOk s (bulkOf c s) = true) :
    runCirMap (cmdIn t c s) s = .store (.cirMap (mapCirs (bulkOf c s)) (mapPorts (bulkOf c s))) s := by
  have hn : ¬ (s.sec.state = .sealed ∧ (!sealedMapOk s (bulkOf c s)) = true) := fun ⟨h1, h2⟩ => by simp [hs h1] at h2
  simp only [runCirMap, cmdIn_bulk, if_neg hn, if_pos hok]

theorem runCirMap_sealed (hs : s.sec.state = .sealed) (hn : sealedMapOk s (bulkOf c s) = false) :
    runCirMap (cmdIn t c s) s = fail .sealed s := by
  simp only [runCirMap, cmdIn_bulk, hs, hn, Bool.not_false, and_self, if_true]

theorem runCirMap_range (hs : s.sec.state ≠ .sealed) (hn : mapOk s (bulkOf c s) = false) :
    runCirMap (cmdIn t c s) s = fail .range s := by
  simp only [runCirMap, cmdIn_bulk, hs, hn, false_and, if_false, Bool.false_eq_true]

/-! ### CIR_SCALE -/

section
variable {k : Fin 24} (hk : payField c 0 1 = k.val + 1)
include hk

theorem runCirScale_stores (h1 : payField c 1 1 = 1) (hok : scaleOk s k (payField c 4 4) (payField c 12 6) = true) :
    runCirScale (cmdIn t c s) s =
      .store (.cirScaleLog k (BitVec.ofNat 32 (payField c 4 4)) (BitVec.ofNat 48 (payField c 12 6))) s := by
  simp [runCirScale, hk, num24_succ, h1, hok]

theorem runCirScale_range (h : 1 < payField c 1 1 ∨ (payField c 1 1 = 1 ∧ scaleOk s k (payField c 4 4) (payField c 12 6) = false)) :
    runCirScale (cmdIn t c s) s = fail .range s := by
  rcases h with h | ⟨h, hno⟩
  · simp [runCirScale, hk, num24_succ, h]
  · simp [runCirScale, hk, num24_succ, h, hno]

theorem runCirScale_same (h0 : payField c 1 1 = 0) (hq : payField c 4 4 = (s.circuits[k]).quantumW.toNat)
    (hp : payField c 12 6 = (s.circuits[k]).pfsW.toNat) : runCirScale (cmdIn t c s) s = okWith (leBytes 4 s.cal.cnt.toNat) s := by
  simp [runCirScale, hk, num24_succ, h0, hq, hp]

theorem runCirScale_differs (h0 : payField c 1 1 = 0)
    (h : payField c 4 4 ≠ (s.circuits[k]).quantumW.toNat ∨ payField c 12 6 ≠ (s.circuits[k]).pfsW.toNat) :
    runCirScale (cmdIn t c s) s = fail .range s := by
  have hn : ¬ (payField c 4 4 = (s.circuits[k]).quantumW.toNat ∧ payField c 12 6 = (s.circuits[k]).pfsW.toNat) := by tauto
  simp only [runCirScale, p1_cmdIn, p4_cmdIn, p6_cmdIn, hk, num24_succ, h0, if_neg hn]
  simp

/-! ### CIR_LIMITS -/

theorem runCirLimits_stores (h1 : 10 ≤ payField c 1 1) (h2 : payField c 1 1 ≤ 200) :
    runCirLimits (cmdIn t c s) s = .store (.cirLimits k (BitVec.ofNat 8 (payField c 1 1))
      { p := BitVec.ofNat 32 (payField c 4 4), q := BitVec.ofNat 32 (payField c 8 4), s := BitVec.ofNat 32 (payField c 12 4) }) s := by
  simp only [runCirLimits, p1_cmdIn, p4_cmdIn, hk, num24_succ, if_pos (And.intro h1 h2)]

theorem runCirLimits_range (h : payField c 1 1 < 10 ∨ 200 < payField c 1 1) : runCirLimits (cmdIn t c s) s = fail .range s := by
  have hn : ¬ (10 ≤ payField c 1 1 ∧ payField c 1 1 ≤ 200) := by omega
  simp only [runCirLimits, p1_cmdIn, hk, num24_succ, if_neg hn]

end

/-- No enabled CF output of a circuit: every scale keeps within R87. -/
theorem cfsFit_of_unused {k : Fin 24} (h : ∀ o : Fin 8, cfEn (s.cfs[o]).cfgW = false ∨ cfCir (s.cfs[o]).cfgW ≠ some k) (w : Word)
    (ke : BitVec 64) : cfsFit s k w ke = true := by
  refine List.all_eq_true.2 fun o _ => ?_
  rcases h o with h | h <;> simp_all

/-- Settles O15: every command of the group is one pass through the branches of its body. -/
theorem circuitCommandsTakeEffect : Obligations.CircuitCommandsTakeEffect := by
  refine ⟨fun t c s => ⟨fun k h hk => ?_, fun p h hp => ?_, fun h hn => ?_, fun h hn => ?_⟩,
    fun t c s hf => ⟨fun h => ⟨fun hok hs => ?_, fun hs hn => ?_, fun hs hn => ?_⟩,
      fun k h hk => ⟨fun h1 hq hq' hp hr hcf => ?_, fun h1 hok => ?_, fun hr => ?_, fun h0 hq hp => ?_, fun h0 hd => ?_⟩,
      fun k h hk => ⟨fun h1 h2 => ?_, fun hr => ?_⟩⟩⟩
  · exact exec_done (body := runCirRead) rfl rfl h (runCirRead_some hk)
  · exact exec_done (body := runPortStatus) rfl rfl h (runPortStatus_some hp)
  · exact exec_done (body := runCirRead) rfl rfl h (runCirRead_none hn)
  · exact exec_done (body := runPortStatus) rfl rfl h (runPortStatus_none hn)
  · exact exec_store (body := runCirMap) rfl rfl h hf (runCirMap_stores hok hs)
  · exact exec_done (body := runCirMap) rfl rfl h (runCirMap_sealed hs hn)
  · exact exec_done (body := runCirMap) rfl rfl h (runCirMap_range hs hn)
  · refine exec_store (body := runCirScale) rfl rfl h hf (runCirScale_stores hk h1 ?_)
    simp only [scaleOk, hq, hq', hp, hr, cfsFit_of_unused hcf, decide_true, Bool.and_self]
  · exact exec_store (body := runCirScale) rfl rfl h hf (runCirScale_stores hk h1 hok)
  · exact exec_done (body := runCirScale) rfl rfl h (runCirScale_range hk hr)
  · exact exec_done (body := runCirScale) rfl rfl h (runCirScale_same hk h0 hq hp)
  · exact exec_done (body := runCirScale) rfl rfl h (runCirScale_differs hk h0 hd)
  · exact exec_store (body := runCirLimits) rfl rfl h hf (runCirLimits_stores hk h1 h2)
  · exact exec_done (body := runCirLimits) rfl rfl h (runCirLimits_range hk hr)

end Sys2Proof.Machine
end

section
/-! The reports of the calibration and Tracer group, and the writes of the Tracer (R26, R127, R129, R146, R153 to R158, R320). -/

namespace Sys2Proof.Machine

variable {t : Fin 64} {c : Cmd} {s : State}

/-! ### CAL_READ -/

theorem chanSplit_volt (v : Fin 8) : chanSplit (Fin.ofNat 32 (v.val + 24)) = .inr v := by
  have hv := v.isLt
  have hn : (Fin.ofNat 32 (v.val + 24)).val = v.val + 24 := Nat.mod_eq_of_lt (by omega)
  rw [chanSplit, hn, if_neg (by omega), Nat.add_sub_cancel]
  exact congrArg Sum.inr (Fin.ext (Nat.mod_eq_of_lt hv))

theorem activeRec_port (p : Fin 24) : activeRec s (Fin.ofNat 32 p.val) = (s.ports[p]).cal := by
  simp only [activeRec, chanSplit_port]

theorem activeRec_volt (v : Fin 8) : activeRec s (Fin.ofNat 32 (v.val + 24)) = (s.volts[v]).cal := by
  simp only [activeRec, chanSplit_volt]

theorem runCalRead_channel {n : Nat} (hn : payField c 0 1 = n + 1) (hlt : n < 32) :
    runCalRead (cmdIn t c s) s = okWith (calPairBytes (withComplement (activeRec s (Fin.ofNat 32 n)))) s := by
  simp only [runCalRead, p1_cmdIn, hn, Nat.add_sub_cancel]
  exact if_pos (by omega)

/-! ### LOG_READ -/

/-- FIRST of LOG_READ; 0 asks for the oldest entry held. -/
abbrev logFirst (c : Cmd) (s : State) : Nat := if payField c 0 4 = 0 then (heldCnts s).headD 0 else payField c 0 4

/-- The entries that LOG_READ returns, and the last number it looks at. -/
abbrev logOut (c : Cmd) (s : State) : List Nat := ((heldCnts s).filter (fun n => decide (logFirst c s ≤ n))).take (payField c 4 1)
abbrev logLast (c : Cmd) (s : State) : Nat :=
  if (logOut c s).length < payField c 4 1 then s.cal.cnt.toNat else (logOut c s).getLastD 0

/-- A history page among those looked at cannot be read. -/
def logGap (c : Cmd) (s : State) : Bool :=
  (histCnts s).any (fun n => decide (logFirst c s ≤ n) && decide (n ≤ logLast c s) && pageLost s.firn (histPage n) &&
    !pageBlank s.firn (histPage n))

theorem runLogRead_eq (h1 : 1 ≤ payField c 4 1) (h2 : payField c 4 1 ≤ 128) :
    runLogRead (cmdIn t c s) s =
      if logGap c s then fail .pageLost s
      else .done .ok (leBytes 2 (heldCnts s).length ++ leBytes 2 0 ++ leBytes 4 ((logOut c s).headD 0))
        ((logOut c s).flatMap (fun n => (histEntry s.firn n).getD [])) s := by
  simp only [runLogRead, p1_cmdIn, p4_cmdIn]
  rw [if_neg (by omega)]
  rfl

theorem logGap_eq_false (h : ∀ n ∈ histCnts s, logFirst c s ≤ n → n ≤ logLast c s → pageLost s.firn (histPage n) = true →
    pageBlank s.firn (histPage n) = true) : logGap c s = false := by
  refine List.any_eq_false.2 fun n hn hg => ?_
  simp only [Bool.and_eq_true, decide_eq_true_eq, Bool.not_eq_true'] at hg
  obtain ⟨⟨⟨hfirst, hlast⟩, hlost⟩, hblank⟩ := hg
  exact absurd (h n hn hfirst hlast hlost) (by simp [hblank])

theorem logGap_eq_true {n : Nat} (hn : n ∈ histCnts s) (hfirst : logFirst c s ≤ n) (hlast : n ≤ logLast c s)
    (hlost : pageLost s.firn (histPage n) = true) (hblank : pageBlank s.firn (histPage n) = false) : logGap c s = true :=
  List.any_eq_true.2 ⟨n, hn, by simp only [hfirst, hlast, hlost, hblank, decide_true, Bool.not_false, Bool.and_self]⟩

/-! ### MATCH_ACQUIRE -/

theorem mem_maskPorts {m : Nat} {p : Fin 24} : p ∈ maskPorts m ↔ m.testBit p.val = true := by
  simp [maskPorts, fins]

/-- The matching loop of a port: its state and its computed values. -/
def loopOf (r : Port) : MatchState × Word × Word := (r.mstate, r.gCalc, r.dCalc)

/-- A loop that acquires anew from the factory trim values (R26). -/
def freshLoop : MatchState × Word × Word := (.acquire, 0x40000000, 0)

@[simp] theorem loopOf_acquirePort (r : Port) : loopOf (acquirePort r) = freshLoop := rfl
@[simp] theorem loopOf_takeTrim (r : Port) : loopOf (takeTrim r) = loopOf r := rfl
@[simp] theorem loopOf_tracerStart (r : Port) : loopOf (tracerStart r) = loopOf r := rfl

@[simp] theorem loopOf_applyPortCfg (n : Nat) (r : Port) : loopOf (applyPortCfg n r) = loopOf r := by
  simp only [applyPortCfg]
  split <;> rfl

/-- A change of one port that keeps its loop keeps every loop. -/
theorem loopOf_modPort {f : Port → Port} (hf : ∀ r, loopOf (f r) = loopOf r) (p q : Fin 24) :
    loopOf (s.modPort p f).ports[q] = loopOf s.ports[q] := by
  by_cases h : q = p
  · subst h
    exact (congrArg loopOf (vmod_get_self _ _ _)).trans (hf _)
  · exact congrArg loopOf (getElem_vmod_of_ne _ _ h)

/-- A port's configuration that takes effect leaves every loop alone. -/
theorem loopOf_takePortCfg (n : Nat) (p q : Fin 24) : loopOf (takePortCfg n p s).ports[q] = loopOf s.ports[q] := by
  unfold takePortCfg
  split
  · rfl
  · refine loopOf_modPort (fun r => ?_) p q
    dsimp only
    split <;> simp

theorem loopOf_takeIfFree (p q : Fin 24) : loopOf (takeIfFree p s).ports[q] = loopOf s.ports[q] := by
  unfold takeIfFree
  split
  · rfl
  · rw [loopOf_takePortCfg, loopOf_modPort loopOf_takeTrim]

theorem takePortCfg_port_of_ne (n : Nat) {p q : Fin 24} (h : q ≠ p) : (takePortCfg n p s).ports[q] = s.ports[q] := by
  unfold takePortCfg
  split
  · rfl
  · exact getElem_vmod_of_ne _ _ h

theorem takeIfFree_port_of_ne {p q : Fin 24} (h : q ≠ p) : (takeIfFree p s).ports[q] = s.ports[q] := by
  unfold takeIfFree
  split
  · rfl
  · rw [takePortCfg_port_of_ne _ h]
    exact getElem_vmod_of_ne _ _ h

/-- One port of MATCH_ACQUIRE's mask is set to acquire. -/
def acquireOne (p : Fin 24) (s : State) : State := takeIfFree p (s.modPort p acquirePort)

theorem acquireOne_loop (p : Fin 24) : loopOf (acquireOne p s).ports[p] = freshLoop := by
  rw [acquireOne, loopOf_takeIfFree]
  exact (congrArg loopOf (vmod_get_self _ _ _)).trans (loopOf_acquirePort _)

theorem acquireOne_port_of_ne {p q : Fin 24} (h : q ≠ p) : (acquireOne p s).ports[q] = s.ports[q] := by
  rw [acquireOne, takeIfFree_port_of_ne h]
  exact getElem_vmod_of_ne _ _ h

theorem acquire_port_of_not_mem {l : List (Fin 24)} {q : Fin 24} (h : q ∉ l) : (s.forEach l acquireOne).ports[q] = s.ports[q] := by
  induction l generalizing s with
  | nil => rfl
  | cons p l ih =>
    obtain ⟨hp, hl⟩ := not_or.1 (mt List.mem_cons.2 h)
    exact (ih hl).trans (acquireOne_port_of_ne hp)

theorem acquire_loop_of_mem {l : List (Fin 24)} {q : Fin 24} (h : q ∈ l) : loopOf (s.forEach l acquireOne).ports[q] = freshLoop := by
  induction l generalizing s with
  | nil => cases h
  | cons p l ih =>
    by_cases hl : q ∈ l
    · exact ih hl
    · obtain rfl : q = p := (List.mem_cons.1 h).resolve_right hl
      exact (congrArg loopOf (acquire_port_of_not_mem hl)).trans (acquireOne_loop q)

theorem runMatchAcquire_ok (h : payField c 0 4 < 2 ^ 24) :
    runMatchAcquire (cmdIn t c s) s = okWith [] (s.forEach (maskPorts (payField c 0 4)) acquireOne) := by
  simp only [runMatchAcquire, p4_cmdIn]
  exact if_neg (by omega)

/-! ### TRC_READ and TRC_WRITE -/

theorem runTrcRead_some {p : Fin 24} (hp : payField c 0 1 = p.val + 1) :
    runTrcRead (cmdIn t c s) s = okWith (trcPayload s p) (s.modTracer p (fun r => { r with periods := 0 })) := by
  simp only [runTrcRead, p1_cmdIn, hp, num24_succ]

/-- R_S of a port as TRC_WRITE leaves it: the request's where SEL picks it. -/
abbrev trcRs (c : Cmd) (s : State) (p : Fin 24) : Nat :=
  if (payField c 4 1).testBit 4 then payField c 12 4 else (s.ports[p]).tracer.rsNom.toNat

/-- TRC_WRITE asks for AUTO = 1, and a port of its mask does not allow it (R157). -/
def trcAutoBad (c : Cmd) (s : State) : Bool :=
  (payField c 4 1).testBit 2 && decide (payField c 7 1 = 1) &&
    !(maskPorts (payField c 0 4)).all (fun p => autoOk (trcRs c s p) s.ports[p])

theorem trcRangeOk_of (hm : payField c 0 4 < 2 ^ 24) (hsel : payField c 4 1 < 32) (h5 : payField c 5 1 ≤ 1) (h6 : payField c 6 1 ≤ 7)
    (h7 : payField c 7 1 ≤ 1) (h8 : payField c 8 1 ≤ 15)
    (h3 : (payField c 4 1).testBit 3 = true → 4 ≤ payField c 8 1 ∧ payField c 8 1 ≤ 10)
    (h4 : (payField c 4 1).testBit 4 = true → payField c 12 4 ≤ 94000000) : trcRangeOk (cmdIn t c s) = true := by
  simp only [trcRangeOk, p1_cmdIn, p4_cmdIn, bitB, hm, hsel, h5, h6, h7, h8, decide_true, Bool.and_self, Bool.true_and, Bool.and_eq_true,
    Bool.or_eq_true, Bool.not_eq_true', decide_eq_true_eq]
  exact ⟨(Bool.eq_false_or_eq_true _).symm.imp_right h3, (Bool.eq_false_or_eq_true _).symm.imp_right h4⟩

theorem runTrcWrite_sealed (hs : s.sec.state = .sealed) (h : (payField c 4 1).testBit 2 = true ∨ (payField c 4 1).testBit 4 = true) :
    runTrcWrite (cmdIn t c s) s = fail .sealed s := by
  simp only [runTrcWrite, p1_cmdIn, bitB]
  exact if_pos ⟨hs, h⟩

/-- A write in range that the seal does not forbid: AUTO decides. -/
theorem runTrcWrite_eq (hs : s.sec.state ≠ .sealed ∨ ((payField c 4 1).testBit 2 = false ∧ (payField c 4 1).testBit 4 = false))
    (hr : trcRangeOk (cmdIn t c s) = true) :
    runTrcWrite (cmdIn t c s) s =
      if trcAutoBad c s then fail .range s
      else .store (.trcWrite (BitVec.ofNat 24 (payField c 0 4)) (BitVec.ofNat 5 (payField c 4 1)) (trcFields (cmdIn t c s))
        (BitVec.ofNat 32 (payField c 12 4))) s := by
  have hn : ¬ (s.sec.state = .sealed ∧ ((payField c 4 1).testBit 2 = true ∨ (payField c 4 1).testBit 4 = true)) := by
    rintro ⟨h, hb⟩
    obtain ⟨h2, h4⟩ := hs.resolve_left (not_not.2 h)
    simp [h2, h4] at hb
  simp only [runTrcWrite, p1_cmdIn, p4_cmdIn, bitB, if_neg hn, hr]
  rfl

theorem trcAutoBad_eq_false (h : (payField c 4 1).testBit 2 = true → payField c 7 1 = 1 →
    ∀ p ∈ maskPorts (payField c 0 4), autoOk (trcRs c s p) (s.ports[p]) = true) : trcAutoBad c s = false := by
  by_cases hb : (payField c 4 1).testBit 2 = true ∧ payField c 7 1 = 1
  · have hall := List.all_eq_true.2 (h hb.1 hb.2)
    simp only [trcAutoBad, hall, Bool.not_true, Bool.and_false]
  · have hn : ((payField c 4 1).testBit 2 && decide (payField c 7 1 = 1)) = false := by simpa using hb
    simp only [trcAutoBad, hn, Bool.false_and]

theorem trcAutoBad_eq_true (hb : (payField c 4 1).testBit 2 = true) (h1 : payField c 7 1 = 1)
    (h : ∃ p ∈ maskPorts (payField c 0 4), autoOk (trcRs c s p) (s.ports[p]) = false) : trcAutoBad c s = true := by
  obtain ⟨p, hp, hno⟩ := h
  have hall : (maskPorts (payField c 0 4)).all (fun p => autoOk (trcRs c s p) s.ports[p]) = false :=
    List.all_eq_false.2 ⟨p, hp, by simp only [hno, Bool.false_eq_true, not_false_eq_true]⟩
  simp only [trcAutoBad, hb, h1, hall, decide_true, Bool.not_false, Bool.and_self]

/-! ### TRACE_REF and TRIM_LIM_WRITE -/

theorem runTraceRef_stores (h : payField c 0 4 < 2 ^ 24)
    (hall : ∀ p ∈ maskPorts (payField c 0 4), (s.ports[p]).tracer.everAccepted = true) :
    runTraceRef (cmdIn t c s) s = .store (.traceRef ((maskPorts (payField c 0 4)).map (fun p => (p, rSense (s.ports[p]).tracer)))) s := by
  have hany : (maskPorts (payField c 0 4)).any (fun p => !(s.ports[p]).tracer.everAccepted) = false :=
    List.any_eq_false.2 fun p hp => by simp only [hall p hp, Bool.not_true, Bool.false_eq_true, not_false_eq_true]
  simp only [runTraceRef, p4_cmdIn, hany]
  exact if_neg (by omega)

theorem runTraceRef_retry (h : payField c 0 4 < 2 ^ 24)
    (hno : ∃ p ∈ maskPorts (payField c 0 4), (s.ports[p]).tracer.everAccepted = false) :
    runTraceRef (cmdIn t c s) s = fail .retry s := by
  obtain ⟨p, hp, hp'⟩ := hno
  have hany : (maskPorts (payField c 0 4)).any (fun p => !(s.ports[p]).tracer.everAccepted) = true :=
    List.any_eq_true.2 ⟨p, hp, by simp only [hp', Bool.not_false]⟩
  simp only [runTraceRef, p4_cmdIn, hany]
  exact if_neg (by omega)

theorem runTrimLim_stores (h : payField c 0 4 ≤ 10000) :
    runTrimLim (cmdIn t c s) s = .store (.trimLim (BitVec.ofNat 32 (payField c 0 4))) s := by
  simp only [runTrimLim, p4_cmdIn, if_pos h]

theorem runTrimLim_range (h : 10000 < payField c 0 4) : runTrimLim (cmdIn t c s) s = fail .range s := by
  simp only [runTrimLim, p4_cmdIn, if_neg (Nat.not_le.2 h)]

/-! ### The statement -/

theorem matchAcquire_acquires (h : Takes rowMatchAcquire t c s) (hm : payField c 0 4 < 2 ^ 24) :
    ∃ s', exec (.matchAcquire t) s = .next (answer t .ok [] [] s') ∧
      (∀ p : Fin 24, ((payField c 0 4).testBit p.val = true → (s'.ports[p]).mstate = .acquire ∧ (s'.ports[p]).gCalc = 0x40000000 ∧
        (s'.ports[p]).dCalc = 0) ∧ ((payField c 0 4).testBit p.val = false → s'.ports[p] = s.ports[p])) := by
  refine ⟨_, exec_done (body := runMatchAcquire) rfl rfl h (runMatchAcquire_ok hm), fun p => ⟨fun hp => ?_, fun hp => ?_⟩⟩
  · have hloop := acquire_loop_of_mem (s := s) (mem_maskPorts.2 hp)
    simpa only [loopOf, freshLoop, Prod.mk.injEq] using hloop
  · exact acquire_port_of_not_mem (mt mem_maskPorts.1 (by simp [hp]))

/-- Settles O19: each command of the group is one pass through the branches of its body. -/
theorem tracerAndReportsWork : Obligations.TracerAndReportsWork := by
  refine ⟨fun t c s => ⟨fun h => ?_, fun h => ⟨fun p hp => ?_, fun v hv => ?_⟩, fun h h1 h2 => ⟨fun hno => ?_,
      fun n hn hf hl hlost hbl => ?_⟩, fun h hm => matchAcquire_acquires h hm, fun p h hp => ?_⟩,
    fun t c s hf => ⟨fun h => ⟨fun hs hm hsel h5 h6 h7 h8 h3 h4 => ?_, fun hs hb => ?_⟩, fun h hm => ⟨fun hall => ?_, fun hno => ?_⟩,
      fun h => ⟨fun hl => ?_, fun hl => ?_⟩⟩⟩
  · exact exec_done (body := runCalInfo) rfl rfl h rfl
  · refine ⟨_, rfl, exec_done (body := runCalRead) rfl rfl h ?_⟩
    rw [runCalRead_channel hp (by omega), activeRec_port]
    rfl
  · refine ⟨_, rfl, exec_done (body := runCalRead) rfl rfl h ?_⟩
    rw [runCalRead_channel hv (by omega), activeRec_volt]
    rfl
  · refine exec_done (body := runLogRead) rfl rfl h ?_
    rw [runLogRead_eq h1 h2, logGap_eq_false hno]
    rfl
  · refine exec_done (body := runLogRead) rfl rfl h ?_
    rw [runLogRead_eq h1 h2, logGap_eq_true hn hf hl hlost hbl]
    rfl
  · exact exec_done (body := runTrcRead) rfl rfl h (runTrcRead_some hp)
  · have heq := runTrcWrite_eq (t := t) hs (trcRangeOk_of hm hsel h5 h6 h7 h8 h3 h4)
    refine ⟨fun hauto => exec_store (body := runTrcWrite) rfl rfl h hf ?_, fun hb h1 hbad => exec_done (body := runTrcWrite) rfl rfl h ?_⟩
    · rw [heq, trcAutoBad_eq_false hauto]
      rfl
    · rw [heq, trcAutoBad_eq_true hb h1 hbad]
      rfl
  · exact exec_done (body := runTrcWrite) rfl rfl h (runTrcWrite_sealed hs hb)
  · exact exec_store (body := runTraceRef) rfl rfl h hf (runTraceRef_stores hm hall)
  · exact exec_done (body := runTraceRef) rfl rfl h (runTraceRef_retry hm hno)
  · exact exec_store (body := runTrimLim) rfl rfl h hf (runTrimLim_stores hl)
  · exact exec_done (body := runTrimLim) rfl rfl h (runTrimLim_range hl)

end Sys2Proof.Machine
end

section
/-! CF pulses, and the events of the sense ports, of the matching loops and of the alignment (R19 to R29, R44, R86, R88). -/

namespace Sys2Proof.Machine

variable {s : State}

/-! ### The stitcher (R20 to R23) -/

/-- Counting a sample in its match block leaves the path selected. -/
@[simp] theorem blockSample_fineSel (r : Port) : (blockSample r).fineSel = r.fineSel := by
  unfold blockSample fitSample
  dsimp only
  split
  · rfl
  · split <;> rfl

@[simp] theorem stitch_fineSel (r : Port) : (stitch r).1.fineSel = pathOf r := blockSample_fineSel _

/-- With DUAL 0 or in FAULT the path is COARSE, whatever the samples say (R23). -/
theorem pathOf_coarse {r : Port} (h : portDual r.cfg = false ∨ r.mstate = .fault) : pathOf r = false := by
  rw [pathOf, pathAt]
  exact if_pos (by rcases h with h | h <;> simp [h])

/-- Settles O40: COARSE wins before any sample is looked at. -/
theorem coarseWithoutMatching : Obligations.CoarseWithoutMatching := by
  intro r h
  have hp := pathOf_coarse h
  refine ⟨(stitch_fineSel r).trans hp, ?_⟩
  simp only [stitch, hp]
  rfl

/-! ### Banks of State whose element is written back -/

theorem vmod_eq_of_fixed {α : Type} {n : Nat} {v : Vector α n} {k : Fin n} {f : α → α} (h : f v[k] = v[k]) : vmod v k f = v := by
  have h' : f v[k.val] = v[k.val] := h
  rw [vmod, h', Vector.set_getElem_self]

theorem vmod_eq_set {α : Type} {n : Nat} {v : Vector α n} {k : Fin n} {f : α → α} {x : α} (h : f v[k] = x) : vmod v k f = v.set k x :=
  congrArg (v.set k.val) h

/-! ### CF pulses (R86, R88) -/

theorem startPulse_due {now at_ : Nat} {rest : List Nat} {o : CfOut} (hs : o.sched = at_ :: rest) (hle : at_ ≤ now) :
    startPulse now o = { o with sched := rest, started := some now, pulse := some (now + 32 * cfWidth o.cfg), level := !cfPol o.cfg } := by
  simp only [startPulse, hs, if_pos hle, cfIdle]

theorem startPulse_early {now at_ : Nat} {rest : List Nat} {o : CfOut} (hs : o.sched = at_ :: rest) (hlt : now < at_) :
    startPulse now o = o := by
  simp only [startPulse, hs, if_neg (Nat.not_le.2 hlt)]

theorem endPulse_due {now stop : Nat} {o : CfOut} (hp : o.pulse = some stop) (hle : stop ≤ now) :
    endPulse now o = { o with pulse := none, level := cfPol o.cfg } := by
  simp only [endPulse, hp, if_pos hle, cfIdle]

theorem exec_cfPulse (o : Fin 8) (hm : s.metering = true) (hp : (s.cfs[o]).pulse = none) :
    exec (.cfPulse o) s = .next (s.modCf o (startPulse s.time.ticks)) := by
  show execCfPulse o s = _
  simp only [execCfPulse, hm, hp, Option.isNone_none, Bool.and_self, if_true]

theorem exec_cfPulseEnd (o : Fin 8) (hm : s.metering = true) :
    exec (.cfPulseEnd o) s = .next (s.modCf o (endPulse s.time.ticks)) := by
  show execCfPulseEnd o s = _
  simp only [execCfPulseEnd, hm, if_true]

/-! ### Match blocks (R24 to R28) -/

theorem matchBlock_blockCnt (g d : Word) (r : Port) : (matchBlock g d r).blockCnt = 0 := rfl

/-- A block that is not valid leaves the loop alone (R24). -/
theorem loopOf_matchBlock_invalid (g d : Word) {r : Port} (h : blockValid r = false) : loopOf (matchBlock g d r) = loopOf r := by
  simp only [matchBlock, h, Bool.not_false, if_true]
  rfl

theorem exec_matchBlockEnd (p : Fin 24) (g d : Word) (hm : s.metering = true) (hfull : 32000 ≤ (s.ports[p]).blockCnt) :
    exec (.matchBlockEnd p g d) s = .next (endBlock p g d s) := by
  show execMatchBlockEnd p g d s = _
  simp only [execMatchBlockEnd, hm, blockLen, hfull, decide_true, Bool.and_self, if_true]

theorem exec_matchBlockEnd_early (p : Fin 24) (g d : Word) (hpart : (s.ports[p]).blockCnt < 32000) :
    exec (.matchBlockEnd p g d) s = .next s := by
  show execMatchBlockEnd p g d s = _
  simp only [execMatchBlockEnd, blockLen, Nat.not_le.2 hpart, decide_false, Bool.and_false, Bool.false_eq_true, if_false]

theorem modPort_modPort (p : Fin 24) (f g : Port → Port) : (s.modPort p f).modPort p g = s.modPort p (fun r => g (f r)) := by
  have h : vmod (vmod s.ports p f) p g = vmod s.ports p (fun r => g (f r)) := by
    rw [vmod, getElem_vmod_self, vmod, Vector.set_set, vmod]
  exact congrArg (fun v => { s with ports := v }) h

/-- A port of an enabled circuit waits for the circuit's close with its new values (R28). -/
theorem endBlock_of_circuit {p : Fin 24} (g d : Word) {c : Fin 24} (hc : s.circuitOf p = some c) :
    endBlock p g d s = s.modPort p (matchBlock g d) := by
  have hc' : (s.modPort p (matchBlock g d)).circuitOf p = some c := hc
  simp only [endBlock, useIfFree, hc']

/-- A port in no enabled circuit takes its new values at once (R28). -/
theorem endBlock_free {p : Fin 24} (g d : Word) (hc : s.circuitOf p = none) :
    endBlock p g d s = s.modPort p (fun r => useMatch (matchBlock g d r)) := by
  have hc' : (s.modPort p (matchBlock g d)).circuitOf p = none := hc
  simp only [endBlock, useIfFree, hc', modPort_modPort]

/-! ### Settling and the end of a pull -/

theorem vset_index (k : Fin 2) : Fin.ofNat 2 (bitN (decide (k = 1))) = k := by
  fin_cases k <;> rfl

/-- Settles O39: each event writes its one record. -/
theorem pulsesAndPortEvents : Obligations.PulsesAndPortEvents := by
  refine ⟨fun o s hm => ⟨fun at_ rest hp hs hle => ?_, fun at_ rest hp hs hlt => ?_, fun stop hp hle => ?_⟩,
    fun p s hon hset => ?_, fun k s hon hset => ?_,
    fun p g d s hm => ⟨fun hfull => ⟨matchBlock_blockCnt g d _, fun c hc => ?_, fun hc => ?_, fun hv => ?_⟩,
      fun hpart => exec_matchBlockEnd_early p g d hpart⟩,
    fun p s hon ht hage => ?_, fun s hon hl hf hpt => ?_, fun s hon hpull hrun => ?_⟩
  · rw [exec_cfPulse o hm hp, State.modCf, vmod_eq_set (startPulse_due hs hle)]
  · rw [exec_cfPulse o hm hp, State.modCf, vmod_eq_of_fixed (startPulse_early hs hlt)]
  · rw [exec_cfPulseEnd o hm, State.modCf, vmod_eq_set (endPulse_due hp hle)]
  · show execSettlingEnd (.port p) s = _
    simp only [execSettlingEnd, hon, hset, Bool.not_true, Bool.false_eq_true, if_false, if_true]
    rfl
  · show execSettlingEnd (.vset (decide (k = 1))) s = _
    simp only [execSettlingEnd, vset_index, hon, hset, Bool.not_true, Bool.false_eq_true, if_false, if_true]
    rfl
  · rw [exec_matchBlockEnd p g d hm hfull, endBlock_of_circuit g d hc]
    rfl
  · rw [exec_matchBlockEnd p g d hm hfull, endBlock_free g d hc]
    rfl
  · have hloop := loopOf_matchBlock_invalid g d hv
    simp only [loopOf, Prod.mk.injEq] at hloop
    obtain ⟨hstate, hgain, hdelay⟩ := hloop
    exact ⟨hgain, hdelay, hstate⟩
  · show execMatchHoldTimeout p s = _
    have hh : holdTimeout s.ports[p] = { s.ports[p] with mstate := .hold } := if_pos ⟨ht, hage⟩
    simp only [execMatchHoldTimeout, hon, if_true, State.modPort, vmod_eq_set hh]
  · show execMatchStore s = _
    simp only [execMatchStore, storesRun, hon, hl, hf, hpt, decide_true, Bool.not_false, Bool.and_self, if_true]
    rfl
  · show execAlignLock s = _
    simp only [execAlignLock, hon, hpull, hrun, decide_true, Bool.and_self, if_true]
    rfl

end Sys2Proof.Machine
end

section
/-! Steps of ring time, PPS edges and the timed outputs' pulses (R46, R219, R235 to R248). -/

namespace Sys2Proof.Machine

variable {s : State}

/-! ### A step takes effect (R46, R219, R240) -/

theorem exec_stepTakesEffect {p : StepPend} (hon : s.coreOn = true) (hp : s.time.step = some p) (hr : s.reached p.at_ = true) :
    exec .stepTakesEffect s = .next (takeStep s) := by
  show execStepTakesEffect s = _
  simp only [execStepTakesEffect, State.stepReached, hp, hon, hr, Bool.and_self, if_true]

theorem takeStep_time {p : StepPend} (hp : s.time.step = some p) : (takeStep s).time = s.time.stepNow := by
  simp only [takeStep, hp]
  rfl

theorem takeStep_clk {p : StepPend} (hp : s.time.step = some p) : (takeStep s).clk = { s.clk with skipSample := true } := by
  simp only [takeStep, hp]
  rfl

/-- What a step writes, but for the mark of a step off the grid. -/
theorem stepNow_writes {p : StepPend} {x : Time} (hp : x.step = some p) :
    x.stepNow.rt = shiftRt x.rt (p.delta * 65536) ∧ x.stepNow.epoch = p.epoch ∧ x.stepNow.step = none ∧ x.stepNow.lost = x.lost ∧
      x.stepNow.mode = x.mode ∧ x.stepNow.stepPull = x.stepPull := by
  simp only [Time.stepNow, hp]
  split <;> exact ⟨rfl, rfl, rfl, rfl, rfl, rfl⟩

/-- A step by whole samples leaves the grid where it is; any other one is shown by the next sample (R46). -/
theorem stepNow_offStep {p : StepPend} {x : Time} (hp : x.step = some p) :
    x.stepNow.offStep = if p.delta % 31250 = 0 then x.offStep else some (p.delta * 65536 + x.offStep.getD 0) := by
  simp only [Time.stepNow, hp]
  split <;> rfl

/-! ### PPS (R235, R237) -/

theorem exec_ppsEdge_other {x : PpsEdge} (h : s.time.cfg.getLsbD 2 ≠ x.falling) : exec (.ppsEdge x) s = .next s := by
  have hb : (rtPpsFalling s.time.cfg == x.falling) = false := beq_eq_false_iff_ne.2 h
  show execPpsEdge x s = _
  simp only [execPpsEdge, hb, Bool.and_false, Bool.false_eq_true, if_false]

theorem rtSrc_eq (w : Word) : rtSrc w = w.toNat % 4 := by
  rw [rtSrc, bitsN, Nat.pow_zero, Nat.div_one]
  rfl

theorem exec_ppsEdge {x : PpsEdge} (hon : s.coreOn = true) (hh : s.ring.isHead = true) (hsrc : s.time.cfg.toNat % 4 = 1)
    (h : s.time.cfg.getLsbD 2 = x.falling) :
    exec (.ppsEdge x) s = .next (s.draw.2.modTime (ppsEdgeTime s.draw.1 x.dt)) := by
  have hb : (rtPpsFalling s.time.cfg == x.falling) = true := beq_iff_eq.2 h
  show execPpsEdge x s = _
  simp only [execPpsEdge, hon, hh, rtSrc_eq, hsrc, hb, decide_true, Bool.and_self, if_true]

/-- A second within ±50 ns joins the run, which locks at ten; another one breaks it (R237). -/
theorem ppsEdgeTime_run (k dt : Nat) (x : Time) :
    (ppsEdgeTime k dt x).ppsRun =
      (if (secondError ((x.rt / 163840 + dt * 65536 / 163840) * 5 / 2)).natAbs ≤ 50 then x.ppsRun + 1 else 0) ∧
    (ppsEdgeTime k dt x).ppsLock = (x.ppsLock || decide (10 ≤ (ppsEdgeTime k dt x).ppsRun)) := ⟨rfl, rfl⟩

theorem exec_ppsLost (hon : s.coreOn = true) (hh : s.ring.isHead = true) (hsrc : s.time.cfg.toNat % 4 = 1) :
    exec .ppsLost s = .next (s.modTime (fun t =>
      { t with ppsLost := true, ppsLock := false, ppsRun := 0, ppsClear := if t.ppsLock then some t.ticks else t.ppsClear })) := by
  show execPpsLost s = _
  simp only [execPpsLost, hon, hh, rtSrc_eq, hsrc, decide_true, Bool.and_self, if_true]

/-! ### Timed outputs (R244, R248) -/

theorem exec_toutFire {n : Fin 4} {ns : Nat} (hon : s.coreOn = true) (hn : (s.time.outs[n]).nextEdge = some ns)
    (hr : s.reached ns = true) :
    exec (.toutFire n) s = .next { s with time := { s.time with outs := s.time.outs.set n ((s.time.outs[n]).fire ns) } } := by
  show execToutFire n s = _
  simp only [execToutFire, hn, hon, hr, Bool.and_self, if_true]
  rfl

theorem exec_toutPulseEnd {n : Fin 4} {stop : Nat} (hon : s.coreOn = true) (hp : (s.time.outs[n]).pulse = some stop)
    (hr : stop ≤ s.time.rt + tickUnits) :
    exec (.toutPulseEnd n) s = .next { s with time := { s.time with outs := s.time.outs.set n ((s.time.outs[n]).finish stop) } } := by
  show execToutPulseEnd n s = _
  simp only [execToutPulseEnd, hp, hon, hr, decide_true, Bool.and_self, if_true]
  rfl

/-- Idle, and 20 ns past the last pulse: an edge is emitted. -/
theorem barred_of_idle {o : Tout} {e : Nat} (hp : o.pulse = none) (hl : ∀ stop, o.lastEnd = some stop → stop + 20 * 65536 ≤ e) :
    o.barred e = false := by
  cases h : o.lastEnd with
  | none => simp only [Tout.barred, hp, h, Option.or]
  | some stop =>
    simp only [Tout.barred, hp, h, Option.or]
    exact decide_eq_false (Nat.not_lt.2 (hl stop h))

theorem barred_of_near {o : Tout} {e stop : Nat} (h : o.pulse = some stop ∨ (o.pulse = none ∧ o.lastEnd = some stop))
    (he : e < stop + 20 * 65536) : o.barred e = true := by
  rcases h with h | ⟨h, hl⟩
  · simp only [Tout.barred, h, Option.or]
    exact decide_eq_true he
  · simp only [Tout.barred, h, hl, Option.or]
    exact decide_eq_true he

theorem fire_emits {o : Tout} {ns : Nat} (hp : o.pulse = none) (hb : o.barred (edgeUnits ns) = false) :
    o.fire ns = { o with level := !o.pol, pulse := some (edgeUnits ns + o.width.toNat * 65536),
                         nextEdge := if o.periodic then some (ns + o.period.toNat) else none, late := o.late || o.armedLate,
                         armedLate := false, arm := o.arm && o.periodic, fired := o.fired || !o.periodic } := by
  simp only [Tout.fire, hb, hp, Bool.false_eq_true, if_false]
  rfl

theorem fire_suppressed {o : Tout} {ns : Nat} (hb : o.barred (edgeUnits ns) = true) :
    o.fire ns = { o with suppressed := satAdd o.suppressed 1,
                         nextEdge := if o.periodic then some (ns + o.period.toNat) else none } := by
  simp only [Tout.fire, hb, if_true]

/-- New registers move an output's edge and its LATE mark, and nothing else. -/
theorem rearm_keeps (o : Tout) (now : Nat) :
    (o.rearm now).level = o.level ∧ (o.rearm now).pulse = o.pulse ∧ (o.rearm now).lastEnd = o.lastEnd ∧ (o.rearm now).time = o.time ∧
      (o.rearm now).period = o.period ∧ (o.rearm now).width = o.width ∧ (o.rearm now).pend = o.pend := by
  unfold Tout.rearm
  dsimp only
  split
  · exact ⟨rfl, rfl, rfl, rfl, rfl, rfl, rfl⟩
  · split
    · exact ⟨rfl, rfl, rfl, rfl, rfl, rfl, rfl⟩
    · split <;> exact ⟨rfl, rfl, rfl, rfl, rfl, rfl, rfl⟩

theorem finish_plain {o : Tout} {stop : Nat} (hp : o.pulse = some stop) (hn : o.pend = none) :
    o.finish stop = { o with level := o.pol, pulse := none, lastEnd := some stop } := by
  simp only [Tout.finish, hp, hn, Option.isSome_some, if_true]
  rfl

/-- A pulse ends and the writes that waited for it come in (R248). -/
theorem finish_pend {o : Tout} {stop : Nat} {a : BitVec 80} {p w : Word} (hp : o.pulse = some stop) (hn : o.pend = some (a, p, w)) :
    o.finish stop = ({ o with level := o.pol, pulse := none, lastEnd := some stop, time := a, period := p, width := w,
                              pend := none } : Tout).rearm (nsCeil stop) := by
  simp only [Tout.finish, hp, hn, Option.isSome_some, if_true]
  rfl

/-- Settles O47: each event writes one part of ring time, and R248 decides between a pulse and a suppressed edge. -/
theorem stepsEdgesAndOutputs : Obligations.StepsEdgesAndOutputs := by
  refine ⟨fun p s hon hp hr => ?_, fun x s h => exec_ppsEdge_other h, fun x s hon hh hsrc hpol => ?_, fun s hon hh hsrc => ?_,
    fun n ns s hon hn hr => ⟨fun hp hl => ?_, fun stop hstop he => ?_⟩, fun n stop s hon hp hr => ⟨fun hn => ?_, fun a p w hn => ?_⟩⟩
  · obtain ⟨hrt, hepoch, hstep, hlost, hmode, hpull⟩ := stepNow_writes hp
    have hoff := stepNow_offStep hp
    refine ⟨takeStep s, exec_stepTakesEffect hon hp hr, ?_⟩
    rw [takeStep_time hp, takeStep_clk hp]
    exact ⟨hrt, hepoch, hstep, rfl, rfl, hlost, hmode, hpull, fun h => hoff.trans (if_pos h), fun h => hoff.trans (if_neg h)⟩
  · obtain ⟨hrun, hlock⟩ := ppsEdgeTime_run s.draw.1 x.dt s.time
    refine ⟨_, exec_ppsEdge hon hh hsrc hpol, rfl, rfl, fun h => hrun.trans (if_neg (Nat.not_le.2 h)), fun h => hrun.trans (if_pos h),
      fun h h9 => hlock.trans ?_, rfl, rfl⟩
    rw [hrun.trans (if_pos h)]
    exact Bool.or_eq_true_iff.2 (.inr (decide_eq_true (by omega)))
  · exact ⟨_, exec_ppsLost hon hh hsrc, rfl, rfl, rfl, rfl, fun h => if_pos h⟩
  · have hfire := fire_emits hp (barred_of_idle (e := edgeUnits ns) hp hl)
    refine ⟨_, _, exec_toutFire hon hn hr, rfl, ?_⟩
    rw [hfire]
    exact ⟨rfl, rfl, rfl, fun h => ⟨if_pos h, by simp only [h, Bool.not_true, Bool.or_false]⟩,
      fun h => ⟨if_neg (by simp only [h, Bool.false_eq_true, not_false_eq_true]), by simp only [h, Bool.and_false],
        by simp only [h, Bool.not_false, Bool.or_true]⟩⟩
  · have hfire := fire_suppressed (barred_of_near (e := edgeUnits ns) hstop he)
    refine ⟨_, _, exec_toutFire hon hn hr, rfl, ?_⟩
    rw [hfire]
    exact ⟨rfl, rfl, rfl, rfl⟩
  · rw [exec_toutPulseEnd hon hp hr, finish_plain hp hn]
  · refine ⟨_, _, exec_toutPulseEnd hon hp hr, rfl, ?_⟩
    obtain ⟨hlevel, hpulse, hend, htime, hperiod, hwidth, hpend⟩ := rearm_keeps
      { s.time.outs[n] with level := (s.time.outs[n]).pol, pulse := none, lastEnd := some stop, time := a, period := p, width := w,
                            pend := none } (nsCeil stop)
    rw [finish_pend hp hn]
    exact ⟨hlevel, hpulse, hend, htime, hperiod, hwidth, hpend⟩

end Sys2Proof.Machine
end

section
/-! What metrology leaves unchanged of ring time: a cycle's close, the events and windows of power quality, and the wideband results. -/

namespace Sys2Proof.Machine

variable (s : State)

/-! ### The close of a cycle -/

@[simp] theorem takePortCfg_time (n : Nat) (p : Fin 24) : (takePortCfg n p s).time = s.time := by
  unfold takePortCfg
  split <;> simp

@[simp] theorem takePortCfgs_time (c : Fin 24) : (takePortCfgs c s).time = s.time := by
  simp [takePortCfgs]

@[simp] theorem takeMatches_time (c : Fin 24) : (takeMatches c s).time = s.time := by
  rw [takeMatches, State.modCir_time]
  exact s.forEach_keeps State.time _ _ fun _ _ => rfl

@[simp] theorem takeTrims_time (c : Fin 24) : (takeTrims c s).time = s.time := by
  rw [takeTrims, State.modCir_time]
  exact s.forEach_keeps State.time _ _ fun _ _ => rfl

@[simp] theorem swapPort_time (m : BitVec 32) (p : Fin 24) : (swapPort m p s).time = s.time := by
  simp [swapPort]

@[simp] theorem swapCircuitCal_time (c : Fin 24) : (swapCircuitCal c s).time = s.time := by
  unfold swapCircuitCal
  split <;> simp

@[simp] theorem finishSetTxn_time : (finishSetTxn s).time = s.time := by
  unfold finishSetTxn
  split
  · rfl
  · rw [State.modCal_time]
    exact s.forEach_keeps State.time _ _ fun _ _ => rfl

@[simp] theorem swapSetCal_time (c : Fin 24) : (swapSetCal c s).time = s.time := by
  unfold swapSetCal
  dsimp only
  split <;> simp

@[simp] theorem takeScaling_time (c : Fin 24) : (takeScaling c s).time = s.time := by
  simp [takeScaling]

@[simp] theorem abortOnMap_time (c : Fin 24) (old new : Word) : (abortOnMap c old new s).time = s.time := by
  unfold abortOnMap
  split <;> simp

@[simp] theorem markArriving_time (l : List (Fin 24)) : (markArriving l s).time = s.time :=
  s.forEach_keeps State.time _ _ fun _ _ => rfl

@[simp] theorem takeCirCfg_time (c : Fin 24) : (takeCirCfg c s).time = s.time := by
  unfold takeCirCfg
  dsimp only
  split
  · rfl
  · split <;> simp

/-- What an operation on the CF outputs does output by output leaves ring time, where each single change does. -/
theorem ite_modCf_time (P : Prop) [Decidable P] (o : Fin 8) (f : CfOut → CfOut) : (if P then s.modCf o f else s).time = s.time := by
  split <;> simp

@[simp] theorem takeCf_time (c : Fin 24) : (takeCf c s).time = s.time := by
  simp [takeCf, ite_modCf_time]

@[simp] theorem takeClear_time (c : Fin 24) : (takeClear c s).time = s.time := by
  unfold takeClear
  split <;> simp [ite_modCf_time]

@[simp] theorem takeRetired_time (c : Fin 24) : (takeRetired c s).time = s.time := by
  unfold takeRetired
  split <;> simp [ite_modCf_time]

@[simp] theorem takeChanges_time (c : Fin 24) : (takeChanges c s).time = s.time := by
  simp [takeChanges]

@[simp] theorem balAdd_time (c : Fin 24) : (balAdd c s).time = s.time := by
  simp [balAdd]

@[simp] theorem cfShareAll_time (c : Fin 24) (l : Nat) : (cfShareAll c l s).time = s.time := by
  simp [cfShareAll, ite_modCf_time]

@[simp] theorem bookClose_time (c : Fin 24) (nozc pfail : Bool) : (bookClose c nozc pfail s).time = s.time := by
  simp [bookClose]

@[simp] theorem recorrectPorts_time (l : List (Fin 24)) : (recorrectPorts l s).time = s.time :=
  s.forEach_keeps State.time _ _ fun _ _ => rfl

@[simp] theorem startCycle_time (c : Fin 24) : (startCycle c s).time = s.time := by
  unfold startCycle
  dsimp only
  split <;> simp

@[simp] theorem closeCircuit_time (c : Fin 24) : (closeCircuit c s).time = s.time := by
  simp [closeCircuit]

@[simp] theorem overdueCircuits_time : (overdueCircuits s).time = s.time := by
  refine State.forEach_keeps _ State.time _ _ fun c t => ?_
  split <;> simp

/-! ### Power quality -/

@[simp] theorem pushEvent_time (r : EventRec) : (pushEvent r s).time = s.time := by
  simp [pushEvent]

@[simp] theorem pushAll_time (l : List EventRec) : (pushAll l s).time = s.time := by
  simp [pushAll]

@[simp] theorem halfCycle_time (b : Fin 2) : (halfCycle b s).time = s.time := by
  unfold halfCycle
  dsimp only
  split
  · rfl
  · rw [pushAll_time, State.modSet_time]

@[simp] theorem endTransient_time (b : Fin 2) (ch : Fin 3) : (endTransient b ch s).time = s.time := by
  unfold endTransient
  dsimp only
  split
  · rfl
  · split <;> simp

@[simp] theorem freqEnd_time (b : Fin 2) (stepped : Bool) : (freqEnd b stepped s).time = s.time := rfl

@[simp] theorem overdueFreq_time (b : Fin 2) : (overdueFreq b s).time = s.time := by
  unfold overdueFreq
  split <;> simp

@[simp] theorem cutEvents_time (last : Nat) (b : Fin 2) : (cutEvents last b s).time = s.time := by
  unfold cutEvents
  dsimp only
  rw [pushAll_time, State.modSet_time]

@[simp] theorem applySetParams_time (b : Fin 2) : (applySetParams b s).time = s.time := by
  unfold applySetParams
  extract_lets +lift q s₁ on s₂ s₃ s₄ s₅ s₆
  have h₁ : s₁.time = s.time := by
    simp only [s₁]
    split
    · exact cutEvents_time s _ b
    · rfl
  have h₄ : s₄.time = s₃.time := s₃.forEach_keeps State.time _ _ fun _ _ => rfl
  split
  · exact h₄.trans h₁
  · have h₅ : s₅.time = s₄.time := s₄.forEach_keeps State.time _ _ fun _ _ => rfl
    rw [finishSetTxn_time]
    exact h₅.trans (h₄.trans h₁)

@[simp] theorem windowClose_time (b : Fin 2) : (windowClose b s).time = s.time := by
  unfold windowClose
  split
  · rfl
  · extract_lets +lift dr id s₁ ns t q stepped ends10 ends2h bits status vals seq res q₁ q₂ q₃ s₂ s₃
    have h₁ : s₁.time = s.time := by
      simp only [s₁]
      split <;> rfl
    rw [applySetParams_time]
    simp only [s₃]
    split <;> exact h₁

@[simp] theorem overdueSets_time : (overdueSets s).time = s.time := by
  simp [overdueSets]

/-! ### Wideband results -/

@[simp] theorem supraWindow_time : (supraWindow s).time = s.time := rfl

@[simp] theorem noisePublish_time : (noisePublish s).time = s.time := rfl

@[simp] theorem overdueWide_time : (overdueWide s).time = s.time := by
  unfold overdueWide
  dsimp only
  split <;> split <;> simp

end Sys2Proof.Machine
end

section
/-! What the Firn store's work at a tick leaves unchanged of the sample path: configuration and buffered samples of the ports, circuits,
pulse counters, crossings, powered time and ring time. -/

namespace Sys2Proof.Machine

/-- What a sample tick reads and advances, and no store that starts touches. -/
structure SampleFrame where
  paths : Vector (Word × List PathSample) 24
  circuits : Vector Circuit 24
  s0 : Vector S0In 8
  cdc : Cdc
  ptSub : Nat
  ptCkpt : Word
  rt : Nat
  mode : AlignMode
  offStep : Option Int
  step : Option StepPend
  ticks : Nat

/-- A port's configuration in effect and its buffered samples. -/
def pathOfPort (r : Port) : Word × List PathSample := (r.cfg, r.hist)

def State.sampleFrame (s : State) : SampleFrame :=
  { paths := s.ports.map pathOfPort, circuits := s.circuits, s0 := s.s0, cdc := s.cdc, ptSub := s.firn.ptSub, ptCkpt := s.firn.ptCkpt,
    rt := s.time.rt, mode := s.time.mode, offStep := s.time.offStep, step := s.time.step, ticks := s.time.ticks }

variable (s : State)

/-- What every step of a fold keeps of the sample path, the fold keeps. -/
theorem forEach_frame {α : Type} (l : List α) {f : α → State → State} (h : ∀ a t, (f a t).sampleFrame = t.sampleFrame) :
    (s.forEach l f).sampleFrame = s.sampleFrame := s.forEach_keeps State.sampleFrame l f h

/-! ### Answers and requests -/

@[simp] theorem answerReq_frame (r : StoreReq) (st : Status) (p : List Byte) : (answerReq r st p s).sampleFrame = s.sampleFrame := by
  simp [State.sampleFrame]

@[simp] theorem pushOutcome_frame (ch : Change) (st : Status) : (pushOutcome ch st s).sampleFrame = s.sampleFrame := by
  unfold pushOutcome
  split
  · simp [State.sampleFrame]
  · rfl

@[simp] theorem addYield_frame (t : Fin 64) (y : Byte) : (addYield t y s).sampleFrame = s.sampleFrame := by
  simp [State.sampleFrame]

@[simp] theorem modReq_frame (id : Nat) (f : StoreReq → StoreReq) : (modReq id f s).sampleFrame = s.sampleFrame := rfl
@[simp] theorem dropReq_frame (id : Nat) : (dropReq id s).sampleFrame = s.sampleFrame := rfl
@[simp] theorem modMember_frame (id p : Nat) (f : Member → Member) : (modMember id p f s).sampleFrame = s.sampleFrame := rfl
@[simp] theorem modTxn_frame (g : CalTarget) (f : Txn → Txn) : (modTxn g f s).sampleFrame = s.sampleFrame := rfl
@[simp] theorem putEntry_frame (g : LogGroup) (e : LogEntry) : (putEntry g e s).sampleFrame = s.sampleFrame := rfl

@[simp] theorem failChange_frame (ch : Change) : (failChange ch s).sampleFrame = s.sampleFrame := by
  unfold failChange
  split <;> rfl

@[simp] theorem startChange_frame (ch : Change) : (startChange ch s).sampleFrame = s.sampleFrame := by
  cases ch with
  | calCommit g =>
    unfold startChange
    dsimp only
    split
    · rfl
    · rw [modTxn_frame, putEntry_frame]
  | _ => rfl

/-! ### The aux converter -/

@[simp] theorem auxSync_frame : (auxSync s).sampleFrame = s.sampleFrame := by
  unfold auxSync
  split
  · rfl
  · split
    · rfl
    · split <;> rfl

@[simp] theorem askKettle_frame : (askKettle s).sampleFrame = s.sampleFrame := by
  unfold askKettle injectConv
  split
  · rfl
  · exact auxSync_frame _

/-! ### Latches and banks -/

/-- A store that takes its sequence numbers leaves powered time. -/
theorem takeGseqs_powered (keys : List Nat) (f : Firn) : (takeGseqs keys f).ptSub = f.ptSub ∧ (takeGseqs keys f).ptCkpt = f.ptCkpt := by
  unfold takeGseqs
  induction keys.filter isGroupKey generalizing f with
  | nil => exact ⟨rfl, rfl⟩
  | cons k l ih => exact ih (setGseq k (nextGseq f k) f)

@[simp] theorem takeGseqs_frame (keys : List Nat) : (s.modFirn (takeGseqs keys)).sampleFrame = s.sampleFrame := by
  obtain ⟨hsub, hckpt⟩ := takeGseqs_powered keys s.firn
  simp [State.sampleFrame, hsub, hckpt]

@[simp] theorem latchStore_frame (id p : Nat) : (latchStore id p s).sampleFrame = s.sampleFrame := by
  unfold latchStore
  split
  · rfl
  · extract_lets ps img s₁ f s₂
    have h₁ : s₁.sampleFrame = s.sampleFrame := by
      simp only [s₁]
      split
      · rfl
      · exact takeGseqs_frame s _
    exact h₁

@[simp] theorem endWait_frame (r : StoreReq) (m : Member) : (endWait r m s).sampleFrame = s.sampleFrame := by
  unfold endWait
  split
  · split <;> rfl
  · rfl

@[simp] theorem startMember_frame (id p : Nat) : (startMember id p s).sampleFrame = s.sampleFrame := by
  unfold startMember
  split
  · rfl
  · split
    · rfl
    · dsimp only
      rw [modReq_frame, modMember_frame]
      split <;> simp

@[simp] theorem startBanks_frame : (startBanks s).sampleFrame = s.sampleFrame := by
  refine forEach_frame s _ fun b t => ?_
  split
  · rfl
  · split <;> simp

@[simp] theorem beginWait_frame (r : StoreReq) (m : Member) : (beginWait r m s).sampleFrame = s.sampleFrame := by
  unfold beginWait
  dsimp only
  split
  · split <;> simp
  · rfl

@[simp] theorem countDispStall_frame (r : StoreReq) (p : Nat) : (countDispStall r p s).sampleFrame = s.sampleFrame := by
  unfold countDispStall
  split
  · rfl
  · split <;> rfl

@[simp] theorem noteWaits_frame : (noteWaits s).sampleFrame = s.sampleFrame := by
  refine forEach_frame s _ fun e t => ?_
  have h : (if e.2.waitTick.isNone then beginWait e.1 e.2 t else t).sampleFrame = t.sampleFrame := by
    split <;> simp
  dsimp only
  split
  · rw [countDispStall_frame, h]
  · exact h

@[simp] theorem deferReq_frame (r : StoreReq) : (deferReq r s).sampleFrame = s.sampleFrame := by
  unfold deferReq
  extract_lets count wait
  have hcount (u : State) : (count u).sampleFrame = u.sampleFrame := rfl
  have hwait (u : State) : (wait u).sampleFrame = u.sampleFrame := rfl
  split
  · rfl
  · split
    · simp
    · rw [answerReq_frame, hwait]
      split <;> rfl
    · simp [hcount, hwait]

@[simp] theorem checkSingles_frame : (checkSingles s).sampleFrame = s.sampleFrame := by
  unfold checkSingles
  split
  · rfl
  · dsimp only
    split
    · rfl
    · split
      · split <;> simp
      · exact forEach_frame s _ fun r t => deferReq_frame t r

@[simp] theorem kick_frame : (kick s).sampleFrame = s.sampleFrame := by
  simp [kick]

/-! ### Requests that wait for KETTLE -/

@[simp] theorem startReq_frame (r : StoreReq) : (startReq r s).sampleFrame = s.sampleFrame := by
  unfold startReq
  extract_lets s₁ m s₂ s₃ s₄
  have h₂ : s₂.sampleFrame = s.sampleFrame := by simp [s₂, s₁]
  have h₄ : s₄.sampleFrame = s₃.sampleFrame := forEach_frame s₃ _ fun k t => latchStore_frame t _ k
  rw [kick_frame, h₄]
  exact h₂

@[simp] theorem acceptReq_frame (r : StoreReq) : (acceptReq r s).sampleFrame = s.sampleFrame := by
  unfold acceptReq
  split <;> simp

@[simp] theorem consider_frame (id : Nat) : (consider id s).sampleFrame = s.sampleFrame := by
  unfold consider
  split
  · rfl
  · split
    · rfl
    · split
      · split <;> simp
      · split
        · simp
        · dsimp only
          split
          · simp
          · split <;> simp

@[simp] theorem startWaiting_frame : (startWaiting s).sampleFrame = s.sampleFrame := by
  unfold startWaiting
  split
  · rw [auxSync_frame, kick_frame]
    exact forEach_frame s _ fun id t => consider_frame t id
  · rfl

@[simp] theorem overdueStores_frame : (overdueStores s).sampleFrame = s.sampleFrame := by
  unfold overdueStores
  split <;> simp

/-- In a freeze no reading lets a store start (R183). -/
theorem overdueStores_frozen (h : s.hw.frozen = true) : overdueStores s = s := by
  simp [overdueStores, kettleDue, kettleGo, h]

end Sys2Proof.Machine
end

section
/-! What is overdue at a sample tick, and what of the sample path it leaves: with no step pending ring time stays, and with no close and
no half-cycle, transient or window due so does all of the path but settling. -/

namespace Sys2Proof.Machine

variable (s : State)

/-- What metrology owes when a sample comes: the part of `overdue` before the store and the step. -/
def dueMetrology : State :=
  if s.metering then overdueWide (overdueSets (overdueCircuits (overdueMatch (overdueTracers (overdueSettle s))))) else overdueSettle s

/-! ### Match blocks -/

@[simp] theorem useIfFree_time (p : Fin 24) : (useIfFree p s).time = s.time := by
  unfold useIfFree
  split <;> rfl

@[simp] theorem useIfFree_pqSets (p : Fin 24) : (useIfFree p s).pqSets = s.pqSets := by
  unfold useIfFree
  split <;> rfl

theorem overdueMatch_time : (overdueMatch s).time = s.time := by
  unfold overdueMatch
  dsimp only
  rw [State.forEach_time]
  intro p t
  split
  · rw [endBlock, useIfFree_time, State.modPort_time]
  · rfl

/-! ### Ring time -/

theorem dueMetrology_time : (dueMetrology s).time = s.time := by
  unfold dueMetrology
  split
  · rw [overdueWide_time, overdueSets_time, overdueCircuits_time, overdueMatch_time]
    rfl
  · rfl

/-- What ring time's frame says of the sample, apart from the rest of the state. -/
theorem frame_time {s t : State} (h : t.sampleFrame = s.sampleFrame) :
    t.time.rt = s.time.rt ∧ t.time.mode = s.time.mode ∧ t.time.offStep = s.time.offStep ∧ t.time.step = s.time.step ∧
      t.time.ticks = s.time.ticks :=
  ⟨congrArg SampleFrame.rt h, congrArg SampleFrame.mode h, congrArg SampleFrame.offStep h, congrArg SampleFrame.step h,
    congrArg SampleFrame.ticks h⟩

theorem frame_circuits {s t : State} (h : t.sampleFrame = s.sampleFrame) : t.circuits = s.circuits := congrArg SampleFrame.circuits h

theorem overdueStep_of_none {s : State} (h : s.time.step = none) : overdueStep s = s := by
  simp [overdueStep, State.stepReached, h]

/-- With no step pending, what is overdue is metrology's and the store's. -/
theorem overdue_of_noStep {s : State} (h : s.time.step = none) : overdue s = overdueStores (dueMetrology s) := by
  obtain ⟨-, -, -, hstep, -⟩ := frame_time (overdueStores_frame (dueMetrology s))
  rw [dueMetrology_time, h] at hstep
  exact overdueStep_of_none hstep

/-- With no step pending, what is overdue leaves ring time. -/
theorem overdue_time {s : State} (h : s.time.step = none) :
    (overdue s).time.rt = s.time.rt ∧ (overdue s).time.mode = s.time.mode ∧ (overdue s).time.offStep = s.time.offStep ∧
      (overdue s).time.ticks = s.time.ticks := by
  obtain ⟨hrt, hmode, hoff, -, hticks⟩ := frame_time (overdueStores_frame (dueMetrology s))
  rw [dueMetrology_time] at hrt hmode hoff hticks
  rw [overdue_of_noStep h]
  exact ⟨hrt, hmode, hoff, hticks⟩

/-! ### Ports -/

/-- Ports whose configuration and buffered samples are as before make the same paths. -/
theorem paths_map {f : Port → Port} (h : ∀ r, pathOfPort (f r) = pathOfPort r) (v : Vector Port 24) :
    (v.map f).map pathOfPort = v.map pathOfPort := by
  rw [Vector.map_map]
  exact congrArg v.map (funext h)

/-- A change of one port that leaves its path leaves the frame. -/
theorem modPort_frame (p : Fin 24) {f : Port → Port} (h : ∀ r, pathOfPort (f r) = pathOfPort r) :
    (s.modPort p f).sampleFrame = s.sampleFrame := by
  have hpaths : (vmod s.ports p f).map pathOfPort = s.ports.map pathOfPort := by
    rw [vmod, Vector.map_set, h, ← Vector.getElem_map (f := pathOfPort), Vector.set_getElem_self]
  simp [State.sampleFrame, hpaths]

/-- The same change of every port that leaves its path leaves the frame. -/
theorem mapPorts_frame {f : Port → Port} (h : ∀ r, pathOfPort (f r) = pathOfPort r) :
    ({ s with ports := s.ports.map f } : State).sampleFrame = s.sampleFrame := by
  simp only [State.sampleFrame, paths_map h]

theorem overdueSettle_frame : (overdueSettle s).sampleFrame = s.sampleFrame :=
  mapPorts_frame { s with pqSets := s.pqSets.map (fun (q : PqSet) => { q with settle := endSettle q.settle }) } fun _ => rfl

/-- A conditional change of a port's Tracer leaves its path. -/
theorem path_ite_tracer (P : Prop) [Decidable P] (t : Tracer) (r : Port) :
    pathOfPort (if P then { r with tracer := t } else r) = pathOfPort r := by
  split <;> rfl

theorem path_overdueTracer (r : Port) : pathOfPort (overdueTracer r) = pathOfPort r := by
  unfold overdueTracer tracerStart
  simp only [path_ite_tracer]

theorem overdueTracers_frame : (overdueTracers s).sampleFrame = s.sampleFrame := mapPorts_frame s path_overdueTracer

theorem path_acceptBlock (g d : Word) (r : Port) : pathOfPort (acceptBlock g d r) = pathOfPort r := by
  unfold acceptBlock
  dsimp only
  split
  · split <;> rfl
  · rfl
  · rfl
  · rfl

theorem path_matchBlock (g d : Word) (r : Port) : pathOfPort (matchBlock g d r) = pathOfPort r := by
  unfold matchBlock
  dsimp only
  split
  · rfl
  · split
    · exact path_acceptBlock _ _ r
    · rfl

theorem path_holdTimeout (r : Port) : pathOfPort (holdTimeout r) = pathOfPort r := by
  unfold holdTimeout
  split <;> rfl

theorem useIfFree_frame (p : Fin 24) : (useIfFree p s).sampleFrame = s.sampleFrame := by
  unfold useIfFree
  split
  · rfl
  · exact modPort_frame s p fun _ => rfl

theorem endBlock_frame (p : Fin 24) (g d : Word) : (endBlock p g d s).sampleFrame = s.sampleFrame := by
  rw [endBlock, useIfFree_frame, modPort_frame s p (path_matchBlock g d)]

theorem overdueMatch_frame : (overdueMatch s).sampleFrame = s.sampleFrame := by
  unfold overdueMatch
  dsimp only
  rw [forEach_frame, mapPorts_frame s path_holdTimeout]
  intro p t
  split
  · exact endBlock_frame t p _ _
  · rfl

/-! ### Circuits, sets and wideband results -/

theorem overdueCircuits_idle {s : State} (h : ∀ c : Fin 24, (s.circuits[c]).due = .none) : overdueCircuits s = s :=
  s.forEach_inv (· = s) _ _ (fun c t ht => by rw [ht]; exact if_pos (h c)) rfl

/-- A set with no half-cycle value, window and transient due. -/
def idleSet (q : PqSet) : Prop := q.halfVal = none ∧ q.winPend = none ∧ q.transDue = 0

theorem halfCycle_idle {s : State} {b : Fin 2} (h : idleSet s.pqSets[b]) : halfCycle b s = s := by
  obtain ⟨hhalf, -, -⟩ := h
  simp only [halfCycle, hhalf]

theorem endTransient_idle {s : State} {b : Fin 2} (h : idleSet s.pqSets[b]) (ch : Fin 3) : endTransient b ch s = s := by
  obtain ⟨-, -, htrans⟩ := h
  simp only [endTransient, htrans]
  split
  · rfl
  · simp

/-- The end of a frequency interval keeps what is due of every set. -/
theorem freqEnd_idle {s : State} (b : Fin 2) (stepped : Bool) {k : Fin 2} (h : idleSet s.pqSets[k]) :
    idleSet (freqEnd b stepped s).pqSets[k] := by
  by_cases hk : k = b
  · subst hk
    simp only [freqEnd, State.modSet_pqSets, Fin.getElem_fin, getElem_vmod_self]
    exact h
  · simp only [freqEnd, State.modSet_pqSets, getElem_vmod_of_ne _ _ hk]
    exact h

theorem overdueFreq_idle {s : State} (b : Fin 2) (h : ∀ k : Fin 2, idleSet s.pqSets[k]) (k : Fin 2) :
    idleSet (overdueFreq b s).pqSets[k] := by
  unfold overdueFreq
  split
  · exact freqEnd_idle b false (h k)
  · exact h k

theorem windowClose_idle {s : State} {b : Fin 2} (h : idleSet s.pqSets[b]) : windowClose b s = s := by
  obtain ⟨-, hwin, -⟩ := h
  simp only [windowClose, hwin]

@[simp] theorem overdueFreq_frame (b : Fin 2) : (overdueFreq b s).sampleFrame = s.sampleFrame := by
  unfold overdueFreq
  split <;> rfl

/-- With nothing due, only the frequency intervals may end. -/
theorem overdueSets_idle {s : State} (h : ∀ b : Fin 2, idleSet s.pqSets[b]) : (overdueSets s).sampleFrame = s.sampleFrame := by
  have hfirst : s.forEach (fins 2) (fun b s => (halfCycle b s).forEach (fins 3) (endTransient b)) = s :=
    s.forEach_inv (· = s) _ _ (fun b t ht => by
      rw [ht, halfCycle_idle (h b)]
      exact s.forEach_inv (· = s) _ _ (fun ch u hu => by rw [hu, endTransient_idle (h b)]) rfl) rfl
  unfold overdueSets
  dsimp only
  rw [hfirst]
  refine (s.forEach_inv (fun t => (∀ b : Fin 2, idleSet t.pqSets[b]) ∧ t.sampleFrame = s.sampleFrame) _ _ (fun b t ht => ?_) ⟨h, rfl⟩).2
  obtain ⟨hidle, hframe⟩ := ht
  have hfreq := overdueFreq_idle b hidle
  rw [windowClose_idle (hfreq b)]
  exact ⟨hfreq, (overdueFreq_frame t b).trans hframe⟩

theorem modPq_frame (f : PqUnit → PqUnit) : (s.modPq f).sampleFrame = s.sampleFrame := rfl

theorem supraWindow_frame : (supraWindow s).sampleFrame = s.sampleFrame := modPq_frame s _

theorem noisePublish_frame : (noisePublish s).sampleFrame = s.sampleFrame := by
  unfold noisePublish
  dsimp only
  rw [modPq_frame]
  rfl

theorem overdueWide_frame : (overdueWide s).sampleFrame = s.sampleFrame := by
  unfold overdueWide
  dsimp only
  split
  · split
    · rw [noisePublish_frame, supraWindow_frame]
    · rw [supraWindow_frame]
  · split
    · rw [noisePublish_frame]
    · rfl

/-! ### All that is due -/

theorem overdueMatch_pqSets : (overdueMatch s).pqSets = s.pqSets := by
  unfold overdueMatch
  dsimp only
  rw [State.forEach_pqSets]
  intro p t
  split
  · rw [endBlock, useIfFree_pqSets, State.modPort_pqSets]
  · rfl

/-- What has settled by the sample leaves the sets idle. -/
theorem overdueSettle_idle {s : State} (h : ∀ b : Fin 2, idleSet s.pqSets[b]) (b : Fin 2) : idleSet (overdueSettle s).pqSets[b] := by
  have hset : (overdueSettle s).pqSets[b] = { s.pqSets[b] with settle := endSettle (s.pqSets[b]).settle } := Vector.getElem_map _ _
  rw [hset]
  exact h b

theorem dueMetrology_frame {s : State} (hc : ∀ c : Fin 24, (s.circuits[c]).due = .none) (hq : ∀ b : Fin 2, idleSet s.pqSets[b]) :
    (dueMetrology s).sampleFrame = s.sampleFrame := by
  have hframe : (overdueMatch (overdueTracers (overdueSettle s))).sampleFrame = s.sampleFrame := by
    rw [overdueMatch_frame, overdueTracers_frame, overdueSettle_frame]
  have hsets : (overdueMatch (overdueTracers (overdueSettle s))).pqSets = (overdueSettle s).pqSets := overdueMatch_pqSets _
  unfold dueMetrology
  split
  · generalize overdueMatch (overdueTracers (overdueSettle s)) = t at hframe hsets
    rw [overdueCircuits_idle (frame_circuits hframe ▸ hc), overdueWide_frame, overdueSets_idle (hsets ▸ overdueSettle_idle hq), hframe]
  · exact overdueSettle_frame s

/-- With no step pending, no close and nothing of a set due, what is overdue leaves the sample path. -/
theorem overdue_frame {s : State} (hstep : s.time.step = none) (hc : ∀ c : Fin 24, (s.circuits[c]).due = .none)
    (hq : ∀ b : Fin 2, idleSet s.pqSets[b]) : (overdue s).sampleFrame = s.sampleFrame := by
  rw [overdue_of_noStep hstep, overdueStores_frame, dueMetrology_frame hc hq]

/-- In a freeze only the settling ends. -/
theorem overdue_frozen {s : State} (hstep : s.time.step = none) (hf : s.hw.frozen = true) : overdue s = overdueSettle s := by
  have hm : s.metering = false := by simp [State.metering, hf]
  have hdue : dueMetrology s = overdueSettle s := if_neg (by simp [hm])
  rw [overdue_of_noStep hstep, hdue, overdueStores_frozen (overdueSettle s) hf]

end Sys2Proof.Machine
end

section
/-! The sample tick of a powered core: what each of its parts writes of ports, circuits, pulse counters, store and ring time (R19, R32, R41,
R44, R46, R68, R367, R465). -/

namespace Sys2Proof.Machine

variable (x : Samples) (s : State)

/-- The records that a sample tick advances and whose new values depend on the sample. -/
def tickFields (s : State) : Vector Port 24 × Vector Circuit 24 × Vector S0In 8 × Firn × Time := (s.ports, s.circuits, s.s0, s.firn, s.time)

theorem fields_eq_mk {s : State} {p : Vector Port 24} {c : Vector Circuit 24} {n : Vector S0In 8} {f : Firn} {r : Time} :
    tickFields s = (p, c, n, f, r) ↔ s.ports = p ∧ s.circuits = c ∧ s.s0 = n ∧ s.firn = f ∧ s.time = r := by
  simp only [tickFields, Prod.mk.injEq]

/-! ### What comes after the engines -/

theorem modPq_fields (f : PqUnit → PqUnit) : tickFields (s.modPq f) = tickFields s := rfl

theorem modPlc_fields (f : Plc → Plc) : tickFields (s.modPlc f) = tickFields s := rfl

theorem modDisp_fields (f : Display → Display) : tickFields (s.modDisp f) = tickFields s := rfl

theorem modPower_fields (f : Power → Power) : tickFields (s.modPower f) = tickFields s := rfl

theorem tickPaused_fields : tickFields (tickPaused s) = tickFields s := by
  unfold tickPaused
  split <;> rfl

theorem dropDebug_fields : tickFields (dropDebug s) = tickFields s := by
  unfold dropDebug
  split <;> rfl

theorem voidNonces_fields : tickFields (voidNonces s) = tickFields s := rfl

theorem takeLean_fields : tickFields (takeLean s) = tickFields s := by
  unfold takeLean
  split
  · rfl
  · extract_lets +lift st s₁ s₂
    have h₂ : tickFields s₂ = tickFields s := by
      rw [voidNonces_fields, dropDebug_fields, modPower_fields, modPower_fields]
    split
    · rfl
    · split
      · exact modPower_fields s _
      · split
        · rw [modDisp_fields, modPlc_fields, h₂]
        · rw [modDisp_fields, h₂]

theorem auxSync_fields : tickFields (auxSync s) = tickFields s := by
  unfold auxSync
  split
  · rfl
  · split
    · rfl
    · split <;> rfl

theorem noteHeads_fields : tickFields (noteHeads s) = tickFields s := rfl

/-! ### The engines -/

theorem noiseTick_fields : tickFields (noiseTick s) = tickFields s := by
  unfold noiseTick
  split
  · exact modPq_fields s _
  · rfl

theorem tickWide_fields (a b : List Int) : tickFields (tickWide a b s) = tickFields s := by
  unfold tickWide modemGap modemTick
  split
  · rw [modPlc_fields, modPq_fields]
  · dsimp only
    rw [modPlc_fields, noiseTick_fields, modPq_fields]

theorem tickFlicker_fields : tickFields (tickFlicker s) = tickFields s := rfl

theorem tickSets_fields : tickFields (s.forEach (fins 2) tickSet) = tickFields s := s.forEach_keeps tickFields _ _ fun _ _ => rfl

theorem circuitTick_totals (i : TickIn) (c : Circuit) : (circuitTick i c).totals = c.totals := by
  unfold circuitTick joinSample
  dsimp only
  split
  · rfl
  · rfl

theorem tickCircuit_totals (r : Circuit) : (tickCircuit s r).totals = r.totals := by
  unfold tickCircuit
  dsimp only
  split
  · rfl
  · rw [circuitTick_totals]

/-- A circuit that a freeze counts keeps its totals. -/
theorem ite_frozen_totals (P : Prop) [Decidable P] (r : Circuit) :
    (if P then { r with frozenCnt := r.frozenCnt + 1 } else r).totals = r.totals := by
  split <;> rfl

/-- The engines write circuits, each one from itself, and none of their totals: energy is booked at a close (R78). -/
theorem tickEngines_fields :
    ∃ f : Circuit → Circuit, (∀ r, (f r).totals = r.totals) ∧
      tickFields (tickEngines x s) = (s.ports, s.circuits.map f, s.s0, s.firn, s.time) := by
  unfold tickEngines
  split
  · refine ⟨tickCircuit (s.forEach (fins 2) tickSet), tickCircuit_totals _, ?_⟩
    have hsets := tickSets_fields s
    rw [tickWide_fields, tickFlicker_fields]
    obtain ⟨hports, hcircuits, hs0, hfirn, htime⟩ := fields_eq_mk.1 hsets
    simp only [tickFields, tickCircuits, hports, hcircuits, hs0, hfirn, htime]
  · split
    · exact ⟨_, fun r => ite_frozen_totals _ r, rfl⟩
    · exact ⟨id, fun _ => rfl, by rw [Vector.map_id]; rfl⟩

/-- Frozen, an enabled circuit only counts the sample (R68). -/
theorem tickEngines_frozen {s : State} (hon : s.coreOn = true) (hf : s.hw.frozen = true) {c : Fin 24}
    (hen : cirEn (s.circuits[c]).cfg = true) (hrun : (s.circuits[c]).stopped = false) :
    (tickEngines x s).circuits[c] = { s.circuits[c] with frozenCnt := (s.circuits[c]).frozenCnt + 1 } := by
  have hm : ¬ s.metering = true := by simp [State.metering, hf]
  rw [tickEngines, if_neg hm, if_pos (by simp [hon, hf])]
  simp only [Fin.getElem_fin, Vector.getElem_map]
  exact if_pos (by simpa using And.intro hen hrun)

/-! ### Ring time -/

/-- The head's clock moves its rate, not ring time. -/
theorem headTick_keeps (old : Nat) (isHead : Bool) (t : Time) :
    (headTick old isHead t).rt = t.rt ∧ (headTick old isHead t).ticks = t.ticks ∧ (headTick old isHead t).mode = t.mode ∧
      (headTick old isHead t).stepPull = t.stepPull ∧ (headTick old isHead t).offStep = t.offStep := by
  unfold headTick
  split <;> exact ⟨rfl, rfl, rfl, rfl, rfl⟩

theorem judgePhase_keeps (t : Time) : (judgePhase t).rt = t.rt ∧ (judgePhase t).ticks = t.ticks := by
  unfold judgePhase
  dsimp only
  split
  · exact ⟨rfl, rfl⟩
  · exact ⟨rfl, rfl⟩
  · split <;> exact ⟨rfl, rfl⟩
  · exact ⟨rfl, rfl⟩
  · exact ⟨rfl, rfl⟩
  · exact ⟨rfl, rfl⟩

/-- A step off the grid shows at the sample that follows it, but in HOLDOVER (R46, log row 65). -/
theorem judgePhase_offStep {t : Time} {d : Int} (hd : t.offStep = some d) (hm : t.mode ≠ .holdover) :
    (judgePhase t).mode = .pull ∧ (judgePhase t).stepPull = true ∧ (judgePhase t).offStep = none := by
  unfold judgePhase
  cases hmode : t.mode with
  | holdover => exact absurd hmode hm
  | pull => simp only [hd, and_self]
  | lock => simp only [hd, and_self]
  | free => simp only [hd, and_self]

theorem timeTick_moves (isHead : Bool) (t : Time) : (timeTick isHead t).rt = nextInstant t ∧ (timeTick isHead t).ticks = t.ticks + 1 := by
  obtain ⟨hrt, hticks, -, -, -⟩ := headTick_keeps (t.rt / nsUnits) isHead (judgePhase { t with rt := nextInstant t, ticks := t.ticks + 1 })
  obtain ⟨jrt, jticks⟩ := judgePhase_keeps { t with rt := nextInstant t, ticks := t.ticks + 1 }
  exact ⟨hrt.trans jrt, hticks.trans jticks⟩

theorem timeTick_offStep (isHead : Bool) {t : Time} {d : Int} (hd : t.offStep = some d) (hm : t.mode ≠ .holdover) :
    (timeTick isHead t).mode = .pull ∧ (timeTick isHead t).stepPull = true ∧ (timeTick isHead t).offStep = none := by
  obtain ⟨-, -, hmode, hpull, hoff⟩ :=
    headTick_keeps (t.rt / nsUnits) isHead (judgePhase { t with rt := nextInstant t, ticks := t.ticks + 1 })
  obtain ⟨jmode, jpull, joff⟩ := judgePhase_offStep (t := { t with rt := nextInstant t, ticks := t.ticks + 1 }) hd hm
  exact ⟨hmode.trans jmode, hpull.trans jpull, hoff.trans joff⟩

theorem shiftRt_zero (rt : Nat) : shiftRt rt 0 = rt := by
  simp [shiftRt]

/-- On its grid, ring time moves to the next instant of its mode. -/
theorem nextInstant_onGrid {t : Time} (h : t.offStep = none) : nextInstant t = instantAfter t.mode t.rt := by
  simp [nextInstant, Time.sampled, h, shiftRt_zero]

/-- Off it, the sampling follows the old grid up to the next sample (R46). -/
theorem nextInstant_offGrid {t : Time} {d : Int} (h : t.offStep = some d) :
    nextInstant t = shiftRt (instantAfter t.mode (shiftRt t.rt (-d))) d := by
  simp [nextInstant, Time.sampled, h]

/-! ### Channels -/

theorem balanceTick_eq (old : Nat) : ∃ r, balanceTick old s = { s with ring := r } := by
  unfold balanceTick
  dsimp only
  split
  · exact ⟨_, rfl⟩
  · exact ⟨s.ring, rfl⟩

theorem takeGrant_eq (ms : Nat) : ∃ r, takeGrant ms s = { s with ring := r } := by
  unfold takeGrant
  split
  · split
    · exact ⟨s.ring, rfl⟩
    · exact ⟨_, rfl⟩
  · exact ⟨s.ring, rfl⟩

/-- Ring time and its ring move, the rest waits for the sample. -/
theorem advance_eq : ∃ r, advance s = { s with time := timeTick s.ring.isHead s.time, ring := r } := by
  obtain ⟨r, hr⟩ := balanceTick_eq (s.modTime (timeTick s.ring.isHead)) s.gridNs
  obtain ⟨r', hr'⟩ := takeGrant_eq { s.modTime (timeTick s.ring.isHead) with ring := r }
    ({ s.modTime (timeTick s.ring.isHead) with ring := r } : State).nowMs
  refine ⟨r', ?_⟩
  unfold advance
  dsimp only
  rw [hr, hr']
  rfl

/-- The state whose sample the engines take, from the one with nothing overdue. -/
def channelTick (x : Samples) (s : State) : State := tickVolts x (tickPorts x (advance s))

theorem channelTick_keeps :
    (channelTick x s).circuits = s.circuits ∧ (channelTick x s).s0 = s.s0 ∧ (channelTick x s).firn = s.firn ∧
      (channelTick x s).hw = s.hw ∧ (channelTick x s).power = s.power := by
  obtain ⟨r, hr⟩ := advance_eq s
  simp only [channelTick, hr, tickVolts, tickPorts, and_self]

theorem channelTick_time : (channelTick x s).time = timeTick s.ring.isHead s.time := by
  obtain ⟨r, hr⟩ := advance_eq s
  simp only [channelTick, hr, tickVolts, tickPorts]

theorem path_ageTick (r : Port) : pathOfPort (ageTick r) = pathOfPort r := by
  unfold ageTick
  split <;> rfl

theorem blockSample_hist (r : Port) : (blockSample r).hist = r.hist := by
  unfold blockSample fitSample
  dsimp only
  split
  · rfl
  · split <;> rfl

theorem stitch_hist (r : Port) : (stitch r).1.hist = r.hist := blockSample_hist _

theorem tracerTick_hist (c : PortClock) (v : Rat) (r : Port) : (tracerTick c v r).hist = r.hist := rfl

theorem correct_hist (c : PortClock) (r : Port) (v : Rat) : (correct c r v).hist = r.hist := rfl

/-- A port with EN = 1 buffers its sample (R20). -/
theorem portTick_hist (c : PortClock) (y : PathSample) {r : Port} (h : portEn r.cfg = true) :
    (portTick c y r).hist = (y :: r.hist).take 9 := by
  obtain ⟨hcfg, hhist⟩ := Prod.mk.inj (path_ageTick r)
  have hen : portEn (ageTick r).cfg = true := by rw [hcfg, h]
  unfold portTick
  dsimp only
  rw [if_pos hen, ← hhist, correct_hist, tracerTick_hist, stitch_hist]

theorem missedPort_settle {r : Port} (h : portEn r.cfg = true) : (missedPort r).settle = 65 := by
  rw [missedPort, if_pos h]

theorem channelTick_port (p : Fin 24) :
    ∃ c, (channelTick x s).ports[p] = if s.stalled 0 then missedPort s.ports[p] else portTick c (sampleOf x p) s.ports[p] := by
  obtain ⟨r, hr⟩ := advance_eq s
  simp only [channelTick, hr, tickVolts, tickPorts, State.stalled, Fin.getElem_fin, Vector.getElem_ofFn]
  exact ⟨_, rfl⟩

/-- With MODQ running every enabled port buffers its sample (R19, R32). -/
theorem channelTick_hist {s : State} {p : Fin 24} (hq : s.stalled 0 = false) (hen : portEn (s.ports[p]).cfg = true) :
    ((channelTick x s).ports[p]).hist = (sampleOf x p :: (s.ports[p]).hist).take 9 := by
  obtain ⟨c, hc⟩ := channelTick_port x s p
  rw [hc, if_neg (by simp [hq]), portTick_hist c _ hen]

theorem channelTick_missed {s : State} {p : Fin 24} (hq : s.stalled 0 = true) (hen : portEn (s.ports[p]).cfg = true) :
    ((channelTick x s).ports[p]).settle = 65 := by
  obtain ⟨c, hc⟩ := channelTick_port x s p
  rw [hc, if_pos hq, missedPort_settle hen]

/-! ### Powered time and the pulse counters -/

theorem powerTime_within {f : Firn} (h : f.ptSub < 3999) : (powerTime f).ptSub = f.ptSub + 1 ∧ (powerTime f).ptCkpt = f.ptCkpt := by
  rw [powerTime, if_neg (by omega)]
  exact ⟨rfl, rfl⟩

theorem powerTime_eighth {f : Firn} (h : f.ptSub = 3999) : (powerTime f).ptSub = 0 ∧ (powerTime f).ptCkpt = satAdd f.ptCkpt 1 := by
  rw [powerTime, if_pos (by omega)]
  exact ⟨rfl, rfl⟩

/-- A sampled counter adds the edges since its last sample and acknowledges them (R367). -/
theorem sample_counts (st : Stamp) (i : S0In) :
    (i.sample st).total = i.total + (grayCount i.gray - grayCount i.sampled).setWidth 64 ∧ (i.sample st).acked = i.gray := by
  unfold S0In.sample
  dsimp only
  split <;> exact ⟨rfl, rfl⟩

end Sys2Proof.Machine
end

section
/-! O57, from what is overdue at a sample tick and what the tick then writes. -/

namespace Sys2Proof.Machine

variable (x : Samples) (s : State)

/-- The pulse counters are sampled after the store's counts have moved. -/
theorem tickS0_modFirn_fields (g : Firn → Firn) :
    tickFields (tickS0 (s.modFirn g)) = (s.ports, s.circuits, s.s0.map (S0In.sample s.gridStamp), g s.firn, s.time) := rfl

theorem sampleTick_fields :
    tickFields (sampleTick x s) =
      ((tickEngines x (channelTick x (overdue s))).ports, (tickEngines x (channelTick x (overdue s))).circuits,
        (tickEngines x (channelTick x (overdue s))).s0.map (S0In.sample (tickEngines x (channelTick x (overdue s))).gridStamp),
        powerTime (tickEngines x (channelTick x (overdue s))).firn, (tickEngines x (channelTick x (overdue s))).time) := by
  rw [sampleTick, noteHeads_fields, auxSync_fields, takeLean_fields, tickPaused_fields, tickS0_modFirn_fields, channelTick]

/-- A sample tick ends with the channels' and the engines' writes, powered time and the pulse counters sampled. -/
theorem sampleTick_writes :
    (sampleTick x s).ports = (channelTick x (overdue s)).ports ∧
      (sampleTick x s).circuits = (tickEngines x (channelTick x (overdue s))).circuits ∧
      (∃ st, (sampleTick x s).s0 = (overdue s).s0.map (S0In.sample st)) ∧
      (sampleTick x s).firn = powerTime (overdue s).firn ∧
      (sampleTick x s).time = timeTick (overdue s).ring.isHead (overdue s).time := by
  obtain ⟨-, hs0, hfirn, -, -⟩ := channelTick_keeps x (overdue s)
  obtain ⟨f, -, hengines⟩ := tickEngines_fields x (channelTick x (overdue s))
  obtain ⟨eports, -, es0, efirn, etime⟩ := fields_eq_mk.1 hengines
  obtain ⟨tports, tcircuits, ts0, tfirn, ttime⟩ := fields_eq_mk.1 (sampleTick_fields x s)
  rw [eports] at tports
  rw [es0, hs0] at ts0
  rw [efirn, hfirn] at tfirn
  rw [etime, channelTick_time] at ttime
  exact ⟨tports, tcircuits, ⟨_, ts0⟩, tfirn, ttime⟩

/-- No sample changes the totals of a circuit. -/
theorem sampleTick_totals (c : Fin 24) : ((sampleTick x s).circuits[c]).totals = ((overdue s).circuits[c]).totals := by
  obtain ⟨-, hcircuits, -⟩ := sampleTick_writes x s
  obtain ⟨kcircuits, -⟩ := channelTick_keeps x (overdue s)
  obtain ⟨f, htotals, hengines⟩ := tickEngines_fields x (channelTick x (overdue s))
  obtain ⟨-, ecircuits, -⟩ := fields_eq_mk.1 hengines
  rw [kcircuits] at ecircuits
  simp only [hcircuits, ecircuits, Fin.getElem_fin, Vector.getElem_map, htotals]

theorem exec_sampleTick_off {s : State} (h : s.coreOn = false) : exec (.sampleTick x) s = .next s := by
  show execSampleTick x s = _
  simp only [execSampleTick, h, Bool.false_eq_true, if_false]

theorem exec_sampleTick {s : State} (h : s.coreOn = true) : exec (.sampleTick x) s = .next (sampleTick x s) := by
  show execSampleTick x s = _
  simp only [execSampleTick, h, if_true]

/-! ### The frame of the sample path, port by port -/

theorem frame_port {s t : State} (h : t.sampleFrame = s.sampleFrame) (p : Fin 24) :
    (t.ports[p]).cfg = (s.ports[p]).cfg ∧ (t.ports[p]).hist = (s.ports[p]).hist := by
  have hpaths : t.ports.map pathOfPort = s.ports.map pathOfPort := congrArg SampleFrame.paths h
  have hp : pathOfPort t.ports[p] = pathOfPort s.ports[p] := by
    have := congrArg (fun v : Vector (Word × List PathSample) 24 => v[p.val]) hpaths
    simp only [Vector.getElem_map] at this
    exact this
  exact Prod.mk.inj hp

/-- Where ring time goes in the modes that stand on their grid, and in HOLDOVER (R41, R44, log row 21). -/
theorem instantAfter_grid (rt : Nat) {m : AlignMode} (h : m = .free ∨ m = .lock) : instantAfter m rt = gridUnits rt + tickUnits := by
  rcases h with rfl | rfl <;> rfl

/-! ### The clauses -/

section
variable {x s}

/-- The sample that follows a step off the grid (R46). -/
theorem sampleTick_offStep {d : Int} (hstep : s.time.step = none) (hd : s.time.offStep = some d) (hm : s.time.mode ≠ .holdover) :
    (sampleTick x s).time.mode = .pull ∧ (sampleTick x s).time.stepPull = true ∧ (sampleTick x s).time.offStep = none ∧
      (sampleTick x s).time.rt = shiftRt (instantAfter s.time.mode (shiftRt s.time.rt (-d))) d := by
  obtain ⟨hrt, hmode, hoff, -⟩ := overdue_time hstep
  obtain ⟨-, -, -, -, htime⟩ := sampleTick_writes x s
  obtain ⟨tmode, tpull, toff⟩ := timeTick_offStep (overdue s).ring.isHead (hoff.trans hd) (hmode ▸ hm)
  obtain ⟨trt, -⟩ := timeTick_moves (overdue s).ring.isHead (overdue s).time
  rw [htime]
  refine ⟨tmode, tpull, toff, ?_⟩
  rw [trt, nextInstant_offGrid (hoff.trans hd), hmode, hrt]

/-- The instant of a sample on the grid that its sampling follows (R41, R44). -/
theorem sampleTick_onGrid (hstep : s.time.step = none) (hoff : s.time.offStep = none) :
    (sampleTick x s).time.ticks = s.time.ticks + 1 ∧ (sampleTick x s).time.rt = instantAfter s.time.mode s.time.rt := by
  obtain ⟨hrt, hmode, hoff', hticks⟩ := overdue_time hstep
  obtain ⟨-, -, -, -, htime⟩ := sampleTick_writes x s
  obtain ⟨trt, tticks⟩ := timeTick_moves (overdue s).ring.isHead (overdue s).time
  rw [htime, tticks, trt, nextInstant_onGrid (hoff'.trans hoff), hmode, hrt, hticks]
  exact ⟨rfl, rfl⟩

section
variable (hframe : (overdue s).sampleFrame = s.sampleFrame)
include hframe

theorem sampleTick_counters (i : Fin 8) :
    ((sampleTick x s).s0[i]).total = (s.s0[i]).total + (grayCount (s.s0[i]).gray - grayCount (s.s0[i]).sampled).setWidth 64 ∧
      ((sampleTick x s).s0[i]).acked = (s.s0[i]).gray := by
  obtain ⟨-, -, ⟨st, hs0⟩, -, -⟩ := sampleTick_writes x s
  have hkept : (overdue s).s0 = s.s0 := congrArg SampleFrame.s0 hframe
  have hi : (sampleTick x s).s0[i] = (s.s0[i]).sample st := by
    simp only [hs0, hkept, Fin.getElem_fin, Vector.getElem_map]
  rw [hi]
  exact sample_counts st _

theorem overdue_stalled (k : Nat) : (overdue s).stalled k = s.stalled k :=
  congrArg (fun c : Cdc => c.stall.getLsbD k) (congrArg SampleFrame.cdc hframe)

theorem sampleTick_hist (hq : s.stalled 0 = false) (p : Fin 24) (hen : portEn (s.ports[p]).cfg = true) :
    ((sampleTick x s).ports[p]).hist = (sampleOf x p :: (s.ports[p]).hist).take 9 := by
  obtain ⟨hports, -⟩ := sampleTick_writes x s
  obtain ⟨hcfg, hhist⟩ := frame_port hframe p
  have h := channelTick_hist x ((overdue_stalled hframe 0).trans hq) (p := p) (by rw [hcfg, hen])
  rw [hhist] at h
  simpa only [hports] using h

theorem sampleTick_missed (hq : s.stalled 0 = true) (p : Fin 24) (hen : portEn (s.ports[p]).cfg = true) :
    ((sampleTick x s).ports[p]).settle = 65 := by
  obtain ⟨hports, -⟩ := sampleTick_writes x s
  obtain ⟨hcfg, -⟩ := frame_port hframe p
  have h := channelTick_missed x ((overdue_stalled hframe 0).trans hq) (p := p) (by rw [hcfg, hen])
  simpa only [hports] using h

/-- Powered time counts in 2^-3 s, 4,000 samples (R465). -/
theorem sampleTick_powered :
    (s.firn.ptSub < 3999 → (sampleTick x s).firn.ptSub = s.firn.ptSub + 1 ∧ (sampleTick x s).firn.ptCkpt = s.firn.ptCkpt) ∧
      (s.firn.ptSub = 3999 → (sampleTick x s).firn.ptSub = 0 ∧ (sampleTick x s).firn.ptCkpt = satAdd s.firn.ptCkpt 1) := by
  obtain ⟨-, -, -, hfirn, -⟩ := sampleTick_writes x s
  have hsub : (overdue s).firn.ptSub = s.firn.ptSub := congrArg SampleFrame.ptSub hframe
  have hckpt : (overdue s).firn.ptCkpt = s.firn.ptCkpt := congrArg SampleFrame.ptCkpt hframe
  rw [hfirn, ← hsub, ← hckpt]
  exact ⟨powerTime_within, powerTime_eighth⟩

end

/-- Frozen, the circuits count the sample and do nothing else (R68). -/
theorem sampleTick_frozen (hon : s.coreOn = true) (hstep : s.time.step = none) (hf : s.hw.frozen = true) (c : Fin 24)
    (hen : cirEn (s.circuits[c]).cfg = true) (hrun : (s.circuits[c]).stopped = false) :
    (sampleTick x s).circuits[c] = { s.circuits[c] with frozenCnt := (s.circuits[c]).frozenCnt + 1 } := by
  obtain ⟨-, hcircuits, -⟩ := sampleTick_writes x s
  rw [overdue_frozen hstep hf] at hcircuits
  obtain ⟨kcircuits, -, -, khw, kpower⟩ := channelTick_keeps x (overdueSettle s)
  have hon' : (channelTick x (overdueSettle s)).coreOn = true := by
    simp only [State.coreOn, State.firnOn, kpower]
    exact hon
  have hcir : (channelTick x (overdueSettle s)).circuits[c] = s.circuits[c] := by
    simp only [kcircuits]
    rfl
  have h := tickEngines_frozen x hon' (by rw [khw]; exact hf) (c := c) (by rw [hcir, hen]) (by rw [hcir, hrun])
  rw [hcir] at h
  simpa only [hcircuits] using h

end

/-- Settles O57: with nothing of metrology due, what is overdue leaves the sample path, and each part of the tick writes its own. -/
theorem sampleTickAdvances : Obligations.SampleTickAdvances := by
  intro x s
  refine ⟨exec_sampleTick_off x, fun d hon hstep hd hm => ⟨_, exec_sampleTick x hon, sampleTick_offStep hstep hd hm⟩,
    fun hon hstep hoff hc hq => ⟨_, exec_sampleTick x hon, ?_⟩⟩
  have hframe := overdue_frame hstep hc hq
  obtain ⟨hticks, hrt⟩ := sampleTick_onGrid (x := x) hstep hoff
  obtain ⟨hwithin, heighth⟩ := sampleTick_powered (x := x) hframe
  refine ⟨hticks, fun hm => hrt.trans (instantAfter_grid _ hm), fun hm => hrt.trans (by rw [hm]; rfl), sampleTick_counters hframe,
    sampleTick_hist hframe, sampleTick_missed hframe, hwithin, heighth, fun hf => sampleTick_frozen hon hstep hf, fun c => ?_⟩
  rw [sampleTick_totals]
  simp only [frame_circuits hframe]

end Sys2Proof.Machine
end

section
/-! What lies beyond metrology: a cycle's close and the events and windows of power quality write ports, voltages, circuits, CF outputs, energy,
calibration and power quality, and leave supplies, stores, clocks, ring time, mailbox and the other units as they are. -/

namespace Sys2Proof.Machine

/-- The parts of State that neither a close nor a window writes; of the ring, whether this unit is its head. -/
structure BeyondMetrology where
  power : Power
  sec : Security
  hw : HwRegs
  mb : Mailbox
  firn : Firn
  clk : Clocks
  time : Time
  isHead : Bool
  plc : Plc
  aux : Aux
  s0 : Vector S0In 8
  disp : Display
  cdc : Cdc

def State.beyond (s : State) : BeyondMetrology :=
  { power := s.power, sec := s.sec, hw := s.hw, mb := s.mb, firn := s.firn, clk := s.clk, time := s.time, isHead := s.ring.isHead,
    plc := s.plc, aux := s.aux, s0 := s.s0, disp := s.disp, cdc := s.cdc }

variable (s : State)

/-- What every step of a fold keeps beyond metrology, the fold keeps. -/
theorem forEach_beyond {α : Type} (l : List α) {f : α → State → State} (h : ∀ a t, (f a t).beyond = t.beyond) :
    (s.forEach l f).beyond = s.beyond := s.forEach_keeps State.beyond l f h

/-! ### Single records -/

@[simp] theorem modPort_beyond (p : Fin 24) (f : Port → Port) : (s.modPort p f).beyond = s.beyond := rfl
@[simp] theorem modVolt_beyond (v : Fin 8) (f : Volt → Volt) : (s.modVolt v f).beyond = s.beyond := rfl
@[simp] theorem modCir_beyond (c : Fin 24) (f : Circuit → Circuit) : (s.modCir c f).beyond = s.beyond := rfl
@[simp] theorem modCf_beyond (o : Fin 8) (f : CfOut → CfOut) : (s.modCf o f).beyond = s.beyond := rfl
@[simp] theorem modCal_beyond (f : Cal → Cal) : (s.modCal f).beyond = s.beyond := rfl
@[simp] theorem modSet_beyond (b : Fin 2) (f : PqSet → PqSet) : (s.modSet b f).beyond = s.beyond := rfl
@[simp] theorem modPq_beyond (f : PqUnit → PqUnit) : (s.modPq f).beyond = s.beyond := rfl
@[simp] theorem modMp_beyond (f : Mp → Mp) : (s.modMp f).beyond = s.beyond := rfl
@[simp] theorem postEvent_beyond : s.postEvent.beyond = s.beyond := rfl
@[simp] theorem draw_beyond : s.draw.2.beyond = s.beyond := rfl

/-- A fold that changes some CF outputs. -/
theorem forEach_cf_beyond (l : List (Fin 8)) (P : Fin 8 → State → Prop) [∀ o t, Decidable (P o t)] (f : State → Fin 8 → CfOut → CfOut) :
    (s.forEach l (fun o t => if P o t then t.modCf o (f t o) else t)).beyond = s.beyond := by
  refine forEach_beyond s l fun o t => ?_
  split
  · exact modCf_beyond t o _
  · rfl

/-! ### The close of a cycle -/

@[simp] theorem takePortCfg_beyond (n : Nat) (p : Fin 24) : (takePortCfg n p s).beyond = s.beyond := by
  unfold takePortCfg
  split
  · rfl
  · exact modPort_beyond s p _

@[simp] theorem takePortCfgs_beyond (c : Fin 24) : (takePortCfgs c s).beyond = s.beyond := by
  rw [takePortCfgs, modCir_beyond]
  exact forEach_beyond s _ fun p t => takePortCfg_beyond t 64 p

@[simp] theorem takeMatches_beyond (c : Fin 24) : (takeMatches c s).beyond = s.beyond := by
  rw [takeMatches, modCir_beyond]
  exact forEach_beyond s _ fun _ _ => rfl

@[simp] theorem takeTrims_beyond (c : Fin 24) : (takeTrims c s).beyond = s.beyond := by
  rw [takeTrims, modCir_beyond]
  exact forEach_beyond s _ fun _ _ => rfl

@[simp] theorem swapCircuitCal_beyond (c : Fin 24) : (swapCircuitCal c s).beyond = s.beyond := by
  unfold swapCircuitCal
  split
  · rfl
  · rw [modCir_beyond, modCal_beyond]
    exact forEach_beyond s _ fun _ _ => rfl

@[simp] theorem finishSetTxn_beyond : (finishSetTxn s).beyond = s.beyond := by
  unfold finishSetTxn
  split
  · rfl
  · rw [modCal_beyond]
    exact forEach_beyond s _ fun _ _ => rfl

@[simp] theorem swapSetCal_beyond (c : Fin 24) : (swapSetCal c s).beyond = s.beyond := by
  unfold swapSetCal
  dsimp only
  split
  · rfl
  · rw [finishSetTxn_beyond, modCal_beyond, modCir_beyond]

@[simp] theorem takeScaling_beyond (c : Fin 24) : (takeScaling c s).beyond = s.beyond := modCir_beyond s c _

@[simp] theorem abortOnMap_beyond (c : Fin 24) (old new : Word) : (abortOnMap c old new s).beyond = s.beyond := by
  unfold abortOnMap
  split
  · rfl
  · exact modCal_beyond s _

@[simp] theorem markArriving_beyond (l : List (Fin 24)) : (markArriving l s).beyond = s.beyond :=
  forEach_beyond s _ fun _ _ => rfl

@[simp] theorem takeCirCfg_beyond (c : Fin 24) : (takeCirCfg c s).beyond = s.beyond := by
  unfold takeCirCfg
  extract_lets old new released s₁ s₂ s₃ s₄
  have h₄ : s₄.beyond = s₃.beyond := forEach_beyond s₃ _ fun p t => (takePortCfg_beyond _ 64 p).trans (modPort_beyond t p _)
  have h : s₄.beyond = s.beyond := by
    rw [h₄, markArriving_beyond, modCir_beyond, abortOnMap_beyond]
  split
  · rfl
  · split
    · rw [takePortCfgs_beyond, h]
    · exact h

@[simp] theorem takeCf_beyond (c : Fin 24) : (takeCf c s).beyond = s.beyond := forEach_cf_beyond s _ _ _

@[simp] theorem takeClear_beyond (c : Fin 24) : (takeClear c s).beyond = s.beyond := by
  unfold takeClear
  split
  · rw [forEach_cf_beyond, modCir_beyond]
  · rfl

@[simp] theorem takeRetired_beyond (c : Fin 24) : (takeRetired c s).beyond = s.beyond := by
  unfold takeRetired
  split
  · rw [forEach_cf_beyond, modCir_beyond]
  · rfl

@[simp] theorem takeChanges_beyond (c : Fin 24) : (takeChanges c s).beyond = s.beyond := by
  simp only [takeChanges, takeRetired_beyond, takeCf_beyond, takeScaling_beyond, takeCirCfg_beyond, takePortCfgs_beyond, swapSetCal_beyond,
    swapCircuitCal_beyond, takeTrims_beyond, takeMatches_beyond, takeClear_beyond]

@[simp] theorem balAdd_beyond (c : Fin 24) : (balAdd c s).beyond = s.beyond := rfl

@[simp] theorem cfShareAll_beyond (c : Fin 24) (l : Nat) : (cfShareAll c l s).beyond = s.beyond := forEach_cf_beyond s _ _ _

@[simp] theorem bookClose_beyond (c : Fin 24) (nozc pfail : Bool) : (bookClose c nozc pfail s).beyond = s.beyond := by
  rw [bookClose, balAdd_beyond, cfShareAll_beyond]
  rfl

@[simp] theorem recorrectPorts_beyond (l : List (Fin 24)) : (recorrectPorts l s).beyond = s.beyond :=
  forEach_beyond s _ fun _ _ => rfl

@[simp] theorem startCycle_beyond (c : Fin 24) : (startCycle c s).beyond = s.beyond := by
  unfold startCycle
  dsimp only
  split
  · rw [modCir_beyond, recorrectPorts_beyond, modCir_beyond]
  · rfl

@[simp] theorem closeCircuit_beyond (c : Fin 24) : (closeCircuit c s).beyond = s.beyond := by
  rw [closeCircuit, startCycle_beyond, takeChanges_beyond, modCir_beyond, bookClose_beyond]

@[simp] theorem overdueCircuits_beyond : (overdueCircuits s).beyond = s.beyond := by
  refine forEach_beyond s _ fun c t => ?_
  split
  · rfl
  · exact closeCircuit_beyond t c

end Sys2Proof.Machine
end

section
/-! The close of a cycle: what the changes that take effect at it leave of CYCLES, flags, accumulators and a pending clear (R56, R71, R78, R83). -/

namespace Sys2Proof.Machine

/-- What a circuit has booked, and whether a clear of it is pending. -/
def booksOf (r : Circuit) : Totals × Bool := (r.totals, r.clear)

theorem totals_of_books {r : Circuit} {b : Totals × Bool} (h : booksOf r = b) : r.totals = b.1 := congrArg Prod.fst h

/-- From s to t only circuit c has changed, and nothing of what g sees of it. -/
def OnlyCir {β : Type} (g : Circuit → β) (c : Fin 24) (s t : State) : Prop :=
  ∃ r : Circuit, g r = g s.circuits[c] ∧ t.circuits = s.circuits.set c r

variable {β γ : Type} {g : Circuit → β} {c : Fin 24} {s t u : State}

namespace OnlyCir

theorem refl : OnlyCir g c s s := ⟨s.circuits[c], rfl, (Vector.set_getElem_self ..).symm⟩

theorem of_circuits (h : t.circuits = s.circuits) : OnlyCir g c s t := by
  obtain ⟨r, hr, hs⟩ := refl (g := g) (c := c) (s := s)
  exact ⟨r, hr, h.trans hs⟩

theorem modCir {f : Circuit → Circuit} (h : t.circuits = s.circuits) (hf : ∀ r, g (f r) = g r) : OnlyCir g c s (t.modCir c f) :=
  ⟨f s.circuits[c], hf _, by simp only [State.modCir_circuits, h, vmod]; rfl⟩

theorem seen (h : OnlyCir g c s t) : g t.circuits[c] = g s.circuits[c] := by
  obtain ⟨r, hr, ht⟩ := h
  rw [← hr]
  simp only [ht, Fin.getElem_fin, Vector.getElem_set_self]

theorem other (h : OnlyCir g c s t) {d : Fin 24} (hd : d ≠ c) : t.circuits[d] = s.circuits[d] := by
  obtain ⟨r, -, ht⟩ := h
  simp only [ht, Fin.getElem_fin]
  exact Vector.getElem_set_ne _ _ (Fin.val_ne_of_ne hd.symm)

theorem trans (h : OnlyCir g c s t) (h' : OnlyCir g c t u) : OnlyCir g c s u := by
  obtain ⟨r, hr, ht⟩ := h
  obtain ⟨r', hr', hu⟩ := h'
  refine ⟨r', ?_, ?_⟩
  · rw [hr', ← hr]
    simp only [ht, Fin.getElem_fin, Vector.getElem_set_self]
  · rw [hu, ht, Vector.set_set]

theorem congr (h : OnlyCir g c s t) (hu : u.circuits = t.circuits) : OnlyCir g c s u := h.trans (.of_circuits hu)

theorem mono {k : β → γ} (h : OnlyCir g c s t) : OnlyCir (fun r => k (g r)) c s t := by
  obtain ⟨r, hr, ht⟩ := h
  exact ⟨r, congrArg k hr, ht⟩

/-- No circuit has what g sees of it changed. -/
theorem seen_all (h : OnlyCir g c s t) (d : Fin 24) : g t.circuits[d] = g s.circuits[d] := by
  by_cases hd : d = c
  · subst hd
    exact h.seen
  · rw [h.other hd]

end OnlyCir

/-- What a change before the circuit's own configuration keeps: what is booked, and the configuration in effect. -/
def booksCfg (r : Circuit) : (Totals × Bool) × Word := (booksOf r, r.cfg)

/-- A fold that changes some CF outputs leaves the circuits. -/
theorem forEach_cf_circuits (s : State) (l : List (Fin 8)) (P : Fin 8 → State → Prop) [∀ o t, Decidable (P o t)]
    (f : State → Fin 8 → CfOut → CfOut) :
    (s.forEach l (fun o t => if P o t then t.modCf o (f t o) else t)).circuits = s.circuits := by
  refine State.forEach_keeps s State.circuits l _ fun o t => ?_
  split <;> rfl

theorem takePortCfg_circuits (n : Nat) (p : Fin 24) (s : State) : (takePortCfg n p s).circuits = s.circuits := by
  unfold takePortCfg
  split <;> rfl

theorem takePortCfgs_only : OnlyCir booksCfg c s (takePortCfgs c s) := by
  rw [takePortCfgs]
  exact .modCir (State.forEach_keeps s State.circuits _ _ fun p t => takePortCfg_circuits 64 p t) fun _ => rfl

theorem takeMatches_only : OnlyCir booksCfg c s (takeMatches c s) := by
  rw [takeMatches]
  exact .modCir (State.forEach_keeps s State.circuits _ _ fun _ _ => rfl) fun _ => rfl

theorem takeTrims_only : OnlyCir booksCfg c s (takeTrims c s) := by
  rw [takeTrims]
  exact .modCir (State.forEach_keeps s State.circuits _ _ fun _ _ => rfl) fun _ => rfl

theorem swapCircuitCal_only : OnlyCir booksCfg c s (swapCircuitCal c s) := by
  unfold swapCircuitCal
  split
  · exact .refl
  · refine .modCir ?_ fun _ => rfl
    rw [State.modCal_circuits]
    exact State.forEach_keeps s State.circuits _ _ fun _ _ => rfl

theorem finishSetTxn_circuits (s : State) : (finishSetTxn s).circuits = s.circuits := by
  unfold finishSetTxn
  split
  · rfl
  · exact State.forEach_keeps s State.circuits _ _ fun _ _ => rfl

theorem swapSetCal_only : OnlyCir booksCfg c s (swapSetCal c s) := by
  unfold swapSetCal
  dsimp only
  split
  · exact .refl
  · refine .congr ?_ ((finishSetTxn_circuits _).trans (State.modCal_circuits _ _))
    exact .modCir rfl fun _ => rfl

theorem takeScaling_only : OnlyCir booksOf c s (takeScaling c s) := by
  rw [takeScaling]
  exact .modCir rfl fun _ => rfl

theorem takeCf_only : OnlyCir g c s (takeCf c s) := .of_circuits (forEach_cf_circuits s _ _ _)

theorem takeRetired_only : OnlyCir booksOf c s (takeRetired c s) := by
  unfold takeRetired
  split
  · refine .congr ?_ (forEach_cf_circuits _ _ _ _)
    exact .modCir rfl fun _ => rfl
  · exact .refl

/-! ### A circuit's own configuration -/

theorem abortOnMap_circuits (old new : Word) : (abortOnMap c old new s).circuits = s.circuits := by
  unfold abortOnMap
  split <;> rfl

/-- Every circuit books as before. -/
def SameBooks (s t : State) : Prop := ∀ d : Fin 24, booksOf t.circuits[d] = booksOf s.circuits[d]

theorem SameBooks.trans (h : SameBooks s t) (h' : SameBooks t u) : SameBooks s u := fun d => (h' d).trans (h d)

theorem SameBooks.of_circuits (h : t.circuits = s.circuits) : SameBooks s t := fun d => by rw [h]

theorem OnlyCir.books (h : OnlyCir booksOf c s t) : SameBooks s t := h.seen_all

theorem OnlyCir.books_of_cfg (h : OnlyCir booksCfg c s t) : OnlyCir booksOf c s t := h.mono (k := Prod.fst)

theorem markArriving_books (l : List (Fin 24)) : SameBooks s (markArriving l s) := by
  refine State.forEach_inv s (SameBooks s) _ _ (fun e t ht => ht.trans (OnlyCir.books (c := e) ?_)) fun _ => rfl
  exact .modCir rfl fun _ => rfl

/-- With no port released no mark moves. -/
theorem markArriving_nil : (markArriving [] s).circuits = s.circuits := by
  refine State.forEach_keeps s State.circuits _ _ fun e t => ?_
  rw [State.modCir_circuits]
  exact vmod_eq_of_fixed rfl

theorem takeCirCfg_books : SameBooks s (takeCirCfg c s) := by
  unfold takeCirCfg
  extract_lets old new released s₁ s₂ s₃ s₄
  have h₁ : s₁.circuits = s.circuits := abortOnMap_circuits old new
  have h₂ : OnlyCir booksOf c s s₂ := by
    refine .modCir h₁ fun r => ?_
    dsimp only
    split <;> split <;> (try split) <;> (try split) <;> rfl
  have h₄ : s₄.circuits = s₃.circuits := State.forEach_keeps s₃ State.circuits _ _ fun p t => takePortCfg_circuits 64 p _
  have h : SameBooks s s₄ := h₂.books.trans ((markArriving_books released).trans (.of_circuits h₄))
  split
  · exact fun _ => rfl
  · split
    · exact h.trans takePortCfgs_only.books_of_cfg.books
    · exact h

/-- A disabled circuit holds no port, and its change of configuration touches no other circuit. -/
theorem takeCirCfg_only (hd : cirEn (s.circuits[c]).cfg = false) : OnlyCir booksOf c s (takeCirCfg c s) := by
  unfold takeCirCfg
  extract_lets old new released s₁ s₂ s₃ s₄
  have hnone : released = [] := by
    simp only [released, old, cirPorts, hd, Bool.false_eq_true, if_false, List.filter_nil]
  have h₁ : s₁.circuits = s.circuits := abortOnMap_circuits old new
  have h₂ : OnlyCir booksOf c s s₂ := by
    refine .modCir h₁ fun r => ?_
    dsimp only
    split <;> split <;> (try split) <;> (try split) <;> rfl
  have h₃ : s₃.circuits = s₂.circuits := by
    simp only [s₃, hnone, markArriving_nil]
  have h₄ : s₄.circuits = s₃.circuits := State.forEach_keeps s₃ State.circuits _ _ fun p t => takePortCfg_circuits 64 p _
  have h : OnlyCir booksOf c s s₄ := h₂.trans (.of_circuits (h₄.trans h₃))
  split
  · exact .refl
  · split
    · exact h.trans takePortCfgs_only.books_of_cfg
    · exact h

/-! ### All the changes of a close -/

/-- A pending clear zeroes the accumulators and is done (R83). -/
def clearCircuit (r : Circuit) : Circuit :=
  if r.clear then { r with clear := false, totals := { r.totals with acc := Vector.replicate 10 0 } } else r

/-- What is booked once a pending clear has been made. -/
def clearBooks (b : Totals × Bool) : Totals × Bool := (if b.2 then { b.1 with acc := Vector.replicate 10 0 } else b.1, false)

theorem booksOf_clearCircuit (r : Circuit) : booksOf (clearCircuit r) = clearBooks (booksOf r) := by
  cases h : r.clear <;> simp only [clearCircuit, clearBooks, booksOf, h, if_true, if_false, Bool.false_eq_true]

theorem takeClear_circuits : (takeClear c s).circuits = vmod s.circuits c clearCircuit := by
  unfold takeClear
  split
  next h =>
    rw [forEach_cf_circuits, State.modCir_circuits]
    exact congrArg (s.circuits.set c.val) (if_pos h).symm
  next h => exact (vmod_eq_of_fixed (if_neg h)).symm

theorem takeClear_seen : (takeClear c s).circuits[c] = clearCircuit s.circuits[c] := by
  simp only [takeClear_circuits, Fin.getElem_fin, getElem_vmod_self]

theorem takeClear_other {d : Fin 24} (hd : d ≠ c) : (takeClear c s).circuits[d] = s.circuits[d] := by
  simp only [takeClear_circuits]
  exact getElem_vmod_of_ne _ _ hd

theorem clearCircuit_cfg (r : Circuit) : (clearCircuit r).cfg = r.cfg := by
  unfold clearCircuit
  split <;> rfl

/-- What comes before the circuit's own configuration. -/
theorem changes_before_cfg :
    OnlyCir booksCfg c s (takePortCfgs c (swapSetCal c (swapCircuitCal c (takeTrims c (takeMatches c s))))) :=
  takeMatches_only.trans (takeTrims_only.trans (swapCircuitCal_only.trans (swapSetCal_only.trans takePortCfgs_only)))

/-- What comes after it. -/
theorem changes_after_cfg : OnlyCir booksOf c s (takeRetired c (takeCf c (takeScaling c s))) :=
  takeScaling_only.trans (takeCf_only.trans takeRetired_only)

/-- Beyond the clear, no change of a close books anything. -/
theorem takeChanges_books : SameBooks (takeClear c s) (takeChanges c s) :=
  changes_before_cfg.books_of_cfg.books.trans (takeCirCfg_books.trans changes_after_cfg.books)

theorem takeChanges_seen : booksOf (takeChanges c s).circuits[c] = clearBooks (booksOf s.circuits[c]) :=
  (takeChanges_books c).trans ((congrArg booksOf takeClear_seen).trans (booksOf_clearCircuit _))

theorem takeChanges_other_books {d : Fin 24} (hd : d ≠ c) : booksOf (takeChanges c s).circuits[d] = booksOf s.circuits[d] :=
  (takeChanges_books d).trans (congrArg booksOf (takeClear_other hd))

/-- The changes of a disabled circuit touch no other one. -/
theorem takeChanges_other {d : Fin 24} (hoff : cirEn (s.circuits[c]).cfg = false) (hd : d ≠ c) :
    (takeChanges c s).circuits[d] = s.circuits[d] := by
  have hbefore := changes_before_cfg (c := c) (s := takeClear c s)
  have hkept : cirEn (booksCfg (takeClear c s).circuits[c]).2 = false := by
    rw [takeClear_seen, booksCfg, clearCircuit_cfg, hoff]
  rw [← hbefore.seen] at hkept
  have h := (hbefore.books_of_cfg.trans (takeCirCfg_only hkept)).trans changes_after_cfg
  exact (h.other hd).trans (takeClear_other hd)

end Sys2Proof.Machine
end

section
/-! The close of a cycle: what it books, and how the next one starts (R57 to R71, R76, R78). -/

namespace Sys2Proof.Machine

variable {c : Fin 24} {s t : State}

/-! ### Booking -/

/-- Bit 0 of FLAGS is NOZC (R70). -/
theorem cycleFlags_nozc (r : Circuit) (nozc pfail : Bool) (v : CycleVals) (cr : Creep) :
    (cycleFlags r nozc pfail v cr).getLsbD 0 = nozc := by
  rw [cycleFlags, BitVec.getLsbD_ofNat, Nat.testBit_zero, decide_eq_true (by decide), Bool.true_and]
  cases nozc with
  | false =>
    rw [show bitN false = 0 from rfl]
    exact decide_eq_false (by omega)
  | true =>
    rw [show bitN true = 1 from rfl]
    exact decide_eq_true (by omega)

theorem accAdd_toNat (a : BitVec 96) (n : Nat) : (accAdd a n).toNat = (a.toNat + n) % 2 ^ 96 := by
  simp [accAdd, BitVec.toNat_add]

/-- The circuit after its cycle is booked on the present sample. -/
def bookedCircuit (nozc pfail : Bool) (s : State) (r : Circuit) : Circuit :=
  (bookCycle nozc pfail (!nozc && !pfail && !r.fixedMode && !r.next.isPartial) s.gridStamp r).1

theorem bookClose_circuits (nozc pfail : Bool) :
    (bookClose c nozc pfail s).circuits = s.circuits.set c (bookedCircuit nozc pfail s s.circuits[c]) := by
  rw [bookClose]
  exact forEach_cf_circuits _ _ _ _

theorem bookClose_seen (nozc pfail : Bool) : (bookClose c nozc pfail s).circuits[c] = bookedCircuit nozc pfail s s.circuits[c] := by
  simp only [bookClose_circuits, Fin.getElem_fin, Vector.getElem_set_self]

theorem bookClose_other (nozc pfail : Bool) {d : Fin 24} (hd : d ≠ c) : (bookClose c nozc pfail s).circuits[d] = s.circuits[d] := by
  simp only [bookClose_circuits, Fin.getElem_fin]
  exact Vector.getElem_set_ne _ _ (Fin.val_ne_of_ne hd.symm)

/-! ### The next cycle -/

theorem booksOf_stepIfRestarted (x : TickIn) (r : Circuit) : booksOf (stepIfRestarted x r) = booksOf r := by
  unfold stepIfRestarted
  split <;> rfl

theorem booksOf_joinSample (x : TickIn) (r : Circuit) : booksOf (joinSample x r) = booksOf r := rfl

theorem stepIfRestarted_start (x : TickIn) (r : Circuit) :
    (stepIfRestarted x r).startT = r.startT ∧ (stepIfRestarted x r).due = r.due ∧ (stepIfRestarted x r).len = r.len := by
  unfold stepIfRestarted
  split <;> exact ⟨rfl, rfl, rfl⟩

theorem joinSample_start (x : TickIn) (r : Circuit) :
    (joinSample x r).startT = r.startT ∧ (joinSample x r).due = r.due ∧ (joinSample x r).len = r.len + 1 := ⟨rfl, rfl, rfl⟩

theorem recorrectPorts_circuits (l : List (Fin 24)) : (recorrectPorts l s).circuits = s.circuits :=
  State.forEach_keeps s State.circuits _ _ fun _ _ => rfl

theorem startCycle_only : OnlyCir booksOf c s (startCycle c s) := by
  unfold startCycle
  extract_lets held s₁ s₂
  have h₁ : OnlyCir booksOf c s s₁ := .modCir rfl fun _ => rfl
  split
  · refine h₁.trans (.modCir (recorrectPorts_circuits _) fun r => ?_)
    rw [booksOf_joinSample, booksOf_stepIfRestarted]
  · exact h₁

/-- A circuit whose next cycle begins at an instant, without a sample yet. -/
def openedCircuit (at_ : Stamp) (r : Circuit) : Circuit :=
  { r with len := 0, sums := Vector.replicate 4 .zero, clipSeen := false, unalignedSeen := false, due := .none, held := false, startT := at_ }

theorem openedCircuit_start (at_ : Stamp) (r : Circuit) :
    (openedCircuit at_ r).startT = at_ ∧ (openedCircuit at_ r).due = .none ∧ (openedCircuit at_ r).len = 0 := ⟨rfl, rfl, rfl⟩

/-- The next cycle begins with the sample that the close held back, or with none (R63). -/
theorem startCycle_seen :
    (startCycle c s).circuits[c] = openedCircuit s.gridStamp s.circuits[c] ∨
      ∃ x, (startCycle c s).circuits[c] = joinSample x (stepIfRestarted x (openedCircuit s.gridStamp s.circuits[c])) := by
  unfold startCycle
  extract_lets held s₁ s₂
  have h₁ : s₁.circuits[c] = openedCircuit s.gridStamp s.circuits[c] := vmod_get_self _ _ _
  have h₂ : s₂.circuits[c] = s₁.circuits[c] := by
    simp only [s₂, recorrectPorts_circuits]
  split
  · refine .inr ⟨circuitIn s₂ (s₂.circuits[c]).cfg, (vmod_get_self _ _ _).trans ?_⟩
    simp only [h₂, h₁]
  · exact .inl h₁

/-- The cycle after a close starts at the closing tick's grid point, with the sample of that tick or none (R63). -/
theorem startCycle_starts :
    ((startCycle c s).circuits[c]).startT = s.gridStamp ∧ ((startCycle c s).circuits[c]).due = .none ∧
      ((startCycle c s).circuits[c]).len ≤ 1 := by
  obtain ⟨hstart, hdue, hlen⟩ := openedCircuit_start s.gridStamp s.circuits[c]
  rcases startCycle_seen (c := c) (s := s) with h | ⟨x, h⟩
  · rw [h, hstart, hdue, hlen]
    exact ⟨rfl, rfl, Nat.zero_le 1⟩
  · obtain ⟨jstart, jdue, jlen⟩ := joinSample_start x (stepIfRestarted x (openedCircuit s.gridStamp s.circuits[c]))
    obtain ⟨rstart, rdue, rlen⟩ := stepIfRestarted_start x (openedCircuit s.gridStamp s.circuits[c])
    rw [h, jstart, jdue, jlen, rstart, rdue, rlen, hstart, hdue, hlen]
    exact ⟨rfl, rfl, le_rfl⟩

/-! ### The close -/

theorem gridStamp_of_beyond (h : t.beyond = s.beyond) : t.gridStamp = s.gridStamp := by
  have htime : t.time = s.time := congrArg BeyondMetrology.time h
  have hhead : t.ring.isHead = s.ring.isHead := congrArg BeyondMetrology.isHead h
  simp only [State.gridStamp, State.gridNs, State.stampAt, State.ringQual, htime, hhead]

/-- A circuit between its close and its next cycle: no flag is due, and the mode is the next one's. -/
def betweenCycles (kind : CloseDue) (r : Circuit) : Circuit :=
  nextMode kind { r with next := { newcal := false, newcfg := false, matched := false, isPartial := false } }

theorem booksOf_betweenCycles (kind : CloseDue) (r : Circuit) : booksOf (betweenCycles kind r) = booksOf r := rfl

/-- The state in which the next cycle of a closing circuit starts: its cycle booked and the changes in effect. -/
def closedState (c : Fin 24) (s : State) : State :=
  takeChanges c ((bookClose c (decide ((s.circuits[c]).due = .timeout)) false s).modCir c
    (betweenCycles (s.circuits[c]).due))

theorem closeCircuit_eq : closeCircuit c s = startCycle c (closedState c s) := rfl

theorem closedState_gridStamp : (closedState c s).gridStamp = s.gridStamp :=
  gridStamp_of_beyond (by rw [closedState, takeChanges_beyond, modCir_beyond, bookClose_beyond])

/-- What a circuit has booked after its close. -/
theorem closeCircuit_seen :
    booksOf (closeCircuit c s).circuits[c] =
      clearBooks (booksOf (bookedCircuit (decide ((s.circuits[c]).due = .timeout)) false s s.circuits[c])) := by
  rw [closeCircuit_eq, startCycle_only.seen, closedState, takeChanges_seen, State.modCir_circuits, vmod_get_self,
    booksOf_betweenCycles, bookClose_seen]

theorem closeCircuit_other {d : Fin 24} (hd : d ≠ c) : booksOf (closeCircuit c s).circuits[d] = booksOf s.circuits[d] := by
  rw [closeCircuit_eq, startCycle_only.other hd, closedState, takeChanges_other_books hd, State.modCir_circuits,
    getElem_vmod_of_ne _ _ hd, bookClose_other _ _ hd]

/-- The next cycle of a circuit that has closed. -/
theorem closeCircuit_starts :
    ((closeCircuit c s).circuits[c]).startT = s.gridStamp ∧ ((closeCircuit c s).circuits[c]).due = .none ∧
      ((closeCircuit c s).circuits[c]).len ≤ 1 := by
  rw [closeCircuit_eq, ← closedState_gridStamp (c := c)]
  exact startCycle_starts

/-! ### The closes -/

theorem exec_close {i : Instr} (hm : s.metering = true)
    (hi : (i = .cycleClose c ∧ (s.circuits[c]).due = .crossing) ∨ (i = .nozcTimeout c ∧ (s.circuits[c]).due = .timeout) ∨
      (i = .fixedBoundary c ∧ (s.circuits[c]).due = .boundary)) : exec i s = .next (closeCircuit c s) := by
  rcases hi with ⟨rfl, hdue⟩ | ⟨rfl, hdue⟩ | ⟨rfl, hdue⟩
  · show execCycleClose c s = _
    simp only [execCycleClose, hm, hdue, decide_true, Bool.and_self, if_true]
  · show execNozcTimeout c s = _
    simp only [execNozcTimeout, hm, hdue, decide_true, Bool.and_self, if_true]
  · show execFixedBoundary c s = _
    simp only [execFixedBoundary, hm, hdue, decide_true, Bool.and_self, if_true]

/-- A clear that is done leaves CYCLES and FLAGS. -/
theorem clearBooks_totals (r : Circuit) :
    (clearBooks (booksOf r)).1.cycles = r.totals.cycles ∧ (clearBooks (booksOf r)).1.flags = r.totals.flags ∧
      (clearBooks (booksOf r)).1.acc = if r.clear then Vector.replicate 10 0 else r.totals.acc := by
  cases h : r.clear <;> simp only [clearBooks, booksOf, h, if_true, if_false, Bool.false_eq_true, and_self]

/-- What a close books of a circuit (R70, R71, R78). -/
theorem bookedCircuit_books (nozc pfail : Bool) (r : Circuit) :
    (bookedCircuit nozc pfail s r).clear = r.clear ∧ (bookedCircuit nozc pfail s r).totals.cycles = r.totals.cycles + 1 ∧
      (bookedCircuit nozc pfail s r).totals.flags.getLsbD 0 = nozc ∧
      ∀ k : Fin 10, ((bookedCircuit nozc pfail s r).totals.acc[k]).toNat =
        ((r.totals.acc[k]).toNat + (routeCycle r.ke r.len (cycleVals r) (creepOf r.nl (cycleVals r)))[k]) % 2 ^ 96 := by
  refine ⟨rfl, rfl, cycleFlags_nozc _ _ _ _ _, fun k => ?_⟩
  simp only [bookedCircuit, bookCycle, Fin.getElem_fin, Vector.getElem_ofFn]
  exact accAdd_toNat _ _

/-- The totals of a circuit that has closed. -/
theorem closeCircuit_totals :
    ((closeCircuit c s).circuits[c]).totals =
      (clearBooks (booksOf (bookedCircuit (decide ((s.circuits[c]).due = .timeout)) false s s.circuits[c]))).1 :=
  totals_of_books closeCircuit_seen

/-- No other circuit's totals change. -/
theorem closeCircuit_totals_of_ne {d : Fin 24} (hd : d ≠ c) : ((closeCircuit c s).circuits[d]).totals = (s.circuits[d]).totals :=
  totals_of_books (closeCircuit_other hd)

/-- Settles O38: the cycle is booked before the changes of the close, of which only a pending clear touches what is booked. -/
theorem cycleClosesBookTotals : Obligations.CycleClosesBookTotals := by
  intro c s hm _ i hi
  obtain ⟨hclear, hcycles, hnozc, hacc⟩ := bookedCircuit_books (s := s) (decide ((s.circuits[c]).due = .timeout)) false s.circuits[c]
  obtain ⟨ccycles, cflags, cacc⟩ := clearBooks_totals
    (bookedCircuit (decide ((s.circuits[c]).due = .timeout)) false s s.circuits[c])
  rw [← closeCircuit_totals] at ccycles cflags cacc
  obtain ⟨hstart, hdue, hlen⟩ := closeCircuit_starts (c := c) (s := s)
  have hother (d : Fin 24) (hd : d ≠ c) := closeCircuit_totals_of_ne (s := s) hd
  refine ⟨closeCircuit c s, exec_close hm hi, ?_⟩
  generalize closeCircuit c s = t at *
  generalize bookedCircuit (decide ((s.circuits[c]).due = .timeout)) false s s.circuits[c] = b at *
  refine ⟨ccycles.trans hcycles, hdue, hstart, hlen, ?_, fun hc k => ?_, fun hc => ?_, hother⟩
  · rw [cflags, hnozc]
  · rw [← hacc k, cacc, if_neg (by rw [hclear, hc]; decide)]
  · rw [cacc, if_pos (by rw [hclear, hc])]

end Sys2Proof.Machine
end

section
/-! The energy group (R56, R60, R74 to R84, R321). -/

namespace Sys2Proof.Machine

variable {t : Fin 64} {c : Cmd} {s : State} {k : Fin 24}

/-! ### Readings -/

theorem runCycleRead_some (hk : payField c 0 1 = k.val + 1) :
    runCycleRead (cmdIn t c s) s = okWith ((cirBlock s k).take 48) s := by
  simp only [runCycleRead, p1_cmdIn, hk, num24_succ]

theorem runCycleBlocks_ok (h : payField c 0 4 < 2 ^ 24) :
    runCycleBlocks (cmdIn t c s) s =
      .done .ok (leBytes 1 (maskPorts (payField c 0 4)).length) ((maskPorts (payField c 0 4)).flatMap (cirBlock s)) s := by
  simp only [runCycleBlocks, p4_cmdIn]
  exact if_neg (Nat.not_le.2 h)

/-- A command's snapshot shows the totals after the copy of a boundary image (R80, R315). -/
theorem mpImage_cmdSnapshot (s : State) : mpImage (cmdSnapshot s) = (copyBoundary s).circuits.map (fun r => r.totals) := rfl

theorem copyBoundary_of_none (h : s.clk.boundary = none) : copyBoundary s = s := by
  simp only [copyBoundary, h]

theorem runViewRead_some (hk : payField c 0 1 = k.val + 1) :
    runViewRead (cmdIn t c s) s =
      okWith (viewPayload (cmdSnapshot s).energy.mpLatch.seq ((copyBoundary s).circuits[k]).wrap ((copyBoundary s).circuits[k]).totals)
        ((cmdSnapshot s).modCir k (fun r => { r with wrap := Vector.replicate 10 0 })) := by
  simp only [runViewRead, p1_cmdIn, hk, num24_succ, mpImage_cmdSnapshot, Fin.getElem_fin, Vector.getElem_map]
  rfl

theorem runStatRead_some (hk : payField c 0 1 = k.val + 1) :
    runStatRead (cmdIn t c s) s =
      okWith (leBytes 4 (cirStat s.circuits[k]) ++ leBytes 2 (s.circuits[k]).creepP.toNat ++ leBytes 2 (s.circuits[k]).creepQ.toNat ++
          leBytes 4 (s.circuits[k]).creepS.toNat)
        (s.modCir k (fun r => { r with unassigned := 0, creepP := 0, creepQ := 0, creepS := 0 })) := by
  simp only [runStatRead, p1_cmdIn, hk, num24_succ]

/-! ### CLEAR_TOTALS -/

/-- A circuit of which a clear is pending. -/
def askClear (r : Circuit) : Circuit := { r with clear := true }

theorem runClearTotals_some (hk : payField c 0 1 = k.val + 1) :
    runClearTotals (cmdIn t c s) s = okWith [] (takeIfDisabled k (s.modCir k askClear)) := by
  simp only [runClearTotals, p1_cmdIn, hk, num24_succ]
  rfl

/-- A change of a circuit that runs waits for its close (R53). -/
theorem takeIfDisabled_running (hen : cirEn (s.circuits[k]).cfg = true) (hrun : (s.circuits[k]).stopped = false) :
    takeIfDisabled k s = s := by
  simp only [takeIfDisabled, hen, hrun, Bool.not_false, Bool.and_self, if_true]

theorem takeIfDisabled_off (hoff : cirEn (s.circuits[k]).cfg = false) : takeIfDisabled k s = takeChanges k s := by
  simp only [takeIfDisabled, hoff, Bool.false_and, Bool.false_eq_true, if_false]

/-- A clear asked of a disabled circuit is made at once, and no other circuit changes (R53, R83). -/
theorem clear_at_once (hoff : cirEn (s.circuits[k]).cfg = false) :
    booksOf (takeIfDisabled k (s.modCir k askClear)).circuits[k] =
        ({ (s.circuits[k]).totals with acc := Vector.replicate 10 0 }, false) ∧
      ∀ j : Fin 24, j ≠ k → (takeIfDisabled k (s.modCir k askClear)).circuits[j] = s.circuits[j] := by
  have hk : (s.modCir k askClear).circuits[k] = askClear s.circuits[k] := vmod_get_self _ _ _
  have hoff' : cirEn ((s.modCir k askClear).circuits[k]).cfg = false := by rw [hk]; exact hoff
  rw [takeIfDisabled_off hoff']
  refine ⟨?_, fun j hj => (takeChanges_other hoff' hj).trans (getElem_vmod_of_ne _ _ hj)⟩
  rw [takeChanges_seen, hk]
  rfl

/-- Settles O20: each reading is its body's answer, and a clear is a change of the circuit like any other. -/
theorem energyCommandsTakeEffect : Obligations.EnergyCommandsTakeEffect := by
  refine ⟨fun t c s => ⟨copyBoundary_of_none, fun k h hk => ?_, fun h hm => ?_, fun h => ?_, fun k h hk => ?_, fun k h hk => ?_, fun h => ?_⟩,
    fun t c s k h hk => ⟨fun hen hrun => ?_, fun hoff => ?_⟩⟩
  · exact exec_done (body := runCycleRead) rfl rfl h (runCycleRead_some hk)
  · exact exec_done (body := runCycleBlocks) rfl rfl h (runCycleBlocks_ok hm)
  · exact exec_done (body := runSnapRead) rfl rfl h rfl
  · exact exec_done (body := runViewRead) rfl rfl h (runViewRead_some hk)
  · exact exec_done (body := runStatRead) rfl rfl h (runStatRead_some hk)
  · exact exec_done (body := runDirEvents) rfl rfl h rfl
  · have hk' : (s.modCir k askClear).circuits[k] = askClear s.circuits[k] := vmod_get_self _ _ _
    refine exec_done (body := runClearTotals) rfl rfl h ?_
    rw [runClearTotals_some hk, takeIfDisabled_running (by rw [hk']; exact hen) (by rw [hk']; exact hrun)]
    rfl
  · obtain ⟨hbooks, hothers⟩ := clear_at_once hoff
    obtain ⟨htotals, hclear⟩ := Prod.mk.inj hbooks
    refine ⟨_, exec_done (body := runClearTotals) rfl rfl h (runClearTotals_some hk), ?_, hclear, hothers⟩
    rw [htotals]

end Sys2Proof.Machine
end

section
/-! The aux group: readings, configuration, CF outputs, and the injected conversion (R86, R87, R328, R356 to R370, R463). -/

namespace Sys2Proof.Machine

variable {t : Fin 64} {c : Cmd} {s : State}

@[simp] theorem p2_cmdIn (off : Nat) : p2 (cmdIn t c s) off = payField c off 2 := rfl
@[simp] theorem p8_cmdIn (off : Nat) : p8 (cmdIn t c s) off = payField c off 8 := rfl

/-- A number that names an index is that index. -/
theorem ofNat_val {n : Nat} [NeZero n] (k : Fin n) : Fin.ofNat n k.val = k := Fin.ext (Nat.mod_eq_of_lt k.isLt)

/-! ### Pulse inputs and CF outputs -/

section
variable {n : Fin 8} (hn : payField c 0 1 = n.val)
include hn

theorem runS0Read_some :
    runS0Read (cmdIn t c s) s = okWith (s0Payload s.s0[n]) (s.modS0 n (fun r => { r with overrun := false })) := by
  have hlt := n.isLt
  simp only [runS0Read, p1_cmdIn, hn, ofNat_val]
  exact if_neg (by omega)

theorem runCfRead_some : runCfRead (cmdIn t c s) s = okWith (cfPayload s.cfs[n]) s := by
  have hlt := n.isLt
  simp only [runCfRead, p1_cmdIn, hn, ofNat_val]
  exact if_neg (by omega)

theorem runS0Cfg_stores (hen : payField c 1 1 ≤ 1) (hlo : 10 ≤ payField c 2 2) (hhi : payField c 2 2 ≤ 20000) :
    runS0Cfg (cmdIn t c s) s = .store (.s0Cfg n (payField c 1 1 == 1) (BitVec.ofNat 16 (payField c 2 2))) s := by
  have hlt := n.isLt
  simp only [runS0Cfg, p1_cmdIn, p2_cmdIn, hn, ofNat_val]
  exact if_neg (by omega)

theorem runCfWrite_eq :
    runCfWrite (cmdIn t c s) s =
      if cfWriteOk s (payField c 4 4) (payField c 8 8) then
        .store (.cf n (BitVec.ofNat 32 (payField c 4 4)) (BitVec.ofNat 64 (payField c 8 8))) s
      else fail .range s := by
  have hlt := n.isLt
  simp only [runCfWrite, p1_cmdIn, p4_cmdIn, p8_cmdIn, hn, ofNat_val]
  cases cfWriteOk s (payField c 4 4) (payField c 8 8) with
  | true => exact if_neg (by simp only [Bool.not_true, Bool.false_eq_true, or_false]; omega)
  | false => exact if_pos (.inr rfl)

end

theorem runCfRead_range (h : 7 < payField c 0 1) : runCfRead (cmdIn t c s) s = fail .range s := by
  simp only [runCfRead, p1_cmdIn, if_pos h]

theorem runS0Cfg_range (h : payField c 2 2 < 10 ∨ 20000 < payField c 2 2) : runS0Cfg (cmdIn t c s) s = fail .range s := by
  simp only [runS0Cfg, p1_cmdIn, p2_cmdIn]
  exact if_pos (.inr (.inr h))

/-! ### Sequences and windows -/

theorem runAuxSeq_stores (h0 : payField c 0 1 ≤ 1) (h1 : 1 ≤ payField c 1 1) (h16 : payField c 1 1 ≤ 16) (h2 : payField c 2 1 ≤ 1)
    (hlist : ∀ b ∈ ((dPayload c.desc).drop 4).take (payField c 1 1), b.toNat ≤ 15)
    (hlo : payField c 1 1 * convTime (payField c 2 1 == 1) ≤ payField c 20 4) (hhi : payField c 20 4 ≤ 60000000) :
    runAuxSeq (cmdIn t c s) s =
      .store (.auxSeq (payField c 0 1 == 1) (payField c 2 1 == 1) (((dPayload c.desc).drop 4).take (payField c 1 1))
        (BitVec.ofNat 32 (payField c 20 4))) s := by
  have hpay : (cmdIn t c s).pay = dPayload c.desc := rfl
  have hany : ¬ (((dPayload c.desc).drop 4).take (payField c 1 1)).any (fun b => decide (15 < b.toNat)) = true := fun h => by
    obtain ⟨b, hb, hgt⟩ := List.any_eq_true.1 h
    have := hlist b hb
    have := of_decide_eq_true hgt
    omega
  simp only [runAuxSeq, p1_cmdIn, p4_cmdIn, hpay]
  refine if_neg ?_
  rw [not_or, not_or, not_or, not_or, not_or, not_or]
  exact ⟨by omega, by omega, by omega, by omega, hany, by omega, by omega⟩

section
variable {n : Fin 16} (hn : payField c 0 1 = n.val)
include hn

theorem runAuxWin_stores (hen : payField c 1 1 ≤ 1) (hle : payField c 4 2 ≤ payField c 6 2) :
    runAuxWin (cmdIn t c s) s =
      .store (.auxWin n (payField c 1 1 == 1) (BitVec.ofNat 16 (payField c 4 2)) (BitVec.ofNat 16 (payField c 6 2))) s := by
  have hlt := n.isLt
  simp only [runAuxWin, p1_cmdIn, p2_cmdIn, hn, ofNat_val]
  exact if_neg (by omega)

theorem runAuxInject_holds : runAuxInject (cmdIn t c s) s = .hold (injectConv (.inject t) n s) := by
  have hlt := n.isLt
  simp only [runAuxInject, p1_cmdIn, hn, ofNat_val]
  exact if_neg (by omega)

end

theorem runAuxWin_range (h : payField c 6 2 < payField c 4 2) : runAuxWin (cmdIn t c s) s = fail .range s := by
  simp only [runAuxWin, p1_cmdIn, p2_cmdIn]
  exact if_pos (.inr (.inr h))

theorem runAuxInject_range (h : 15 < payField c 0 1) : runAuxInject (cmdIn t c s) s = fail .range s := by
  simp only [runAuxInject, p1_cmdIn, if_pos h]

/-! ### The injected conversion (R358, R361) -/

theorem satAdd_zero {w : Nat} (x : BitVec w) : satAdd x 0 = x := by
  have := x.isLt
  rw [satAdd, Nat.add_zero, Nat.min_eq_left (by omega), BitVec.ofNat_toNat, BitVec.setWidth_eq]

/-- A command that the MP takes finds the core powered. -/
theorem coreOn_of_takes {row : CmdRow} (h : Takes row t c s) : s.coreOn = true := by
  obtain ⟨-, -, h, -⟩ := h
  simp only [startable, State.mpRuns, Bool.and_eq_true] at h
  tauto

theorem auxPowerUp_powered {now : Nat} {a : Aux} (h : a.powered = true) : auxPowerUp now a = a := by
  simp only [auxPowerUp, h, if_true]

/-- PD_AUX stays on for a conversion that a command waits for (R365). -/
theorem auxWanted_inject {l : List Conv} {x : Conv} {u : Fin 64} (hp : s.aux.pending = l ++ [x]) (hx : x.src = .inject u) :
    auxWanted s = true := by
  simp only [auxWanted, hp, List.any_append, List.any_cons, List.any_nil, hx, Bool.or_true, Bool.or_false]

/-- The conversion that AUX_INJECT asks for. -/
def injected (u : Fin 64) (n : Fin 16) (late : Bool) : Conv := { src := .inject u, input := n, late := late, waited := false }

/-- A converter with one more conversion that waits. -/
def askConv (x : Conv) (a : Aux) : Aux := { a with pending := a.pending ++ [x] }

/-- With PD_AUX on, an injected conversion joins those that wait, and the converter goes on where its clock runs. -/
theorem injectConv_aux (u : Fin 64) (n : Fin 16) (hon : s.coreOn = true) (hp : s.aux.powered = true) :
    (injectConv (.inject u) n s).aux =
      if s.stalled 10 then askConv (injected u n s.aux.cal) s.aux
      else auxNext s.time.ticks (decide (s.power.state = .run)) (askConv (injected u n s.aux.cal) s.aux) := by
  have hask : injectConv (.inject u) n s = auxSync (s.modAux (askConv (injected u n s.aux.cal))) := by
    simp only [injectConv, injected, askConv, State.modAux, auxPowerUp_powered hp, hp, Bool.not_true, Bool.or_false]
  have hon' : (s.modAux (askConv (injected u n s.aux.cal))).coreOn = true := hon
  have hwant : auxWanted (s.modAux (askConv (injected u n s.aux.cal))) = true :=
    auxWanted_inject rfl rfl
  rw [hask, auxSync, hon', hwant]
  simp only [Bool.not_true, Bool.false_eq_true, if_false, if_true, State.modAux_aux]
  rw [auxPowerUp_powered (by exact hp)]
  rfl

/-- While a calibration runs no conversion starts (R361). -/
theorem auxNext_cal {now : Nat} {regular : Bool} {a : Aux} (h : a.cal = true) : auxNext now regular a = a := by
  simp only [auxNext, h, Bool.or_true, if_true]

/-- A conversion that finds a calibration running waits, and is late (R361). -/
theorem injectConv_late (u : Fin 64) (n : Fin 16) (hon : s.coreOn = true) (hp : s.aux.powered = true) (hcal : s.aux.cal = true) :
    (injectConv (.inject u) n s).aux.pending = s.aux.pending ++ [injected u n true] := by
  have hcal' : (askConv (injected u n s.aux.cal) s.aux).cal = true := hcal
  rw [injectConv_aux u n hon hp, auxNext_cal hcal', ite_self, askConv, hcal]

/-- An idle converter starts the conversion at once (R358). -/
theorem injectConv_starts (u : Fin 64) (n : Fin 16) (hon : s.coreOn = true) (hp : s.aux.powered = true) (hcal : s.aux.cal = false)
    (hstall : s.stalled 10 = false) (hrun : s.aux.running = none) (hpend : s.aux.pending = []) (hmode : s.aux.lowPowerPend = none) :
    (injectConv (.inject u) n s).aux = { s.aux with running := some (injected u n false) } := by
  have hnext : nextConv [injected u n false] = some (injected u n false) := rfl
  rw [injectConv_aux u n hon hp, hstall, hcal, askConv, hpend]
  simp only [auxNext, takeMode, hp, hcal, hrun, hmode, hnext, startConv, List.nil_append, List.erase_cons_head, List.map_nil,
    List.filter_nil, List.length_nil, satAdd_zero, Option.isSome_none, Bool.not_true, Bool.or_false, Bool.false_eq_true, if_false]
  rw [← hpend]

/-- Requests of the converter write nothing but the converter. -/
theorem auxSync_eq (s : State) : ∃ a, auxSync s = s.modAux (fun _ => a) := by
  unfold auxSync
  split
  · exact ⟨s.aux, rfl⟩
  · split
    · exact ⟨_, rfl⟩
    · split
      · exact ⟨_, rfl⟩
      · exact ⟨s.aux, rfl⟩

theorem injectConv_eq (src : ConvSource) (n : Fin 16) (s : State) : ∃ a, injectConv src n s = s.modAux (fun _ => a) := by
  obtain ⟨a, ha⟩ := auxSync_eq (s.modAux (fun a =>
    { auxPowerUp s.time.ticks a with
      pending := (auxPowerUp s.time.ticks a).pending ++ [{ src := src, input := n, late := s.aux.cal || !s.aux.powered, waited := false }] }))
  exact ⟨a, ha⟩

/-- A command whose body waits for other hardware is held. -/
theorem exec_hold {row : CmdRow} {body : CmdIn → State → Reply} {i : Instr} {s' : State} (hi : exec i s = .next (runCmd row body t s))
    (hc : row.clocks = false) (h : Takes row t c s) (hb : body (cmdIn t c s) s = .hold s') : exec i s = .next (holdCmd t s') := by
  rw [exec_takes hi hc h, hb]
  rfl

/-- AUX_INJECT is held; the converter is as the request leaves it (R362). -/
theorem exec_auxInject {n : Fin 16} (h : Takes rowAuxInject t c s) (hn : payField c 0 1 = n.val) :
    ∃ s', exec (.auxInject t) s = .next s' ∧
      s'.mb.tags[t] = some { c with started := true, waiting := true, startedAt := some s.time.ticks } ∧
      s'.aux = (injectConv (.inject t) n s).aux := by
  refine ⟨_, exec_hold (body := runAuxInject) rfl rfl h (runAuxInject_holds hn), ?_, rfl⟩
  obtain ⟨a, ha⟩ := injectConv_eq (.inject t) n s
  obtain ⟨htag, -⟩ := h
  rw [ha]
  refine (vmod_get_self s.mb.tags t _).trans ?_
  rw [htag]
  rfl

/-- Settles O32: the configuration is checked before its store is asked for, and AUX_INJECT is held until its conversion's result. -/
theorem auxCommandsTakeEffect : Obligations.AuxCommandsTakeEffect := by
  refine ⟨fun t c s => ⟨fun h => ?_, fun n h hn => ?_, fun n h hn => ?_, fun h hr => ?_⟩,
    fun t c s => ⟨fun h hf h0 h1 h16 h2 hlist hlo hhi => ?_, fun n h hf hn hen => ⟨fun hle => ?_, fun hlt => ?_⟩,
      fun n h hn hp hcal => ?_, fun n h hn hp hcal hstall hrun hpend hmode => ?_, fun h hr => ?_,
      fun n h hf hn hen => ⟨fun hlo hhi => ?_, fun hr => ?_⟩, fun n h hf hn => ⟨fun hok => ?_, fun hok => ?_⟩⟩⟩
  · exact exec_done (body := runAuxRead) rfl rfl h rfl
  · exact exec_done (body := runS0Read) rfl rfl h (runS0Read_some hn)
  · exact exec_done (body := runCfRead) rfl rfl h (runCfRead_some hn)
  · exact exec_done (body := runCfRead) rfl rfl h (runCfRead_range hr)
  · exact exec_store (body := runAuxSeq) rfl rfl h hf (runAuxSeq_stores h0 h1 h16 h2 hlist hlo hhi)
  · exact exec_store (body := runAuxWin) rfl rfl h hf (runAuxWin_stores hn hen hle)
  · exact exec_done (body := runAuxWin) rfl rfl h (runAuxWin_range hlt)
  · have hon := coreOn_of_takes h
    obtain ⟨s', hexec, htag, haux⟩ := exec_auxInject h hn
    exact ⟨s', hexec, htag, by rw [haux, injectConv_late t n hon hp hcal]; rfl⟩
  · have hon := coreOn_of_takes h
    obtain ⟨s', hexec, htag, haux⟩ := exec_auxInject h hn
    exact ⟨s', hexec, htag, by rw [haux, injectConv_starts t n hon hp hcal hstall hrun hpend hmode]; rfl⟩
  · exact exec_done (body := runAuxInject) rfl rfl h (runAuxInject_range hr)
  · exact exec_store (body := runS0Cfg) rfl rfl h hf (runS0Cfg_stores hn hen hlo hhi)
  · exact exec_done (body := runS0Cfg) rfl rfl h (runS0Cfg_range hr)
  · exact exec_store (body := runCfWrite) rfl rfl h hf ((runCfWrite_eq hn).trans (if_pos hok))
  · exact exec_done (body := runCfWrite) rfl rfl h ((runCfWrite_eq hn).trans (if_neg (by rw [hok]; decide)))

end Sys2Proof.Machine
end

section
/-! Writes of the direct registers and of the doorbell (R80, R284 to R291, R299). -/

namespace Sys2Proof.Machine

variable {s : State}

/-! ### Register writes -/

theorem exec_regWrite_plain (addr : Byte) {data : List Byte} (hon : s.power.state ≠ .off) (h4 : data.length = 4) :
    exec (.regWrite addr data none) s = .next (writeReg addr.toNat (leNat data) (sendNothing s)) := by
  have hspi : spiOn s = true := decide_eq_true hon
  show execRegWrite addr data none s = _
  simp only [execRegWrite, hspi, writeCheck, Bool.not_true, Bool.false_eq_true, if_false, h4, Nat.lt_irrefl, List.take_of_length_le h4.le]

theorem exec_regWrite_short (addr : Byte) {data : List Byte} (hon : s.power.state ≠ .off) (h4 : data.length < 4) :
    exec (.regWrite addr data none) s = .next (sendNothing s) := by
  have hspi : spiOn s = true := decide_eq_true hon
  show execRegWrite addr data none s = _
  simp only [execRegWrite, hspi, writeCheck, Bool.not_true, Bool.false_eq_true, if_false, h4, if_true]

/-- A CRC-form register write whose check value does not match (R284). -/
theorem writeCheck_crcBad (addr : Byte) (data : List Byte) {v : Option (BitVec 16)} (hv : v ≠ some (crc16 ([0x82, addr, 3] ++ data))) :
    writeCheck 0x02 [addr] data (some 4) (some { count := 3, check := v }) = .crcBad := by
  have hbad : ¬ (v = some (crc16 (leBytes 1 (0x02 + 0x80) ++ [addr] ++ [3] ++ data)) ∧ data.length = (3 : Byte).toNat + 1) := fun h => hv h.1
  simp only [writeCheck, if_neg hbad]
  rfl

theorem exec_regWrite_crcBad (addr : Byte) (data : List Byte) {v : Option (BitVec 16)} (hon : s.power.state ≠ .off)
    (hv : v ≠ some (crc16 ([0x82, addr, 3] ++ data))) :
    exec (.regWrite addr data (some { count := 3, check := v })) s = .next (crcFail (sendNothing s)) := by
  have hspi : spiOn s = true := decide_eq_true hon
  show execRegWrite addr data _ s = _
  simp only [execRegWrite, hspi, writeCheck_crcBad addr data hv, Bool.not_true, Bool.false_eq_true, if_false]

/-- The doorbell takes both of its indices where the core is powered (R286, R291). -/
theorem writeReg_doorbell (n : Nat) (hon : s.coreOn = true) :
    writeReg 0x0C n s = writeRspCi (BitVec.ofNat 8 (n / 2 ^ 24)) (writeCmdPi (BitVec.ofNat 8 n) s) := by
  have hav : regAvail s 0x0C = true := hon
  simp only [writeReg, hav]
  rfl

theorem powered_of_coreOn (h : s.coreOn = true) : s.power.state ≠ .off := by
  intro hoff
  simp only [State.coreOn, State.firnOn, hoff] at h
  exact absurd h (by simp)

/-! ### The snapshot trigger -/

theorem exec_trigger (hon : s.power.state ≠ .off) : exec .trigger s = .next (triggerSnap s) := by
  have hspi : spiOn s = true := decide_eq_true hon
  show execTrigger s = _
  simp only [execTrigger, hspi, if_true]

/-! ### The doorbell (R291, R299) -/

theorem exec_cmdPiWrite (v : Byte) (hon : s.coreOn = true) : exec (.cmdPiWrite v) s = .next (writeCmdPi v s) := by
  show execCmdPiWrite v s = _
  simp only [execCmdPiWrite, hon, if_true]

theorem exec_rspCiWrite (v : Byte) (hon : s.coreOn = true) : exec (.rspCiWrite v) s = .next (writeRspCi v s) := by
  show execRspCiWrite v s = _
  simp only [execRspCiWrite, hon, if_true]

/-- CMD_PI moves forward, at most 16 slots ahead of CMD_CI. -/
theorem writeCmdPi_ok {v : Byte} (hne : v ≠ s.hw.cmdPi) (hin : (v - s.hw.cmdCi).toNat ≤ 16)
    (hfwd : (s.hw.cmdPi - s.hw.cmdCi).toNat ≤ (v - s.hw.cmdCi).toNat) : writeCmdPi v s = s.modHw (fun h => { h with cmdPi := v }) := by
  simp only [writeCmdPi, if_neg hne, hin, hfwd, decide_true, Bool.and_self, if_true]

theorem writeCmdPi_bad {v : Byte} (hne : v ≠ s.hw.cmdPi)
    (hbad : 16 < (v - s.hw.cmdCi).toNat ∨ (v - s.hw.cmdCi).toNat < (s.hw.cmdPi - s.hw.cmdCi).toNat) : writeCmdPi v s = dbErr s := by
  rw [writeCmdPi, if_neg hne, if_neg]
  simp only [Bool.and_eq_true, decide_eq_true_eq]
  omega

/-- The bulk window once RSP_CI has moved from one index to another. -/
def bulkAfter (old v : Byte) (b : BulkState) : BulkState :=
  match b with
  | .answered i => if passedBy i old v then .free else .answered i
  | b => b

theorem bulkAfter_answered {old v i : Byte} {b : BulkState} (h : b = .answered i) :
    bulkAfter old v b = if (i - old).toNat < (v - old).toNat then .free else b := by
  subst h
  simp only [bulkAfter, passedBy, decide_eq_true_eq]

theorem bulkAfter_other {old v : Byte} {b : BulkState} (h : ∀ i, b ≠ .answered i) : bulkAfter old v b = b := by
  cases b with
  | answered i => exact absurd rfl (h i)
  | _ => rfl

/-- RSP_CI moves forward, at most up to RSP_PI; with the response of a bulk command it passes the window. -/
theorem writeRspCi_ok {v : Byte} (hne : v ≠ s.hw.rspCi) (hin : (s.hw.rspPi - v).toNat ≤ 64)
    (hfwd : (s.hw.rspPi - v).toNat ≤ (s.hw.rspPi - s.hw.rspCi).toNat) :
    writeRspCi v s = setBulk (bulkAfter s.hw.rspCi v s.mb.bulk) (s.modHw (fun h => { h with rspCi := v })) := by
  have hsame (b : BulkState) (hb : s.mb.bulk = b) : setBulk b (s.modHw (fun h => { h with rspCi := v })) =
      s.modHw (fun h => { h with rspCi := v }) := by rw [← hb]; rfl
  simp only [writeRspCi, if_neg hne, hin, hfwd, decide_true, Bool.and_self, if_true, State.modHw_mb]
  cases hb : s.mb.bulk with
  | answered i =>
    cases hp : passedBy i s.hw.rspCi v <;> simp only [bulkAfter, hp, hsame _ hb, if_true, if_false, Bool.false_eq_true]
  | _ => exact (hsame _ hb).symm

theorem writeRspCi_bad {v : Byte} (hne : v ≠ s.hw.rspCi)
    (hbad : 64 < (s.hw.rspPi - v).toNat ∨ (s.hw.rspPi - s.hw.rspCi).toNat < (s.hw.rspPi - v).toNat) : writeRspCi v s = dbErr s := by
  rw [writeRspCi, if_neg hne, if_neg]
  simp only [Bool.and_eq_true, decide_eq_true_eq]
  omega

/-- Settles O4: each register's write is one record's update, and the doorbell takes an index that moves forward in its ring. -/
theorem registerWritesTakeEffect : Obligations.RegisterWritesTakeEffect := by
  refine ⟨⟨fun s data hon h4 => exec_regWrite_plain 0x04 hon h4, fun s data hon h4 => exec_regWrite_plain 0x08 hon h4,
      fun s data hon h4 => ?_, fun s addr data hon h4 => exec_regWrite_short addr hon h4,
      fun s addr data v hon hv => exec_regWrite_crcBad addr data hon hv, fun s hon hl => ?_, fun s hon hl => ?_, fun s v hv => ?_⟩,
    fun s v hon hne hin hfwd => ?_, fun s v hon hne hbad => ?_, fun s hon => ?_, fun s v hon hne hin hfwd => ?_,
    fun s v hon hne hbad => ?_, fun s hon => ?_⟩
  · exact (exec_regWrite_plain 0x0C (powered_of_coreOn hon) h4).trans
      (congrArg Host.Outcome.next (writeReg_doorbell (s := sendNothing s) (leNat data) hon))
  · rw [exec_trigger (powered_of_coreOn hon), triggerSnap, hon, hl]
    rfl
  · rw [exec_trigger hon, triggerSnap, hl]
    rfl
  · show execForce v s = _
    rw [execForce, forceReset, if_neg fun h => hv h.1]
  · rw [exec_cmdPiWrite v hon, writeCmdPi_ok hne hin hfwd]
    rfl
  · rw [exec_cmdPiWrite v hon, writeCmdPi_bad hne hbad]
    rfl
  · rw [exec_cmdPiWrite _ hon, writeCmdPi, if_pos rfl]
  · refine ⟨_, (exec_rspCiWrite v hon).trans (congrArg Host.Outcome.next (writeRspCi_ok hne hin hfwd)), rfl, rfl, rfl, fun i hi => ?_,
      fun hn => ?_⟩
    · exact bulkAfter_answered hi
    · exact bulkAfter_other hn
  · rw [exec_rspCiWrite v hon, writeRspCi_bad hne hbad]
    rfl
  · rw [exec_rspCiWrite _ hon, writeRspCi, if_pos rfl]

end Sys2Proof.Machine
end

section
/-! What a completed store writes: stored registers and the lifecycle (R56, R64, R158, R197 to R239, R417 to R422). -/

namespace Sys2Proof.Machine

variable {s : State}

/-! ### Circuits -/

theorem modCir_seen (s : State) (c : Fin 24) (f : Circuit → Circuit) : (s.modCir c f).circuits[c] = f s.circuits[c] := vmod_get_self _ _ _

/-- A value of a circuit that runs is written, and waits for the close (R56, R64). -/
theorem setCircuit_running {c : Fin 24} {f : Circuit → Circuit} (hcfg : (f s.circuits[c]).cfg = (s.circuits[c]).cfg)
    (hstop : (f s.circuits[c]).stopped = (s.circuits[c]).stopped) (hen : cirEn (s.circuits[c]).cfg = true)
    (hrun : (s.circuits[c]).stopped = false) : setCircuit c f s = s.modCir c f := by
  rw [setCircuit, takeIfDisabled_running]
  · rw [modCir_seen, hcfg, hen]
  · rw [modCir_seen, hstop, hrun]

/-! ### The lifecycle -/

/-- A flag that is raised is set. -/
theorem raise_irq (s : State) {k : Nat} (h : k < 9) : (s.raise k).hw.irq.getLsbD k = true := by
  simp only [State.raise, State.modHw_hw, BitVec.getLsbD_or, BitVec.getLsbD_ofNat, Nat.testBit_two_pow_self, h, decide_true, Bool.and_self,
    Bool.or_true]

/-- The record of a transition (R420, R422). -/
def movedSec (g : Lifecycle) (u : Bool) (time : Stamp) (legal : BitVec 48) (k : Security) : Security :=
  let breaks := if u then satAdd k.sealBreaks 1 else k.sealBreaks
  { k with
    state := g, sealBreaks := breaks, transition := time,
    unseals := if u then ((breaks, legal) :: k.unseals).take 4 else k.unseals,
    fuseOpened := k.fuseOpened || decide (k.state = .factory ∧ g = .opened),
    fuseRetired := k.fuseRetired || decide (g = .retired),
    lock := decide (g = .sealed) || decide (g = .retired) }

/-- What a debug level that ends leaves of PD_SEC and of the host port's registers (R429). -/
theorem dropDebug_sec (s : State) :
    (dropDebug s).sec = { s.sec with debug := 0, debugLeft := none } ∧ (dropDebug s).hw.irqEn = s.hw.irqEn := by
  unfold dropDebug
  split
  next h => exact ⟨by rw [State.modSec_sec, ← h], rfl⟩
  · exact ⟨rfl, rfl⟩

theorem takeIfDisabled_beyond (c : Fin 24) (s : State) : (takeIfDisabled c s).beyond = s.beyond := by
  unfold takeIfDisabled
  split
  · rfl
  · exact takeChanges_beyond s c

/-- The last steps of a transition: the circuits take what waits, and the flag is set. -/
theorem applyLifecycle_eq (g : Lifecycle) (u : Bool) (time : Stamp) (legal : BitVec 48) (s : State) :
    ∃ v : State, applyLifecycle g u time legal s = (v.forEach (fins 24) (fun c s => takeIfDisabled c s)).raise irqLifecycle ∧
      v.hw.irqEn = s.hw.irqEn ∧
      ∃ d l, v.sec = { movedSec g u time legal s.sec with debug := d, debugLeft := l } := by
  unfold applyLifecycle
  extract_lets breaks s₁ s₂ s₃
  have h₂ : s₂.sec = movedSec g u time legal s.sec ∧ s₂.hw.irqEn = s.hw.irqEn := by
    simp only [s₂]
    split <;> exact ⟨rfl, rfl⟩
  obtain ⟨hsec, hen⟩ := h₂
  refine ⟨s₃, rfl, ?_⟩
  simp only [s₃]
  split
  · exact ⟨hen, _, _, hsec⟩
  · obtain ⟨dsec, den⟩ := dropDebug_sec s₂
    exact ⟨den.trans hen, _, _, by rw [dsec, hsec]⟩

/-- A transition writes its record, and at most ends the debug level. -/
theorem applyLifecycle_sec (g : Lifecycle) (u : Bool) (time : Stamp) (legal : BitVec 48) (s : State) :
    (applyLifecycle g u time legal s).hw.irq.getLsbD 7 = true ∧ (applyLifecycle g u time legal s).hw.irqEn = s.hw.irqEn ∧
      ∃ d l, (applyLifecycle g u time legal s).sec = { movedSec g u time legal s.sec with debug := d, debugLeft := l } := by
  obtain ⟨v, heq, hen, hsec⟩ := applyLifecycle_eq g u time legal s
  have hkept := forEach_beyond v (fins 24) fun c t => takeIfDisabled_beyond c t
  have khw : (v.forEach (fins 24) (fun c s => takeIfDisabled c s)).hw = v.hw := congrArg BeyondMetrology.hw hkept
  have ksec : (v.forEach (fins 24) (fun c s => takeIfDisabled c s)).sec = v.sec := congrArg BeyondMetrology.sec hkept
  rw [heq]
  refine ⟨raise_irq _ (by decide), ?_, ?_⟩
  · simp only [State.raise, State.modHw_hw, khw, hen]
  · simp only [State.raise, State.modHw_sec, ksec]
    exact hsec

/-! ### Registers -/

/-- Settles O35: each change writes the record that it names, and a transition the state, the fuses and the lock. -/
theorem storedChangesTakeEffect : Obligations.StoredChangesTakeEffect := by
  refine ⟨fun s => ⟨fun c q p hen hrun => ?_, fun c z nl hen hrun => ?_, fun v => rfl, fun v => rfl, fun base slew bill => rfl,
    fun a b => rfl, fun v => rfl, fun bs => rfl, fun d => ⟨_, rfl, ?_⟩, fun b l => rfl, fun i low high => ?_⟩,
    fun g u time legal s => ?_⟩
  · simp only [applyChange, State.modRing_circuits]
    rw [setCircuit_running (by rfl) (by rfl) hen hrun]
    rfl
  · simp only [applyChange, State.modRing_circuits]
    rw [setCircuit_running (by rfl) (by rfl) hen hrun]
    rfl
  · dsimp only
    exact ⟨by omega, by omega, by omega, rfl, rfl, rfl⟩
  · simp only [applyChange]
    refine (vmod_get_self _ _ _).trans ?_
    simp only [Bool.true_and, Bool.and_true]
  · obtain ⟨hirq, hen, d, l, hsec⟩ := applyLifecycle_sec g u time legal s
    simp only [applyChange, hsec]
    exact ⟨rfl, rfl, rfl, rfl, rfl, hirq, rfl, hen⟩

end Sys2Proof.Machine
end

section
/-! What the Firn store leaves unchanged when it takes requests, checks KETTLE, starts page stores and answers commands: supplies, lifecycle,
circuits, clocks, display, the array, the save's notes, and the flags of the host port; no request is added, and none changes its content. -/

namespace Sys2Proof.Machine

/-- What no request, start or answer of the store touches. Of the host port's registers only RSP_PI moves. -/
structure StoreFrame where
  power : Power
  sec : Security
  hw : HwRegs
  circuits : Vector Circuit 24
  clk : Clocks
  disp : Display
  isHead : Bool
  startStored : Bool
  startWorn : Bool
  arr : Memory
  save : Save
  pump : Bool

def State.storeFrame (s : State) : StoreFrame :=
  { power := s.power, sec := s.sec, hw := { s.hw with rspPi := 0 }, circuits := s.circuits, clk := s.clk, disp := s.disp,
    isHead := s.ring.isHead, startStored := s.time.startStored, startWorn := s.time.startWorn, arr := s.firn.arr, save := s.firn.save,
    pump := s.firn.pump }

/-- A step of the store from s to t: its frame is kept, and every request that t holds carries a change that s held. -/
structure StoreStep (s t : State) : Prop where
  frame : t.storeFrame = s.storeFrame
  changes : ∀ r ∈ t.firn.reqs, ∃ q ∈ s.firn.reqs, q.change = r.change

variable {s t u : State}

namespace StoreStep

theorem refl : StoreStep s s := ⟨rfl, fun r hr => ⟨r, hr, rfl⟩⟩

theorem trans (h : StoreStep s t) (h' : StoreStep t u) : StoreStep s u := by
  refine ⟨h'.frame.trans h.frame, fun r hr => ?_⟩
  obtain ⟨q, hq, hqr⟩ := h'.changes r hr
  obtain ⟨p, hp, hpq⟩ := h.changes q hq
  exact ⟨p, hp, hpq.trans hqr⟩

/-- A step that leaves the requests as they are. -/
theorem of_reqs (h : t.storeFrame = s.storeFrame) (hr : t.firn.reqs = s.firn.reqs) : StoreStep s t :=
  ⟨h, fun r hm => ⟨r, hr ▸ hm, rfl⟩⟩

theorem ite {P : Prop} [Decidable P] (h : StoreStep s t) (h' : StoreStep s u) : StoreStep s (if P then t else u) := by
  split
  · exact h
  · exact h'

theorem forEach {α : Type} (l : List α) {f : α → State → State} (h : ∀ a t, StoreStep t (f a t)) : StoreStep s (s.forEach l f) :=
  s.forEach_inv (StoreStep s) l f (fun a t ht => ht.trans (h a t)) refl

/-- What a request is but its content may change at will. -/
theorem modReq {id : Nat} {f : StoreReq → StoreReq} (hf : ∀ r, (f r).change = r.change) : StoreStep s (modReq id f s) := by
  refine ⟨rfl, fun r hr => ?_⟩
  obtain ⟨q, hq, rfl⟩ := List.mem_map.1 hr
  refine ⟨q, hq, ?_⟩
  split
  · exact (hf q).symm
  · rfl

theorem dropReq (id : Nat) : StoreStep s (dropReq id s) := ⟨rfl, fun r hr => ⟨r, (List.mem_filter.1 hr).1, rfl⟩⟩

theorem modMember (id page : Nat) (f : Member → Member) : StoreStep s (modMember id page f s) := .modReq fun _ => rfl

end StoreStep

/-! ### Answers -/

theorem sendFrame_step (ty : BitVec 4) (dst : BitVec 6) (payload : List Byte) (tag : Option (Fin 64)) :
    StoreStep s (sendFrame ty dst payload tag s) := .of_reqs rfl rfl

theorem sendBulk_step (dst origin : BitVec 6) (bs : List Byte) : StoreStep s (sendBulk dst origin bs s) :=
  .forEach _ fun _ _ => sendFrame_step _ _ _ _

theorem putBulk_step (bs : List Byte) : StoreStep s (putBulk bs s) := .ite .refl (.of_reqs rfl rfl)

theorem bulkAnswered_step (t : Fin 64) : StoreStep s (bulkAnswered t s) := .ite (.of_reqs rfl rfl) .refl

theorem answer_step (t : Fin 64) (st : Status) (p b : List Byte) : StoreStep s (answer t st p b s) := by
  have hdraw : StoreStep s s.draw.2 := .of_reqs rfl rfl
  unfold answer
  split
  · exact .refl
  · dsimp only
    split
    · refine .trans ?_ (sendFrame_step _ _ _ _)
      have hset (u : State) (t : Fin 64) (f : Cmd → Cmd) : StoreStep u (setCmd t f u) := .of_reqs rfl rfl
      exact .ite (hdraw.trans (hset _ _ _)) ((hdraw.trans (hset _ _ _)).trans ((putBulk_step b).trans (sendBulk_step _ _ b)))
    · exact (hdraw.trans ((putBulk_step b).trans (bulkAnswered_step t))).trans (.of_reqs rfl rfl)

theorem answerReq_step (r : StoreReq) (st : Status) (p : List Byte) : StoreStep s (answerReq r st p s) := by
  unfold answerReq
  split
  · exact answer_step _ _ _ _
  · exact .refl

theorem pushOutcome_step (ch : Change) (st : Status) : StoreStep s (pushOutcome ch st s) := by
  unfold pushOutcome
  split
  · exact sendFrame_step _ _ _ _
  · exact .refl

theorem addYield_step (t : Fin 64) (y : Byte) : StoreStep s (addYield t y s) := .of_reqs rfl rfl

/-! ### The aux converter -/

theorem askKettle_step : StoreStep s (askKettle s) := by
  obtain ⟨a, ha⟩ := injectConv_eq .firn kettleIn s
  rw [askKettle, ha]
  exact .ite .refl (.of_reqs rfl rfl)

/-! ### Latches and banks -/

theorem modTxn_step (g : CalTarget) (f : Txn → Txn) : StoreStep s (modTxn g f s) := .of_reqs rfl rfl

theorem putEntry_step (g : LogGroup) (e : LogEntry) : StoreStep s (putEntry g e s) := .of_reqs rfl rfl

theorem startChange_step (ch : Change) : StoreStep s (startChange ch s) := by
  cases ch with
  | calCommit g =>
    unfold startChange
    dsimp only
    split
    · exact .refl
    next u _ =>
      generalize newEntry _ _ _ _ = e
      exact (putEntry_step _ e).trans (modTxn_step _ _)
  | _ => exact .of_reqs rfl rfl

/-- What taking sequence numbers does not touch of the store. -/
theorem takeGseqs_latchFrame (keys : List Nat) (f : Firn) :
    (takeGseqs keys f).reqs = f.reqs ∧ (takeGseqs keys f).arr = f.arr ∧ (takeGseqs keys f).save = f.save ∧ (takeGseqs keys f).pump = f.pump := by
  unfold takeGseqs
  induction keys.filter isGroupKey generalizing f with
  | nil => exact ⟨rfl, rfl, rfl, rfl⟩
  | cons k l ih => exact ih (setGseq k (nextGseq f k) f)

theorem takeGseqs_step (keys : List Nat) : StoreStep s (s.modFirn (takeGseqs keys)) := by
  obtain ⟨hreqs, harr, hsave, hpump⟩ := takeGseqs_latchFrame keys s.firn
  refine .of_reqs ?_ hreqs
  simp only [State.storeFrame, State.modFirn, harr, hsave, hpump]

theorem latchStore_step (id p : Nat) : StoreStep s (latchStore id p s) := by
  unfold latchStore
  split
  · exact .refl
  · extract_lets ps img s₁ f s₂
    have h₁ : StoreStep s s₁ := .ite .refl (takeGseqs_step _)
    have h₂ : StoreStep s₁ s₂ := .modReq fun _ => rfl
    exact h₁.trans (h₂.trans (.of_reqs rfl rfl))

theorem endWait_step (r : StoreReq) (m : Member) : StoreStep s (endWait r m s) := by
  unfold endWait
  split
  · exact .ite (.of_reqs rfl rfl) .refl
  · exact .refl

theorem startMember_step (id p : Nat) : StoreStep s (startMember id p s) := by
  unfold startMember
  split
  · exact .refl
  · split
    · exact .refl
    next m _ =>
      refine (endWait_step _ m).trans (.trans (.ite .refl (latchStore_step id p)) (.trans (.modMember id p _) (.modReq fun _ => rfl)))

theorem startBanks_step : StoreStep s (startBanks s) := by
  refine .forEach _ fun b t => ?_
  split
  · exact .refl
  · split
    · exact startMember_step _ _
    · exact .refl

theorem beginWait_step (r : StoreReq) (m : Member) : StoreStep s (beginWait r m s) := by
  have h (t : Fin 64) : StoreStep s (addYield t 1 (modMember r.id m.page (fun m => { m with waitTick := some s.time.ticks }) s)) :=
    .trans (.modMember _ _ _) (addYield_step t 1)
  unfold beginWait
  dsimp only
  split
  · split
    · exact h _
    · exact .modMember _ _ _
  · exact .modMember _ _ _

theorem countDispStall_step (r : StoreReq) (p : Nat) : StoreStep s (countDispStall r p s) := by
  have hcount (u : State) : StoreStep u (u.modFirn (fun f => { f with dispStalls := satAdd f.dispStalls 1 })) := .of_reqs rfl rfl
  unfold countDispStall
  split
  · exact .refl
  · split
    · exact .refl
    · refine .trans ?_ (hcount _)
      exact .modReq fun _ => rfl

theorem noteWaits_step : StoreStep s (noteWaits s) := by
  refine .forEach _ fun e t => ?_
  have h : StoreStep t (if e.2.waitTick.isNone then beginWait e.1 e.2 t else t) := .ite (beginWait_step _ _) .refl
  exact .ite (h.trans (countDispStall_step _ _)) h

/-! ### Requests that wait for KETTLE -/

/-- A store that waits is counted, or a STEP dropped (R174, R239). -/
theorem deferReq_step (r : StoreReq) : StoreStep s (deferReq r s) := by
  have hwait (u : State) : StoreStep u (modReq r.id (fun r =>
      if r.stage = .running then { r with deferred := true, tag := none } else { r with stage := .kwait, tag := none }) u) :=
    .modReq fun r => by split <;> rfl
  have hcount (u : State) : StoreStep u (u.modFirn (fun f => { f with defers := satAdd f.defers 1 })) := .of_reqs rfl rfl
  have hstep (u : State) : StoreStep u (u.modTime (fun t => { t with stepStore := false })) := .of_reqs rfl rfl
  unfold deferReq
  extract_lets count wait
  refine .ite .refl ?_
  split
  next d hd =>
    rw [hd]
    exact ((StoreStep.dropReq r.id).trans (hstep _)).trans (answerReq_step _ _ _)
  · refine .trans ?_ (answerReq_step _ _ _)
    exact .trans (.ite ((hcount s).trans (modTxn_step _ _)) (hcount s)) (hwait _)
  · exact (((hcount s).trans (hwait _)).trans (answerReq_step _ _ _)).trans (pushOutcome_step _ _)

theorem checkSingles_step : StoreStep s (checkSingles s) := by
  unfold checkSingles
  dsimp only
  refine .ite .refl (.ite .refl (.ite (.ite .refl askKettle_step) ?_))
  exact .forEach _ fun r t => deferReq_step r

theorem kick_step : StoreStep s (kick s) := startBanks_step.trans (noteWaits_step.trans checkSingles_step)

theorem startReq_step (r : StoreReq) : StoreStep s (startReq r s) := by
  unfold startReq
  extract_lets s₁ m s₂ s₃ s₄
  have h₂ : StoreStep s s₂ := (startChange_step _).trans (endWait_step _ _)
  have h₃ : StoreStep s₂ s₃ := .modReq fun _ => rfl
  have h₄ : StoreStep s₃ s₄ := .forEach _ fun k t => latchStore_step _ k
  exact h₂.trans (h₃.trans (h₄.trans kick_step))

theorem acceptReq_step (r : StoreReq) : StoreStep s (acceptReq r s) := by
  unfold acceptReq
  split
  · exact modTxn_step _ _
  · exact .refl

theorem consider_step (id : Nat) : StoreStep s (consider id s) := by
  unfold consider
  split
  · exact .refl
  next r _ =>
    have hmark : StoreStep s (modReq id (fun r => { r with stage := .ask }) s) := .modReq fun _ => rfl
    have hask := hmark.trans askKettle_step
    have hqueue (u : State) : StoreStep u (modReq id (fun r => { r with stage := .queued }) u) := .modReq fun _ => rfl
    have haccept := acceptReq_step (s := s) r
    dsimp only
    generalize acceptReq r s = u at haccept ⊢
    refine .ite .refl (.ite (.ite .refl hask) (.ite (deferReq_step r) (haccept.trans ?_)))
    split
    · exact hqueue u
    · split
      · exact startReq_step _
      · exact .refl

theorem considerAll_step : StoreStep s (considerAll s) := .forEach _ fun id _ => consider_step id

theorem countStall_step (r : StoreReq) : StoreStep s (countStall r s) := by
  have h : StoreStep s (modReq r.id (fun r => { r with since := some s.time.ticks }) s) := .modReq fun _ => rfl
  unfold countStall
  dsimp only
  refine .ite ?_ (.ite (h.trans (.of_reqs rfl rfl)) h)
  split
  · exact h.trans (addYield_step _ _)
  · exact h

/-! ### A store that is requested -/

/-- A store that no command waits for: its request joins, and nothing of the frame moves. -/
theorem openStore_step (ch : Change) :
    (openStore ch none s).storeFrame = s.storeFrame ∧
      ∀ r ∈ (openStore ch none s).firn.reqs, r.change = ch ∨ ∃ q ∈ s.firn.reqs, q.change = r.change := by
  unfold openStore
  extract_lets id s₁ r s₂
  have h : StoreStep s₂ (if s₂.stalled 11 then countStall r s₂ else consider id s₂) := .ite (countStall_step r) (consider_step id)
  refine ⟨h.frame, fun q hq => ?_⟩
  obtain ⟨p, hp, hpq⟩ := h.changes q hq
  rcases List.mem_append.1 hp with hp | hp
  · exact .inr ⟨p, hp, hpq⟩
  · obtain rfl := List.mem_singleton.1 hp
    exact .inl hpq.symm

end Sys2Proof.Machine
end

section
/-! What the freeze leaves unchanged: the events and windows that it ends write power quality, calibration and voltages, and of the rest only
the flags of each circuit's first cycle after a restart (R69, R90, R120, R180). -/

namespace Sys2Proof.Machine

variable (s : State)

/-! ### Power quality -/

@[simp] theorem pushEvent_beyond (r : EventRec) : (pushEvent r s).beyond = s.beyond := rfl

@[simp] theorem pushAll_beyond (l : List EventRec) : (pushAll l s).beyond = s.beyond := forEach_beyond s l fun r t => pushEvent_beyond t r

@[simp] theorem halfCycle_beyond (b : Fin 2) : (halfCycle b s).beyond = s.beyond := by
  unfold halfCycle
  dsimp only
  split
  · rfl
  · rw [pushAll_beyond, modSet_beyond]

@[simp] theorem endTransient_beyond (b : Fin 2) (ch : Fin 3) : (endTransient b ch s).beyond = s.beyond := by
  unfold endTransient
  dsimp only
  split
  · rfl
  · split <;> rfl

@[simp] theorem overdueFreq_beyond (b : Fin 2) : (overdueFreq b s).beyond = s.beyond := by
  unfold overdueFreq
  split
  · exact modSet_beyond s b _
  · rfl

@[simp] theorem cutEvents_beyond (last : Nat) (b : Fin 2) : (cutEvents last b s).beyond = s.beyond := by
  unfold cutEvents
  dsimp only
  rw [pushAll_beyond, modSet_beyond]

@[simp] theorem firstOnNew_beyond (b : Fin 2) : (firstOnNew b s).beyond = s.beyond := rfl

@[simp] theorem applySetParams_beyond (b : Fin 2) : (applySetParams b s).beyond = s.beyond := by
  unfold applySetParams
  extract_lets +lift q s₁ on s₂ s₃ s₄ s₅ s₆
  have h₁ : s₁.beyond = s.beyond := by
    simp only [s₁]
    split
    · exact cutEvents_beyond s _ b
    · rfl
  have h₃ : s₃.beyond = s₁.beyond := (modPq_beyond s₂ _).trans (modSet_beyond s₁ b _)
  have h₄ : s₄.beyond = s₃.beyond := forEach_beyond s₃ _ fun _ _ => rfl
  split
  · exact h₄.trans (h₃.trans h₁)
  · have h₅ : s₅.beyond = s₄.beyond := forEach_beyond s₄ _ fun _ _ => rfl
    rw [finishSetTxn_beyond, modCal_beyond, firstOnNew_beyond, h₅, h₄, h₃, h₁]

@[simp] theorem windowClose_beyond (b : Fin 2) : (windowClose b s).beyond = s.beyond := by
  unfold windowClose
  split
  · rfl
  · extract_lets +lift dr id s₁ ns t q stepped ends10 ends2h bits status vals seq res q₁ q₂ q₃ s₂ s₃
    have h₁ : s₁.beyond = s.beyond := by
      simp only [s₁]
      split <;> rfl
    rw [applySetParams_beyond]
    simp only [s₃]
    split <;> exact h₁

@[simp] theorem overdueSets_beyond : (overdueSets s).beyond = s.beyond := by
  unfold overdueSets
  dsimp only
  rw [forEach_beyond _ _ fun b t => (windowClose_beyond _ b).trans (overdueFreq_beyond t b)]
  exact forEach_beyond s _ fun b t => (forEach_beyond _ _ fun ch u => endTransient_beyond u b ch).trans (halfCycle_beyond t b)

/-! ### The freeze -/

@[simp] theorem pfailClose_beyond (c : Fin 24) : (pfailClose c s).beyond = s.beyond := by
  unfold pfailClose
  dsimp only
  split
  · rw [modCir_beyond, takeChanges_beyond, modCir_beyond]
    split
    · rfl
    · exact bookClose_beyond s c _ _
  · rfl

/-- The same parts with other flags for each circuit's first cycle after a restart. -/
def BeyondMetrology.withNext (b : BeyondMetrology) (n : Vector NextFlags 24) : BeyondMetrology :=
  { b with firn := { b.firn with startNext := n } }

/-- The freeze of metrology notes the flags of each circuit's next cycle in the store, and changes nothing else beyond metrology. -/
theorem freezeMetering_beyond : ∃ n, (freezeMetering s).beyond = s.beyond.withNext n := by
  unfold freezeMetering
  extract_lets s₁ s₂ s₃
  have h₁ : s₁.beyond = s.beyond := by
    simp only [s₁]
    split
    · rw [overdueSets_beyond, overdueCircuits_beyond]
    · rfl
  have hcir : (freezeCircuits s₁).beyond = s.beyond := (forEach_beyond _ _ fun c t => pfailClose_beyond t c).trans h₁
  refine ⟨(freezeCircuits s₁).circuits.map (fun r => r.next), ?_⟩
  rw [forEach_beyond s₃ _ fun b t => cutEvents_beyond t _ b]
  simp only [s₃, s₂]
  generalize freezeCircuits s₁ = u at hcir
  rw [← hcir]
  rfl

end Sys2Proof.Machine
end

section
/-! The power-fail sequence: its triggers, the end of the save, HOLD and RESUME (R179 to R184, R201, R410). -/

namespace Sys2Proof.Machine

variable {s t : State}

/-! ### The save starts -/

/-- The frame of the store with another note of a save cut short. -/
def StoreFrame.withLow (f : StoreFrame) (low : Bool) : StoreFrame := { f with save := { f.save with lowKettleAo := low } }

theorem abandonSave_frame (b : Option Nat) (s : State) : ∃ low, (abandonSave b s).storeFrame = s.storeFrame.withLow low := by
  unfold abandonSave
  split
  · exact ⟨s.firn.save.lowKettleAo, rfl⟩
  · exact ⟨true, rfl⟩

/-- Stopping bulk stores answers their commands and cuts their requests, and nothing more. -/
theorem stopBulk_frame (s : State) : (stopBulk s).storeFrame = s.storeFrame := by
  have h : StoreStep s (s.forEach (s.firn.reqs.filter stoppedReq) (fun r s => answerReq r .retry [] s)) :=
    .forEach _ fun r t => answerReq_step r .retry []
  exact h.frame

/-- The save's first pages start, or it is abandoned at once (R181, R182). -/
theorem startSave_frame (kettle : BitVec 16) (s : State) : ∃ low, (startSave kettle s).storeFrame = s.storeFrame.withLow low := by
  unfold startSave
  extract_lets ms id s₁
  have h₁ : s₁.storeFrame = s.storeFrame := rfl
  rw [kick_step.frame, ← h₁]
  split
  · exact abandonSave_frame none s₁
  · exact ⟨s₁.firn.save.lowKettleAo, rfl⟩

/-! ### The triggers -/

theorem stopUpdate_dpwrEn (st : BitVec 3) (d : Display) : (stopUpdate st d).dpwrEn = false := by
  unfold stopUpdate
  split <;> rfl

theorem notePfail_flag {k : Clocks} (h : k.billIsOpen = true) : (notePfail (loseBoundary k)).billFlags.getLsbD 3 = true := by
  have hopen : (loseBoundary k).billIsOpen = true := by
    unfold loseBoundary
    split <;> exact h
  simp [notePfail, hopen]

theorem notePfail_count (k : Clocks) : (notePfail (loseBoundary k)).legal.count = k.legal.count := by
  have hlost : (loseBoundary k).legal = k.legal := by
    unfold loseBoundary
    split <;> rfl
  unfold notePfail
  split <;> rw [← hlost]

/-- What the start of the power-fail sequence leaves: the frozen device on KETTLE, with its save under way (R179 to R181, R201, R223). -/
structure PfailTaken (cause : Nat) (dt : Nat) (kettle : BitVec 16) (s t : State) : Prop where
  supply : t.power.supply = .kettle
  state : t.power.state = s.power.state
  vsupValid : t.power.vsupValid = s.power.vsupValid
  vsupHeld : t.power.vsupHeld = s.power.vsupHeld
  resetN : t.power.resetN = s.power.resetN
  frozen : t.hw.frozen = true
  irq : t.hw.irq.getLsbD 6 = true
  saving : t.firn.save.saving = true
  cause : t.firn.save.cause = BitVec.ofNat 8 cause
  kStart : t.firn.save.kStart = kettle
  time : t.firn.save.time = s.stampAt (s.nowNs + dt)
  pump : t.firn.pump = false
  count : t.clk.legal.count = s.clk.legal.count
  billFlags : s.clk.billIsOpen = true → t.clk.billFlags.getLsbD 3 = true
  dpwrEn : t.disp.dpwrEn = false

theorem powerFail_taken (cause dt : Nat) (kettle : BitVec 16) (hon : s.firnOn = true) (hfrozen : s.hw.frozen = false) :
    PfailTaken cause dt kettle s (powerFail cause dt kettle s) := by
  unfold powerFail
  rw [hon, hfrozen, if_neg (by decide)]
  extract_lets s₁ s₂ s₃ s₄ s₅ s₆
  obtain ⟨n, hn⟩ := freezeMetering_beyond s₁
  obtain ⟨low, hlow⟩ := startSave_frame kettle (stopBulk s₆)
  rw [stopBulk_frame] at hlow
  generalize startSave kettle (stopBulk s₆) = t at hlow ⊢
  simp only [s₆, s₅, s₄, s₃, s₂] at hlow
  generalize freezeMetering s₁ = u at hn hlow
  have hirq : (((yieldPfail u).modHw (fun h => { h with frozen := true })).raise irqPfail).hw.irq.getLsbD 6 = true := raise_irq _ (by decide)
  have hsave : t.firn.save = { u.firn.save with lowKettleAo := low } := congrArg StoreFrame.save hlow
  have hhw : { t.hw with rspPi := 0 } =
      { (((yieldPfail u).modHw (fun h => { h with frozen := true })).raise irqPfail).hw with rspPi := 0 } := congrArg StoreFrame.hw hlow
  have hu : u.firn.save = s₁.firn.save := congrArg (fun b : BeyondMetrology => b.firn.save) hn
  rw [hu] at hsave
  have hpower : t.power = { s.power with supply := .kettle, vsupDue := false } :=
    (congrArg StoreFrame.power hlow).trans (congrArg (fun b : BeyondMetrology => { b.power with supply := .kettle, vsupDue := false }) hn)
  have hclk : t.clk = notePfail (loseBoundary s.clk) :=
    (congrArg StoreFrame.clk hlow).trans (congrArg (fun b : BeyondMetrology => notePfail (loseBoundary b.clk)) hn)
  have hdisp : t.disp = stopUpdate dStopped u.disp := congrArg StoreFrame.disp hlow
  exact {
    supply := by rw [hpower]
    state := by rw [hpower]
    vsupValid := by rw [hpower]
    vsupHeld := by rw [hpower]
    resetN := by rw [hpower]
    frozen := congrArg HwRegs.frozen hhw
    irq := (congrArg (fun h => h.irq.getLsbD 6) hhw).trans hirq
    saving := congrArg Save.saving hsave
    cause := congrArg Save.cause hsave
    kStart := congrArg Save.kStart hsave
    time := congrArg Save.time hsave
    pump := (congrArg StoreFrame.pump hlow).trans (congrArg (fun b => b.firn.pump) hn)
    count := by rw [hclk, notePfail_count]
    billFlags := fun hopen => by rw [hclk, notePfail_flag hopen]
    dpwrEn := by rw [hdisp, stopUpdate_dpwrEn] }

theorem powerFail_frozen (cause dt : Nat) (kettle : BitVec 16) (h : s.hw.frozen = true) : powerFail cause dt kettle s = s := by
  rw [powerFail, h, Bool.true_or, if_pos rfl]

/-! ### HOLD -/

theorem holdIfSaved_saving (h : s.firn.save.saving = true) : holdIfSaved s = s := by
  rw [holdIfSaved, h]
  simp

theorem holdIfSaved_valid (h : s.power.vsupValid = true) : holdIfSaved s = s := by
  rw [holdIfSaved, h]
  simp

theorem holdIfSaved_hold (hon : s.firnOn = true) (hvalid : s.power.vsupValid = false) (hsave : s.firn.save.saving = false) :
    holdIfSaved s = enterHold s := by
  rw [holdIfSaved, hon, hvalid, hsave]
  rfl

/-- A debug level that ends, with nonces that become void, is a matter of PD_SEC and of the host port's flags (R425, R429). -/
theorem voidDebug_kept (s : State) :
    (voidNonces (dropDebug s)).power = s.power ∧ (voidNonces (dropDebug s)).clk = s.clk ∧
      (voidNonces (dropDebug s)).firn = s.firn ∧ (voidNonces (dropDebug s)).circuits = s.circuits := by
  unfold dropDebug
  split <;> exact ⟨rfl, rfl, rfl, rfl⟩

theorem voidDebug_sec (s : State) :
    (voidNonces (dropDebug s)).sec = { s.sec with debug := 0, debugLeft := none, unsealNonce := none, debugNonce := none } := by
  rw [voidNonces, State.modSec_sec, (dropDebug_sec s).1]

/-- What stays where the core loses its supply: PD_AO, fuses, and the array; the debug level has ended (R408, R429). -/
theorem coreLost_kept (s : State) :
    (coreLost s).power = s.power ∧ (coreLost s).clk = clocksAlone s.clk ∧ (coreLost s).firn.arr = s.firn.arr ∧
      (coreLost s).sec.debug = 0 ∧ (coreLost s).sec.fuseRetired = s.sec.fuseRetired ∧ (coreLost s).hw.loaded = false ∧
      (coreLost s).hw.mpReady = false := by
  obtain ⟨hpower, hclk, hfirn, -⟩ := voidDebug_kept s
  have hsec := voidDebug_sec s
  unfold coreLost
  generalize voidNonces (dropDebug s) = u at hpower hclk hfirn hsec
  have hcount : clocksAlone u.clk = clocksAlone s.clk := by rw [hclk]
  have harr : u.firn.arr = s.firn.arr := by rw [hfirn]
  have hdebug : u.sec.debug = 0 := by rw [hsec]
  have hfuse : u.sec.fuseRetired = s.sec.fuseRetired := by rw [hsec]
  exact ⟨hpower, hcount, harr, hdebug, hfuse, rfl, rfl⟩

/-- What HOLD leaves: PD_AO on its supply, the legal clock's count and the array; no store is left. -/
theorem enterHold_kept (s : State) :
    (enterHold s).power.state = .hold ∧ (enterHold s).power.supply = (if s.power.vsupHeld then .vsup else .vbak) ∧
      (enterHold s).clk.legal.count = s.clk.legal.count ∧ (enterHold s).firn.arr = s.firn.arr ∧ (enterHold s).firn.reqs = [] ∧
      (enterHold s).firn.save.saving = false := by
  obtain ⟨hpower, hclk, harr, -⟩ := coreLost_kept s
  have hsupply : (if (coreLost s).power.vsupHeld then Supply.vsup else .vbak) = if s.power.vsupHeld then .vsup else .vbak := by rw [hpower]
  have hcount : (coreLost s).clk.legal.count = s.clk.legal.count := by rw [hclk]; rfl
  exact ⟨rfl, hsupply, hcount, harr, rfl, rfl⟩

/-! ### The end of the save -/

/-- The last page of the save ends without a word to supplies, host registers or the save's notes. -/
theorem endPage_kept (r : StoreReq) (m : Member) (v : Bool) (s : State) :
    (endPage r m v s).power = s.power ∧ (endPage r m v s).hw = s.hw ∧ (endPage r m v s).firn.save = s.firn.save := by
  unfold endPage
  extract_lets bs s₁ s₂ d s₃
  split
  · split <;> exact ⟨rfl, rfl, rfl⟩
  · split <;> exact ⟨rfl, rfl, rfl⟩

/-- One verify of the RUN_LOG store, where that store is what its bank does. -/
def endLast (v : Bool) (s : State) : State :=
  match busyMember s.firn.reqs 0 with
  | some (r, m) => if m.page = 112 ∧ r.rank = 1 then endPage r m v s else s
  | none => s

theorem endRunLog_eq (v again : Bool) (s : State) : endRunLog v again s = endLast again (endLast v s) := rfl

theorem endLast_kept (v : Bool) (s : State) :
    (endLast v s).power = s.power ∧ (endLast v s).hw = s.hw ∧ (endLast v s).firn.save = s.firn.save := by
  unfold endLast
  split
  · split
    · exact endPage_kept _ _ v s
    · exact ⟨rfl, rfl, rfl⟩
  · exact ⟨rfl, rfl, rfl⟩

theorem endRunLog_kept (v again : Bool) (s : State) :
    (endRunLog v again s).power = s.power ∧ (endRunLog v again s).hw = s.hw ∧ (endRunLog v again s).firn.save = s.firn.save := by
  obtain ⟨hpower, hhw, hsave⟩ := endLast_kept v s
  obtain ⟨hpower', hhw', hsave'⟩ := endLast_kept again (endLast v s)
  exact ⟨hpower'.trans hpower, hhw'.trans hhw, hsave'.trans hsave⟩

/-- With nothing stored in the bank of RUN_LOG the end of the save stores nothing more. -/
theorem endRunLog_idle (v again : Bool) (h : busyMember s.firn.reqs 0 = none) : endRunLog v again s = s := by
  have hidle (w : Bool) : endLast w s = s := by rw [endLast, h]
  rw [endRunLog_eq, hidle, hidle]

/-! ### The page stores that a collapse cuts -/

theorem cutStores_power (us : List Nat) (s : State) : (cutStores us s).power = s.power :=
  s.forEach_keeps State.power _ _ fun _ _ => rfl

/-! ### RESUME -/

/-- The start's RUN_LOG store, where it is still owed (R185). -/
def openRunLog (s : State) : State :=
  if s.firn.runLogOwed then openStore .runLogStart none { s with firn := { s.firn with runLogOwed := false } } else s

/-- The store of the head's epoch, where this start has not requested it (R227). -/
def openEpoch (s : State) : State :=
  if s.ring.isHead && !s.time.startStored && !s.time.startWorn && !s.firn.reqs.any (fun r => decide (r.change = .epochStart)) then
    openStore .epochStart none s
  else s

theorem startStores_eq (s : State) : startStores s = openEpoch (openRunLog s) := rfl

theorem openRunLog_step (s : State) :
    (openRunLog s).storeFrame = s.storeFrame ∧
      ∀ r ∈ (openRunLog s).firn.reqs, r.change = .runLogStart ∨ ∃ q ∈ s.firn.reqs, q.change = r.change := by
  unfold openRunLog
  split
  · exact openStore_step .runLogStart
  · exact ⟨rfl, fun r hr => .inr ⟨r, hr, rfl⟩⟩

theorem openEpoch_frame (s : State) : (openEpoch s).storeFrame = s.storeFrame := by
  unfold openEpoch
  split
  · exact (openStore_step .epochStart).1
  · rfl

theorem startStores_frame (s : State) : (startStores s).storeFrame = s.storeFrame :=
  (openEpoch_frame _).trans (openRunLog_step s).1

/-- A circuit at a restart of metrology: one that runs starts anew, its totals stand (R68). -/
def resumeCircuit (r : Circuit) : Circuit := if cirEn r.cfg && !r.stopped then restartCircuit r else r

theorem resumeMetering_beyond (s : State) : (resumeMetering s).beyond = s.beyond := by
  unfold resumeMetering
  extract_lets s₁ s₂
  have h₁ : s₁.beyond = s.beyond := forEach_beyond s _ fun c t => modCir_beyond t c _
  clear_value s₁
  exact h₁

/-- A fold over circuits leaves those that it does not name. -/
theorem forEach_modCir_other (f : Circuit → Circuit) {l : List (Fin 24)} {c : Fin 24} (hc : c ∉ l) (s : State) :
    (s.forEach l (fun c s => s.modCir c f)).circuits[c] = s.circuits[c] := by
  induction l generalizing s with
  | nil => rfl
  | cons d l ih =>
    obtain ⟨hd, hl⟩ := List.ne_and_not_mem_of_not_mem_cons hc
    exact (ih hl (s.modCir d f)).trans (vmod_get_other _ _ _ _ hd.symm)

/-- A fold over circuits changes each that it names once. -/
theorem forEach_modCir_named (f : Circuit → Circuit) {l : List (Fin 24)} {c : Fin 24} (hl : l.Nodup) (hc : c ∈ l) (s : State) :
    (s.forEach l (fun c s => s.modCir c f)).circuits[c] = f s.circuits[c] := by
  induction l generalizing s with
  | nil => exact absurd hc List.not_mem_nil
  | cons d l ih =>
    obtain ⟨hd, hl⟩ := List.nodup_cons.1 hl
    rcases List.mem_cons.1 hc with rfl | hc
    · exact (forEach_modCir_other f hd (s.modCir c f)).trans (modCir_seen s c f)
    · exact (ih hl hc (s.modCir d f)).trans (congrArg f (vmod_get_other _ _ _ _ fun h => hd (h ▸ hc)))

theorem resumeMetering_circuits (s : State) (c : Fin 24) : (resumeMetering s).circuits[c] = resumeCircuit s.circuits[c] :=
  forEach_modCir_named resumeCircuit (List.nodup_finRange 24) (List.mem_finRange c) s

/-- The device as it goes on: VSUP supplies PD_AO, the freeze ends, the pump and the display's supply are back (R184). -/
def thawed (s : State) : State :=
  let s := (s.modHw (fun h => { h with frozen := false })).modPower (fun p => { p with supply := .vsup })
  let s := s.modFirn (fun f => { f with pump := true, save := { f.save with resumeDue := false } })
  s.modDisp (fun d => if d.mode = 2 then { d with dpwrEn := true, st := dIdle } else d)

theorem resumeRun_frame (s : State) : (resumeRun s).storeFrame = (resumeMetering (thawed s)).storeFrame := by
  unfold resumeRun
  extract_lets s₁ s₂ s₃ s₄
  have hthaw : s₃ = thawed s := rfl
  have h : s₄.storeFrame = (resumeMetering s₃).storeFrame := (considerAll_step.trans kick_step).frame
  rw [← hthaw]
  split
  · exact (startStores_frame s₄).trans h
  · exact h

/-- What RESUME leaves of supplies, freeze, save and array, and what it does to each circuit. -/
theorem resumeRun_kept (s : State) :
    (resumeRun s).power = { s.power with supply := .vsup } ∧ (resumeRun s).hw.frozen = false ∧
      (resumeRun s).firn.save.saving = s.firn.save.saving ∧ (resumeRun s).firn.arr = s.firn.arr ∧
      ∀ c : Fin 24, (resumeRun s).circuits[c] = resumeCircuit s.circuits[c] := by
  have hframe := resumeRun_frame s
  have hmeter := resumeMetering_beyond (thawed s)
  have hcir := resumeMetering_circuits (thawed s)
  generalize resumeMetering (thawed s) = u at hframe hmeter hcir
  generalize resumeRun s = t at hframe ⊢
  refine ⟨?_, ?_, ?_, ?_, fun c => ?_⟩
  · exact (congrArg StoreFrame.power hframe).trans (congrArg BeyondMetrology.power hmeter)
  · exact (congrArg (fun f : StoreFrame => f.hw.frozen) hframe).trans (congrArg (fun b : BeyondMetrology => b.hw.frozen) hmeter)
  · exact (congrArg (fun f : StoreFrame => f.save.saving) hframe).trans (congrArg (fun b : BeyondMetrology => b.firn.save.saving) hmeter)
  · exact (congrArg StoreFrame.arr hframe).trans (congrArg (fun b : BeyondMetrology => b.firn.arr) hmeter)
  · exact (congrArg (fun f : StoreFrame => f.circuits[c]) hframe).trans (hcir c)

/-! ### What the events do -/

theorem coreOn_iff : s.coreOn = true ↔ s.firnOn = true ∧ s.power.vsupValid = true := by
  rw [State.coreOn, Bool.and_eq_true]

theorem firnOn_of_coreOn (h : s.coreOn = true) : s.firnOn = true := (coreOn_iff.1 h).1

/-- BROWN_OUT: charging stops, and VSUP no longer counts (R179, R201, R203). -/
theorem exec_brownOut (dt : Nat) (kettle : BitVec 16) (hcore : s.coreOn = true) :
    exec (.brownOut dt kettle) s = .next (holdIfSaved ((powerFail 2 dt kettle (s.modClk fun k => { k with chgOn := false })).modPower
      fun p => { p with vsupValid := false, vsupHeld := false, vsupDue := false })) := by
  have hcore' : (s.modClk fun k => { k with chgOn := false }).coreOn = true := hcore
  change execBrownOut dt kettle s = _
  rw [execBrownOut, if_pos (firnOn_of_coreOn hcore)]
  dsimp only
  rw [if_pos hcore']

theorem exec_resetNLow (dt : Nat) (kettle : BitVec 16) (hcore : s.coreOn = true) :
    exec (.resetNLow dt kettle) s =
      .next (holdIfSaved ((powerFail 3 dt kettle s).modPower fun p => { p with vsupValid := false, resetN := false })) := by
  change execResetNLow dt kettle s = _
  rw [execResetNLow, if_pos (firnOn_of_coreOn hcore), if_pos hcore]

theorem exec_earlyWarning (dt : Nat) (kettle : BitVec 16) (hcore : s.coreOn = true) :
    exec (.earlyWarning dt kettle) s =
      .next ((powerFail 1 dt kettle s).modFirn fun f => { f with save := { f.save with resumeDue := false } }) := by
  change execEarlyWarning dt kettle s = _
  rw [execEarlyWarning, if_pos hcore]

/-- The end of the save, as far as the supplies: HOLD where VSUP valid has ended, and RESUME where VMON has risen meanwhile. -/
theorem exec_saveComplete (v again : Bool) (hsave : s.firn.save.saving = true) (hend : saveEnded (endRunLog v again s) = true) :
    exec (.saveComplete v again) s =
      let u := holdIfSaved ((completeSave (endRunLog v again s)).modPower fun p =>
        { p with supply := if p.vsupHeld then .vsup else .vbak })
      .next (if u.coreOn && u.hw.frozen && u.firn.save.resumeDue then resumeRun u else u) := by
  change execSaveComplete v again s = _
  rw [execSaveComplete, if_pos hsave]
  dsimp only
  rw [if_pos hend]

theorem saving_of_saveEnded (h : saveEnded s = true) : s.firn.save.saving = true := by
  rw [saveEnded, Bool.and_eq_true, Bool.and_eq_true] at h
  exact h.1.1

end Sys2Proof.Machine
end

section
/-! The power-fail events, clause by clause (R179 to R182, R184, R201, R410). -/

namespace Sys2Proof.Machine

variable {s t : State}

/-- What a trigger shows once the sequence has started, whatever it writes of VSUP itself. -/
theorem trigger_shows {i : Instr} {cause dt : Nat} {kettle : BitVec 16} {u v : State} (h : PfailTaken cause dt kettle s u)
    (hc : cause < 256) (hexec : exec i s = .next v) (hhw : v.hw = u.hw) (hclk : v.clk = u.clk) (hdisp : v.disp = u.disp)
    (hsave : v.firn.save = { u.firn.save with resumeDue := v.firn.save.resumeDue }) (hpump : v.firn.pump = u.firn.pump)
    (hsupply : v.power.supply = u.power.supply) (hstate : v.power.state = u.power.state)
    (hvalid : v.power.vsupValid = decide (cause = 1)) (hheld : v.power.vsupHeld = (s.power.vsupHeld && decide (cause ≠ 2)))
    (hreset : v.power.resetN = (s.power.resetN && decide (cause ≠ 3))) :
    ∃ t, exec i s = .next t ∧ t.hw.frozen = true ∧ t.hw.irq.getLsbD 6 = true ∧ t.power.supply = .kettle ∧ t.power.state = s.power.state ∧
      t.firn.save.saving = true ∧ t.firn.save.cause.toNat = cause ∧ t.firn.save.kStart = kettle ∧
      t.firn.save.time = s.stampAt (s.nowNs + dt) ∧ t.power.vsupValid = decide (cause = 1) ∧
      t.power.vsupHeld = (s.power.vsupHeld && decide (cause ≠ 2)) ∧ t.power.resetN = (s.power.resetN && decide (cause ≠ 3)) ∧
      t.clk.legal.count = s.clk.legal.count ∧ t.disp.dpwrEn = false ∧ t.firn.pump = false ∧
      (s.clk.billIsOpen = true → t.clk.billFlags.getLsbD 3 = true) := by
  have hcause : u.firn.save.cause.toNat = cause := by rw [h.cause, BitVec.toNat_ofNat, Nat.mod_eq_of_lt hc]
  refine ⟨v, hexec, ?_⟩
  rw [hhw, hclk, hdisp, hsave, hpump, hsupply, hstate]
  exact ⟨h.frozen, h.irq, h.supply, h.state, h.saving, hcause, h.kStart, h.time, hvalid, hheld, hreset, h.count, h.dpwrEn, h.pump, h.billFlags⟩

/-- VSUP as a trigger has left it (R179, R201). -/
theorem PfailTaken.holds {cause dt : Nat} {kettle : BitVec 16} (h : PfailTaken cause dt kettle s t) (f : Power → Power) :
    holdIfSaved (t.modPower f) = t.modPower f := holdIfSaved_saving h.saving

theorem PfailTaken.charging {cause dt : Nat} {kettle : BitVec 16} {on : Bool}
    (h : PfailTaken cause dt kettle (s.modClk fun k => { k with chgOn := on }) t) : PfailTaken cause dt kettle s t := { h with }

/-- A second warning, while the device is frozen, only takes back that VMON has risen (R184). -/
theorem earlyWarning_frozen (dt : Nat) (kettle : BitVec 16) (hcore : s.coreOn = true) (hfrozen : s.hw.frozen = true) :
    exec (.earlyWarning dt kettle) s = .next { s with firn := { s.firn with save := { s.firn.save with resumeDue := false } } } := by
  rw [exec_earlyWarning dt kettle hcore, powerFail_frozen 1 dt kettle hfrozen]
  rfl

/-- A brown-out after the save has ended leads to HOLD at once (R410). -/
theorem brownOut_saved (dt : Nat) (kettle : BitVec 16) (hcore : s.coreOn = true) (hfrozen : s.hw.frozen = true)
    (hsave : s.firn.save.saving = false) :
    ∃ t, exec (.brownOut dt kettle) s = .next t ∧ t.power.state = .hold ∧ t.power.supply = .vbak ∧ t.clk.legal.count = s.clk.legal.count ∧
      t.firn.arr = s.firn.arr := by
  rw [exec_brownOut dt kettle hcore, powerFail_frozen 2 dt kettle (s := s.modClk _) hfrozen]
  generalize hw : (s.modClk fun k => { k with chgOn := false }).modPower _ = w
  have hon := firnOn_of_coreOn hcore
  have hwon : w.firnOn = true := by rw [← hw]; exact hon
  have hwsave : w.firn.save.saving = false := by rw [← hw]; exact hsave
  have hold : holdIfSaved w = enterHold w := holdIfSaved_hold hwon (by rw [← hw]; rfl) hwsave
  obtain ⟨hstate, hsupply, hcount, harr, -, -⟩ := enterHold_kept w
  rw [hold]
  subst hw
  exact ⟨_, rfl, hstate, hsupply, hcount, harr⟩

/-- The end of the save: the device stays, or resumes, while VSUP is valid, and is in HOLD otherwise (R184, R410). -/
theorem saveComplete_ends (v again : Bool) (hon : s.firnOn = true) (hend : saveEnded (endRunLog v again s) = true) :
    ∃ t, exec (.saveComplete v again) s = .next t ∧ t.firn.save.saving = false ∧ t.firn.arr = (endRunLog v again s).firn.arr ∧
      (s.power.vsupValid = true → t.power.state = s.power.state ∧ t.hw.frozen = (s.hw.frozen && !s.firn.save.resumeDue)) ∧
      (s.power.vsupValid = false → t.power.state = .hold) := by
  obtain ⟨hpower, hhw, hsave⟩ := endRunLog_kept v again s
  rw [exec_saveComplete v again (hsave ▸ saving_of_saveEnded hend) hend]
  generalize endRunLog v again s = e at hpower hhw hsave
  have hon' : e.firnOn = true := (congrArg (fun p : Power => decide (p.state = .run) || decide (p.state = .lean)) hpower).trans hon
  have hvalid : e.power.vsupValid = s.power.vsupValid := by rw [hpower]
  have hstate : e.power.state = s.power.state := by rw [hpower]
  have hfrozen : e.hw.frozen = s.hw.frozen := by rw [hhw]
  have hdue : e.firn.save.resumeDue = s.firn.save.resumeDue := by rw [hsave]
  rw [← hvalid, ← hstate, ← hfrozen, ← hdue]
  clear hpower hhw hsave hend hvalid hstate hfrozen hdue
  generalize hw : (completeSave e).modPower _ = w
  have hwon : w.firnOn = true := hw ▸ hon'
  have hsaving : w.firn.save.saving = false := hw ▸ rfl
  have harr : w.firn.arr = e.firn.arr := hw ▸ rfl
  have hvalid : w.power.vsupValid = e.power.vsupValid := hw ▸ rfl
  have hstate : w.power.state = e.power.state := hw ▸ rfl
  have hfrozen : w.hw.frozen = e.hw.frozen := hw ▸ rfl
  have hdue : w.firn.save.resumeDue = e.firn.save.resumeDue := hw ▸ rfl
  rw [← harr, ← hvalid, ← hstate, ← hfrozen, ← hdue]
  clear hw harr hvalid hstate hfrozen hdue hon'
  refine ⟨_, rfl, ?_⟩
  cases hv : w.power.vsupValid with
  | true =>
    obtain ⟨rpower, rfrozen, rsaving, rarr, -⟩ := resumeRun_kept w
    have hcore : w.coreOn = true := coreOn_iff.2 ⟨hwon, hv⟩
    rw [holdIfSaved_valid hv, hcore, Bool.true_and]
    split
    next h =>
      obtain ⟨hfrozen, hdue⟩ := (Bool.and_eq_true _ _).mp h
      exact ⟨rsaving.trans hsaving, rarr, fun _ => ⟨by rw [rpower], by rw [rfrozen, hdue, Bool.not_true, Bool.and_false]⟩,
        fun h => absurd h (by decide)⟩
    next h =>
      refine ⟨hsaving, rfl, fun _ => ⟨rfl, ?_⟩, fun h => absurd h (by decide)⟩
      revert h
      cases w.hw.frozen <;> cases w.firn.save.resumeDue <;> decide
  | false =>
    obtain ⟨estate, -, -, earr, -, esaving⟩ := enterHold_kept w
    have hoff : (enterHold w).coreOn = false := by
      rw [State.coreOn, State.firnOn, estate]
      rfl
    rw [holdIfSaved_hold hwon hv hsaving, hoff, Bool.false_and, Bool.false_and, if_neg (by decide)]
    exact ⟨esaving, earr, fun h => absurd h (by decide), fun _ => estate⟩

/-- KETTLE_COLLAPSE: no store is left, and HOLD follows where VSUP valid has ended (R168, R182, R201). -/
theorem kettleCollapse_ends (us : List Nat) (hon : s.firnOn = true) (hsupply : s.power.supply = .kettle) :
    ∃ t, exec (.kettleCollapse us) s = .next t ∧ t.firn.reqs = [] ∧ t.firn.save.saving = false ∧
      (s.power.vsupValid = false → t.power.state = .hold) ∧ (s.power.vsupValid = true → t.power.state = s.power.state) := by
  have hexec : exec (.kettleCollapse us) s = execKettleCollapse us s := rfl
  have hpower := cutStores_power us s
  rw [hexec, execKettleCollapse, hon, hsupply, if_pos (by decide)]
  generalize cutStores us s = e at hpower
  have hon' : e.firnOn = true := (congrArg (fun p : Power => decide (p.state = .run) || decide (p.state = .lean)) hpower).trans hon
  rw [← hpower]
  dsimp only
  refine ⟨_, rfl, ?_⟩
  generalize hw : State.modPower _ _ = w
  have hwon : w.firnOn = true := hw ▸ hon'
  have hsaving : w.firn.save.saving = false := hw ▸ rfl
  have hreqs : w.firn.reqs = [] := hw ▸ rfl
  have hvalid : w.power.vsupValid = e.power.vsupValid := hw ▸ rfl
  have hstate : w.power.state = e.power.state := hw ▸ rfl
  rw [← hvalid, ← hstate]
  cases hv : w.power.vsupValid with
  | true =>
    rw [holdIfSaved_valid hv]
    exact ⟨hreqs, hsaving, fun h => absurd h (by decide), fun _ => rfl⟩
  | false =>
    obtain ⟨estate, -, -, -, ereqs, esaving⟩ := enterHold_kept w
    rw [holdIfSaved_hold hwon hv hsaving]
    exact ⟨ereqs, esaving, fun _ => estate, fun h => absurd h (by decide)⟩

theorem exec_resume (hcore : s.coreOn = true) (hfrozen : s.hw.frozen = true) :
    exec .resume s =
      .next (if s.firn.save.saving then s.modFirn (fun f => { f with save := { f.save with resumeDue := true } }) else resumeRun s) := by
  change execResume s = _
  rw [execResume, hcore, hfrozen, Bool.and_self, if_pos rfl]

/-- A circuit that goes on keeps its totals; one that runs carries PARTIAL in its first cycle (R68). -/
theorem resumeCircuit_kept (r : Circuit) :
    (resumeCircuit r).totals = r.totals ∧ (cirEn r.cfg = true → r.stopped = false → (resumeCircuit r).next.isPartial = true) := by
  unfold resumeCircuit
  constructor
  · split <;> rfl
  · intro hen hrun
    rw [hen, hrun, if_pos (by decide)]
    rfl

/-- Settles O42, over the frames of the freeze, of the save's start and of the restart. -/
theorem powerFailEventsTakeEffect : Obligations.PowerFailEventsTakeEffect := by
  unfold Obligations.PowerFailEventsTakeEffect
  refine ⟨fun i cause dt kettle s hi hcore hfrozen => ?_, fun dt kettle s hcore hfrozen => earlyWarning_frozen dt kettle hcore hfrozen,
    fun dt kettle s hcore hfrozen hsave => brownOut_saved dt kettle hcore hfrozen hsave, fun v again s hon hend => ?_,
    fun us s hon hsupply => kettleCollapse_ends us hon hsupply, fun s hcore hfrozen hsave => ?_, fun s hcore hfrozen hsave => ?_⟩
  · obtain ⟨hon, hvalid⟩ := coreOn_iff.1 hcore
    rcases hi with ⟨rfl, rfl⟩ | ⟨rfl, rfl⟩ | ⟨rfl, rfl⟩
    · have h := powerFail_taken 1 dt kettle hon hfrozen
      exact trigger_shows h (by decide) (exec_earlyWarning dt kettle hcore) rfl rfl rfl rfl rfl rfl rfl (h.vsupValid.trans hvalid)
        (h.vsupHeld.trans (Bool.and_true _).symm) (h.resetN.trans (Bool.and_true _).symm)
    · have h := powerFail_taken (s := s.modClk fun k => { k with chgOn := false }) 2 dt kettle hon hfrozen
      have hexec := (exec_brownOut dt kettle hcore).trans (congrArg Host.Outcome.next (h.holds _))
      exact trigger_shows h.charging (by decide) hexec rfl rfl rfl rfl rfl rfl rfl rfl
        (Bool.and_false _).symm (h.resetN.trans (Bool.and_true _).symm)
    · have h := powerFail_taken 3 dt kettle hon hfrozen
      have hexec := (exec_resetNLow dt kettle hcore).trans (congrArg Host.Outcome.next (h.holds _))
      exact trigger_shows h (by decide) hexec rfl rfl rfl rfl rfl rfl rfl rfl
        (h.vsupHeld.trans (Bool.and_true _).symm) (Bool.and_false _).symm
  · obtain ⟨t, hexec, hsaving, harr, hstays, hhold⟩ := saveComplete_ends v again hon hend
    exact ⟨t, hexec, hsaving, harr, hstays, hhold, fun _ hidle => by rw [harr, endRunLog_idle v again hidle]⟩
  · obtain ⟨hpower, hthawed, -, -, hcir⟩ := resumeRun_kept s
    refine ⟨resumeRun s, by rw [exec_resume hcore hfrozen, hsave, if_neg (by decide)], hthawed, by rw [hpower], fun c => ?_⟩
    rw [hcir c]
    exact resumeCircuit_kept _
  · rw [exec_resume hcore hfrozen, hsave, if_pos rfl]
    rfl

end Sys2Proof.Machine
end

section
/-! Start-up from HOLD or OFF, the end of loading, LEAN_N, and PD_AO with its charger (R80, R201 to R204, R410 to R415). -/

namespace Sys2Proof.Machine

variable {s : State}

/-! ### Start-up -/

/-- What the loader does not restore: supplies and the array; the clocks go by whether PD_AO was reset (R205). -/
theorem restoreRegs_kept (head low : Bool) (s : State) :
    (restoreRegs head low s).power = s.power ∧ (restoreRegs head low s).firn.arr = s.firn.arr ∧
      (restoreRegs head low s).hw.loaded = s.hw.loaded ∧ (restoreRegs head low s).hw.mpReady = s.hw.mpReady ∧
      (restoreRegs head low s).ring.isHead = head ∧
      ∃ f, (restoreRegs head low s).sec = lifecycleAtStart f s.sec ∧
        (restoreRegs head low s).clk = restoreClocks f s.power.aoReset s.clk := by
  unfold restoreRegs
  extract_lets f
  exact ⟨rfl, rfl, rfl, rfl, rfl, f, rfl, rfl⟩

/-- Where PD_AO was not reset the clocks run on through start-up (R204). -/
theorem restoreClocks_kept (f : Firn) (k : Clocks) :
    (restoreClocks f false k).legal = k.legal ∧ (restoreClocks f false k).service = k.service ∧ (restoreClocks f false k).alarms = k.alarms := by
  unfold restoreClocks
  dsimp only
  split <;> exact ⟨rfl, rfl, rfl⟩

theorem lifecycleAtStart_debug (f : Firn) (k : Security) : (lifecycleAtStart f k).debug = k.debug := by
  unfold lifecycleAtStart
  dsimp only
  split <;> rfl

/-- The RETIRED fuse decides, whatever the record says (R418, R419). -/
theorem lifecycleAtStart_retired (f : Firn) {k : Security} (h : k.fuseRetired = true) :
    (lifecycleAtStart f k).fuseRetired = true ∧ (lifecycleAtStart f k).state = .retired := by
  unfold lifecycleAtStart
  extract_lets bs good st breaks p1 k₁ st₁
  have hk : k₁.fuseRetired = true := by
    simp only [k₁]
    split <;> exact h
  have hst : st₁ = .retired := if_pos hk
  exact ⟨by simp only [hk, Bool.true_or], hst⟩

/-- PD_AO as start-up finds it: reset where it was without supply (R202, R410). -/
def poweredAo (s : State) : State := if s.power.state = .off then pdAoReset s else s

theorem poweredAo_kept (s : State) :
    (poweredAo s).power.supply = s.power.supply ∧ (poweredAo s).firn.arr = s.firn.arr ∧ (poweredAo s).sec.fuseRetired = s.sec.fuseRetired := by
  unfold poweredAo
  split <;> exact ⟨rfl, rfl, rfl⟩

theorem poweredAo_hold (h : s.power.state = .hold) : poweredAo s = s := by
  rw [poweredAo, h, if_neg (by decide)]

/-- The supplies once VSUP is valid (R201, R409). -/
def startedPower (leanN : Bool) (p : Power) : Power :=
  { p with
    state := if leanN then .run else .lean, vsupValid := true, vsupHeld := true, resetN := true, leanN := leanN, leanPend := none,
    supply := if p.supply = .none then .vsup else p.supply, vsupDue := decide (p.supply ≠ .none), pwrWake := false, aoReset := false }

/-- What start-up adds to what the loader has restored: the image of the pages, PFAIL of an open interval, the end of a freeze, supplies. -/
def started (leanN : Bool) (s : State) : State :=
  let s := (latchRestored s).modClk (fun k => if k.billIsOpen then { k with billFlags := k.billFlags ||| 8 } else k)
  (s.modHw (fun h => { h with frozen := false })).modPower (startedPower leanN)

theorem startUp_eq (leanN head low : Bool) (s : State) :
    startUp leanN head low s = started leanN (restoreRegs head low (coreLost (poweredAo s))) := rfl

theorem latchRestored_eq (s : State) : ∃ ps : Firn → List (Nat × List Byte), latchRestored s = s.modFirn (fun f => latchPages (ps f) f) :=
  ⟨fun f => (List.range 512).map (fun p => (p, if p = 109 ∧ !pageLost f 109 then storedData f 109 else encodePage p s)), rfl⟩

theorem started_kept (leanN : Bool) (u : State) :
    let t := started leanN u
    t.power = startedPower leanN u.power ∧ t.hw = { u.hw with frozen := false } ∧ t.ring = u.ring ∧ t.sec = u.sec ∧ t.firn.arr = u.firn.arr ∧
      t.clk.legal = u.clk.legal ∧ t.clk.service = u.clk.service ∧ t.clk.alarms = u.clk.alarms := by
  have hclk (k : Clocks) : let k' := if k.billIsOpen then { k with billFlags := k.billFlags ||| 8 } else k
      k'.legal = k.legal ∧ k'.service = k.service ∧ k'.alarms = k.alarms := by
    dsimp only
    split <;> exact ⟨rfl, rfl, rfl⟩
  obtain ⟨ps, hps⟩ := latchRestored_eq u
  rw [started, hps]
  exact ⟨rfl, rfl, rfl, rfl, rfl, hclk u.clk⟩

/-- Start-up from HOLD or OFF (R80, R204, R410, R415, R418). -/
theorem vsupValid_starts (leanN head low : Bool) (hoff : s.firnOn = false) :
    ∃ t, exec (.vsupValid leanN head low) s = .next t ∧ t.power.state = (if leanN then .run else .lean) ∧ t.power.vsupValid = true ∧
      t.power.supply = (if s.power.supply = .none then .vsup else s.power.supply) ∧
      t.power.vsupDue = decide (s.power.supply ≠ .none) ∧ t.hw.frozen = false ∧ t.hw.loaded = false ∧ t.hw.mpReady = false ∧ t.ring.isHead = head ∧
      t.sec.debug = 0 ∧ (s.sec.fuseRetired = true → t.sec.fuseRetired = true ∧ t.sec.state = .retired) ∧
      t.firn.arr = s.firn.arr ∧
      (s.power.state = .hold → s.power.aoReset = false →
        t.clk.legal.count = s.clk.legal.count ∧ t.clk.service.count = s.clk.service.count ∧ t.clk.alarms = s.clk.alarms) := by
  have hexec : exec (.vsupValid leanN head low) s = .next (startUp leanN head low s) := by
    change Host.Outcome.next (if s.firnOn then s else startUp leanN head low s) = _
    rw [hoff, if_neg (by decide)]
  refine ⟨_, hexec, ?_⟩
  rw [startUp_eq]
  obtain ⟨tpower, thw, tring, tsec, tarr, tlegal, tservice, talarms⟩ := started_kept leanN (restoreRegs head low (coreLost (poweredAo s)))
  obtain ⟨rpower, rarr, rloaded, rready, rhead, f, rsec, rclk⟩ := restoreRegs_kept head low (coreLost (poweredAo s))
  obtain ⟨cpower, cclk, carr, cdebug, cfuse, cloaded, cready⟩ := coreLost_kept (poweredAo s)
  obtain ⟨asupply, aarr, afuse⟩ := poweredAo_kept s
  have hsupply : (restoreRegs head low (coreLost (poweredAo s))).power.supply = s.power.supply := by rw [rpower, cpower, asupply]
  have hclk : s.power.state = .hold → s.power.aoReset = false → (restoreRegs head low (coreLost (poweredAo s))).clk = restoreClocks f false (clocksAlone s.clk) := by
    intro hhold hao
    rw [rclk, cpower, cclk, poweredAo_hold hhold, hao]
  rw [← hsupply, tpower, thw, tring, tsec, tarr, tlegal, tservice, talarms]
  generalize restoreRegs head low (coreLost (poweredAo s)) = u at *
  refine ⟨rfl, rfl, rfl, rfl, rfl, rloaded.trans cloaded, rready.trans cready, rhead, ?_, fun hfuse => ?_, rarr.trans (carr.trans aarr),
    fun hhold hao => ?_⟩
  · rw [rsec, lifecycleAtStart_debug, cdebug]
  · rw [rsec]
    exact lifecycleAtStart_retired f (cfuse.trans (afuse.trans hfuse))
  · obtain ⟨klegal, kservice, kalarms⟩ := restoreClocks_kept f (clocksAlone s.clk)
    rw [hclk hhold hao, klegal, kservice, kalarms]
    exact ⟨rfl, rfl, rfl⟩

/-! ### The end of loading -/

/-- The state in which the stores of a start-up are requested (R80, R415). -/
def loadedRun (s : State) : State :=
  let s := (loadLatches (s.modHw (fun h => { h with loaded := true }))).modTime (fun t => { t with lockRun := 0 })
  { s with ports := s.ports.map (fun (r : Port) => tracerStart r) }

theorem exec_loaded (hcore : s.coreOn = true) (hloaded : s.hw.loaded = false) (hfrozen : s.hw.frozen = false) :
    exec .loaded s = .next (startStores (loadedRun s)) := by
  have hthawed : (loadedRun s).hw.frozen = false := hfrozen
  have hexec : exec .loaded s = .next (if s.coreOn && !s.hw.loaded then
      (if (loadedRun s).hw.frozen then loadedRun s else startStores (loadedRun s)) else s) := rfl
  rw [hexec, hcore, hloaded, hthawed, if_pos (by decide), if_neg (by decide)]

/-- A head whose epoch is not stored requests its store after that of RUN_LOG (R185, R227). -/
theorem startStores_head (howed : s.firn.runLogOwed = true) (hhead : s.ring.isHead = true) (hstored : s.time.startStored = false)
    (hworn : s.time.startWorn = false) (hreqs : ∀ r ∈ s.firn.reqs, r.change ≠ .epochStart) :
    startStores s = openStore .epochStart none (openStore .runLogStart none { s with firn := { s.firn with runLogOwed := false } }) := by
  have hlog : openRunLog s = openStore .runLogStart none { s with firn := { s.firn with runLogOwed := false } } := by
    rw [openRunLog, howed, if_pos rfl]
  obtain ⟨hframe, hchange⟩ := openRunLog_step s
  rw [startStores_eq, ← hlog]
  generalize openRunLog s = u at hframe hchange
  have uhead : u.ring.isHead = true := (congrArg StoreFrame.isHead hframe).trans hhead
  have ustored : u.time.startStored = false := (congrArg StoreFrame.startStored hframe).trans hstored
  have uworn : u.time.startWorn = false := (congrArg StoreFrame.startWorn hframe).trans hworn
  have ureqs : u.firn.reqs.any (fun r => decide (r.change = .epochStart)) = false := by
    rw [List.any_eq_false]
    intro r hr
    rcases hchange r hr with h | ⟨q, hq, h⟩
    · simp [h]
    · simpa [← h] using hreqs q hq
  rw [openEpoch, uhead, ustored, uworn, ureqs, if_pos (by decide)]

/-- Another unit than the head has no epoch to store. -/
theorem startStores_unit (hhead : s.ring.isHead = false) : startStores s = openRunLog s := by
  have uhead : (openRunLog s).ring.isHead = false := (congrArg StoreFrame.isHead (openRunLog_step s).1).trans hhead
  rw [startStores_eq, openEpoch, uhead]
  rfl

/-! ### LEAN_N -/

/-- A frame of the unit's own is still being sent (R412). -/
theorem plcFraming_sending (h : s.nowNs < s.plc.txUntil) : plcFraming s = true := by
  rw [plcFraming, decide_eq_true h, Bool.true_or]

theorem plcFraming_quiet (hsent : s.plc.txUntil ≤ s.nowNs) (hreply : ∀ x, s.plc.xchg = some x → x.detected = none) : plcFraming s = false := by
  unfold plcFraming
  rw [decide_eq_false (Nat.not_lt.2 hsent), Bool.false_or]
  split
  next x hx => rw [hreply x hx]; rfl
  · rfl

/-- What keeps a change of LEAN_N waiting (R412). -/
def leanWaits (lean : Bool) (s : State) : Bool :=
  s.hw.swapping || (lean && (plcFraming s || (s.disp.upd.isSome && decide (s.disp.mode = 1))))

theorem takeLean_waits {lean : Bool} (hpend : s.power.leanPend = some lean) (hwaits : leanWaits lean s = true) : takeLean s = s := by
  rw [takeLean, hpend]
  exact if_pos hwaits

/-- The state that a level of LEAN_N selects. -/
def leanState (lean : Bool) : PowerState := if lean then .lean else .run

/-- The move to the other state: debug and nonces end (R412, R425, R429). -/
def leanMoved (lean : Bool) (s : State) : State :=
  voidNonces (dropDebug ((s.modPower (fun p => { p with leanPend := none })).modPower (fun p => { p with state := leanState lean })))

theorem leanMoved_kept (lean : Bool) (s : State) :
    (leanMoved lean s).power.state = leanState lean ∧ (leanMoved lean s).power.leanPend = none ∧
      ((leanMoved lean s).sec.debug = 0 ∧ (leanMoved lean s).sec.unsealNonce = none ∧ (leanMoved lean s).sec.debugNonce = none) ∧
      (leanMoved lean s).circuits = s.circuits ∧ (leanMoved lean s).firn = s.firn := by
  obtain ⟨hpower, -, hfirn, hcir⟩ :=
    voidDebug_kept ((s.modPower (fun p => { p with leanPend := none })).modPower (fun p => { p with state := leanState lean }))
  rw [leanMoved, hpower, hfirn, hcir, voidDebug_sec]
  exact ⟨rfl, rfl, ⟨rfl, rfl, rfl⟩, rfl, rfl⟩

/-- A change of LEAN_N that takes effect selects RUN or LEAN; where that changes the state, debug and nonces end (R412, R425, R429). -/
theorem takeLean_takes {lean : Bool} (hpend : s.power.leanPend = some lean) (hwaits : leanWaits lean s = false) :
    (takeLean s).power.state = leanState lean ∧ (takeLean s).power.leanPend = none ∧
      ((takeLean s).power.state ≠ s.power.state →
        (takeLean s).sec.debug = 0 ∧ (takeLean s).sec.unsealNonce = none ∧ (takeLean s).sec.debugNonce = none) ∧
      (takeLean s).circuits = s.circuits ∧ (takeLean s).firn = s.firn := by
  have htake : takeLean s = if leanState lean = s.power.state then s.modPower (fun p => { p with leanPend := none })
      else if lean then
        ((leanMoved lean s).modPlc (fun p => { p with
          xchg := none, prepared := none, turnPend := false, turnLeft := [], turnLeaves := [], colander := Plc.reset.colander })).modDisp
            (fun d => { d with dpwrEn := false, doe := false })
      else (leanMoved lean s).modDisp (fun d => { d with dpwrEn := decide (d.mode = 2) }) := by
    rw [takeLean, hpend]
    exact if_neg (Bool.eq_false_iff.1 hwaits)
  obtain ⟨hstate, hnone, hvoid, hcir, hfirn⟩ := leanMoved_kept lean s
  rw [htake]
  generalize leanMoved lean s = u at hstate hnone hvoid hcir hfirn ⊢
  by_cases h : leanState lean = s.power.state
  · rw [if_pos h]
    exact ⟨h.symm, rfl, fun hne => absurd rfl hne, rfl, rfl⟩
  · rw [if_neg h]
    split <;> exact ⟨hstate, hnone, fun _ => hvoid, hcir, hfirn⟩

/-- LEAN_N as the device takes it while its core runs (R412). -/
theorem exec_leanNChange (level : Bool) (hcore : s.coreOn = true) :
    exec (.leanNChange level) s =
      .next (takeLean { s with power := { s.power with leanN := level, leanPend := some (!level) } }) := by
  have hcore' : (s.modPower fun p => { p with leanN := level }).coreOn = true := hcore
  change execLeanNChange level s = _
  rw [execLeanNChange]
  dsimp only
  rw [if_pos hcore']
  rfl

/-! ### The charger -/

/-- The charger's comparator with the stop level and the hysteresis of R203. -/
theorem chargerAt_eq (on : Bool) (cfg : Word) (mv : Nat) :
    chargerAt on cfg mv = (cfg.getLsbD 7 && decide (mv < 2400 + 100 * (cfg.toNat / 4096 % 16)) &&
      (decide (mv + 50 ≤ 2400 + 100 * (cfg.toNat / 4096 % 16)) || on)) := by
  have hen : clkChgEn cfg = cfg.getLsbD 7 := rfl
  have hstop : clkChgStop cfg = 2400 + 100 * (cfg.toNat / 4096 % 16) := rfl
  rw [chargerAt, hen, hstop]
  generalize 2400 + 100 * (cfg.toNat / 4096 % 16) = stop
  cases cfg.getLsbD 7 with
  | false => rfl
  | true =>
    by_cases hlow : stop ≤ mv
    · simp [hlow, Nat.not_lt.2 hlow]
    · by_cases hhyst : mv + 50 ≤ stop <;> simp [hlow, hhyst, Nat.lt_of_not_le hlow]

/-! ### PD_AO -/

/-- The events of PD_AO in HOLD (R410, R413). -/
theorem hold_events (h : s.power.state = .hold) :
    exec .wakeN s = .next { s with power := { s.power with pwrWake := true } } ∧
      exec .pwrWakeTimeout s = .next { s with power := { s.power with pwrWake := false } } ∧
      (s.power.vsupHeld = false →
        exec .pdAoSupplyLost s = .next { s with power := { s.power with state := .off, supply := .none, pwrWake := false } }) := by
  refine ⟨?_, ?_, fun hheld => ?_⟩
  · change execWakeN s = _
    rw [execWakeN, if_pos h]
    rfl
  · change execPwrWakeTimeout s = _
    rw [execPwrWakeTimeout, if_pos h]
    rfl
  · change execPdAoSupplyLost s = _
    rw [execPdAoSupplyLost, if_pos ⟨h, hheld⟩]
    rfl

theorem exec_pdAoPowerUp (h : s.power.state = .off) :
    exec .pdAoPowerUp s = .next ((pdAoReset s).modPower (fun p => { p with state := .hold, supply := .vbak })) := by
  change execPdAoPowerUp s = _
  rw [execPdAoPowerUp, if_pos h]

/-- Settles O43: start-up over what the core's loss and the loader keep, LOADED over the frame of a requested store, LEAN_N over its two
outcomes. -/
theorem startUpAndBackupSupply : Obligations.StartUpAndBackupSupply := by
  unfold Obligations.StartUpAndBackupSupply
  refine ⟨⟨fun leanN head low s hoff => vsupValid_starts leanN head low hoff, fun a b d s hon => ?_, fun s hcore hloaded hfrozen => ?_,
    fun level s hcore hswap hquiet => ?_, fun s hcore hbusy => ?_⟩, fun s h => hold_events h, fun s h => ?_, fun s h => ?_,
    fun mv s hcore => ?_⟩
  · change Host.Outcome.next (if s.firnOn then s else startUp a b d s) = _
    rw [if_pos hon]
  · refine ⟨loadedRun s, exec_loaded hcore hloaded hfrozen, fun howed => ⟨fun hhead hstored hworn hreqs => ?_, fun hhead => ?_⟩,
      fun howed hhead => ?_, rfl, rfl, rfl, rfl, rfl⟩
    · exact startStores_head (s := loadedRun s) howed hhead hstored hworn hreqs
    · rw [startStores_unit (s := loadedRun s) hhead]
      exact if_pos howed
    · rw [startStores_unit (s := loadedRun s) hhead]
      exact if_neg (Bool.eq_false_iff.1 howed)
  · have hnot : leanWaits (!level) { s with power := { s.power with leanN := level, leanPend := some (!level) } } = false := by
      rcases hquiet with rfl | ⟨hmode, hsent, hreply⟩
      · rw [leanWaits, hswap]
        rfl
      · change (s.hw.swapping || (!level && (plcFraming s || (s.disp.upd.isSome && decide (s.disp.mode = 1))))) = false
        rw [hswap, plcFraming_quiet hsent hreply, decide_eq_false hmode, Bool.and_false, Bool.or_false, Bool.and_false, Bool.or_false]
    obtain ⟨hstate, hnone, hvoid, hcir, hfirn⟩ := takeLean_takes rfl hnot
    refine ⟨_, exec_leanNChange level hcore, hstate.trans ?_, hnone, hvoid, hcir, hfirn⟩
    cases level <;> rfl
  · rw [exec_leanNChange false hcore, takeLean_waits rfl]
    · rfl
    · change (s.hw.swapping || (plcFraming s || (s.disp.upd.isSome && decide (s.disp.mode = 1)))) = true
      rcases hbusy with hswap | hsend | ⟨hmode, hupd⟩
      · rw [hswap, Bool.true_or]
      · rw [plcFraming_sending hsend, Bool.true_or, Bool.or_true]
      · rw [decide_eq_true hmode, hupd, Bool.and_self, Bool.or_true, Bool.or_true]
  · exact ⟨_, exec_pdAoPowerUp h, rfl, rfl, rfl, rfl, rfl, rfl, rfl⟩
  · change execVbakLow s = _
    rw [execVbakLow, if_neg h]
    rfl
  · dsimp only
    change execChargerThreshold mv s = _
    rw [execChargerThreshold, if_pos hcore, ← chargerAt_eq]
    rfl

end Sys2Proof.Machine
end

section
/-! The parameters of power quality: VSET_WRITE and CH_WRITE (R91 to R93, R311, R322). -/

namespace Sys2Proof.Machine

variable {t : Fin 64} {c : Cmd} {s : State}

/-- SET 1 and 2 name sets A and B (R91). -/
theorem setNo_succ (b : Fin 2) : setNo (b.val + 1) = some b := by
  match b with
  | 0 => rfl
  | 1 => rfl

/-- The ranges and the two conflicts of R92, in the fields of the word. -/
theorem vsetCfgOk_iff (w : Nat) :
    vsetCfgOk w = true ↔ w / 2 ^ 6 % 4 = 0 ∧ 1 ≤ w / 2 ^ 8 % 256 ∧ w / 2 ^ 8 % 256 ≤ 99 ∧ 101 ≤ w / 2 ^ 16 % 256 ∧ w / 2 ^ 16 % 256 ≤ 200 ∧
      1 ≤ w / 2 ^ 24 % 16 ∧ 1 ≤ w / 2 ^ 28 % 16 ∧ w / 2 ^ 28 % 16 + w / 2 ^ 24 % 16 < w / 2 ^ 8 % 256 ∧
      100 + w / 2 ^ 24 % 16 < w / 2 ^ 16 % 256 := by
  have hdip : vsDip (BitVec.ofNat 32 w) = w / 2 ^ 8 % 256 := by
    simp only [vsDip, bitsN, BitVec.toNat_ofNat]
    omega
  have hswell : vsSwell (BitVec.ofNat 32 w) = w / 2 ^ 16 % 256 := by
    simp only [vsSwell, bitsN, BitVec.toNat_ofNat]
    omega
  have hhyst : vsHyst (BitVec.ofNat 32 w) = w / 2 ^ 24 % 16 := by
    simp only [vsHyst, bitsN, BitVec.toNat_ofNat]
    omega
  have hint : vsInt (BitVec.ofNat 32 w) = w / 2 ^ 28 % 16 := by
    simp only [vsInt, bitsN, BitVec.toNat_ofNat]
    omega
  simp only [vsetCfgOk, vsetCfgRsv, bitsN, hdip, hswell, hhyst, hint, Bool.and_eq_true, decide_eq_true_eq, Bool.not_eq_true', bne_eq_false_iff_eq,
    and_assoc]
  rfl

/-- A request of VSET_WRITE that would change NOMF (R91). -/
abbrev movesNomf (b : Fin 2) (c : Cmd) (s : State) : Prop :=
  vsNomf (BitVec.ofNat 32 (payField c 4 4)) ≠ vsNomf (s.pqSets[b]).cfgW

section
variable {b : Fin 2} (hb : payField c 0 1 = b.val + 1)
include hb

theorem runVsetWrite_sealed (hs : s.sec.state = .sealed) (hsel : (payField c 1 1).testBit 0 = true) (hn : movesNomf b c s) :
    runVsetWrite (cmdIn t c s) s = fail .sealed s := by
  simp only [runVsetWrite, p1_cmdIn, p4_cmdIn, hb, setNo_succ]
  exact if_pos ⟨hs, hsel, decide_eq_true hn⟩

theorem runVsetWrite_stores (hn : ¬ (s.sec.state = .sealed ∧ (payField c 1 1).testBit 0 = true ∧ movesNomf b c s))
    (hsel : payField c 1 1 < 8) (hcfg : payField c 4 4 / 2 ^ 6 % 4 = 0) (hevt : payField c 12 4 / 2 ^ 29 = 0)
    (h0 : (payField c 1 1).testBit 0 = true → vsetCfgOk (payField c 4 4) = true)
    (h1 : (payField c 1 1).testBit 1 = true → udinOk (payField c 8 4) = true)
    (h2 : (payField c 1 1).testBit 2 = true → evtOk (payField c 12 4) = true) :
    runVsetWrite (cmdIn t c s) s = .store (.vset b (BitVec.ofNat 3 (payField c 1 1)) (BitVec.ofNat 32 (payField c 4 4))
      (BitVec.ofNat 32 (payField c 8 4)) (BitVec.ofNat 32 (payField c 12 4))) s := by
  have hrsv : vsetCfgRsv (payField c 4 4) = false := bne_eq_false_iff_eq.2 hcfg
  have hersv : evtRsv (payField c 12 4) = false := by simp only [evtRsv, bitsN, hevt]; rfl
  simp only [runVsetWrite, p1_cmdIn, p4_cmdIn, hb, setNo_succ]
  rw [if_neg fun ⟨hs, hbit, hd⟩ => hn ⟨hs, hbit, of_decide_eq_true hd⟩, if_neg]
  rintro (h | h | h | ⟨h, h'⟩ | ⟨h, h'⟩ | ⟨h, h'⟩)
  · omega
  · simp [hrsv] at h
  · simp [hersv] at h
  · simp [h0 h] at h'
  · simp [h1 h] at h'
  · simp [h2 h] at h'

theorem runVsetWrite_range (hn : ¬ (s.sec.state = .sealed ∧ movesNomf b c s)) (hsel : (payField c 1 1).testBit 0 = true)
    (hbad : vsetCfgOk (payField c 4 4) = false) : runVsetWrite (cmdIn t c s) s = fail .range s := by
  simp only [runVsetWrite, p1_cmdIn, p4_cmdIn, hb, setNo_succ]
  rw [if_neg fun ⟨hs, _, hd⟩ => hn ⟨hs, of_decide_eq_true hd⟩]
  exact if_pos (.inr (.inr (.inr (.inl ⟨hsel, by rw [hbad]; rfl⟩))))

end

section
variable {k : Fin 32} (hk : payField c 0 1 = k.val + 1)
include hk

theorem runChWrite_stores (hsel : payField c 1 1 < 4) (hfe : payField c 4 4 < 65536)
    (h0 : (payField c 1 1).testBit 0 = true → chFeOk (payField c 4 4) = true) (h1 : (payField c 1 1).testBit 1 = true → k.val < 24) :
    runChWrite (cmdIn t c s) s =
      .store (.channel k (BitVec.ofNat 2 (payField c 1 1)) (BitVec.ofNat 32 (payField c 4 4)) (BitVec.ofNat 32 (payField c 8 4))) s := by
  have hlt := k.isLt
  simp only [runChWrite, p1_cmdIn, p4_cmdIn, hk, Nat.add_sub_cancel, ofNat_val]
  rw [if_neg]
  rintro (h | h | h | h | ⟨h, h'⟩ | ⟨h, h'⟩)
  · omega
  · omega
  · omega
  · omega
  · simp [h0 h] at h'
  · have := h1 h
    omega

theorem runChWrite_range (h24 : 24 ≤ k.val) (hbit : (payField c 1 1).testBit 1 = true) :
    runChWrite (cmdIn t c s) s = fail .range s := by
  simp only [runChWrite, p1_cmdIn, p4_cmdIn, hk]
  exact if_pos (.inr (.inr (.inr (.inr (.inr ⟨hbit, by omega⟩)))))

end

/-- Settles O21: the change of NOMF is judged first, then the ranges and conflicts of R92; what passes them asks for its store. -/
theorem pqParametersAskForStores : Obligations.PqParametersAskForStores := by
  refine fun t c s hfree => ⟨fun b h hb => ⟨fun hn hsel hcfg hevt h0 h1 h2 => ?_, fun hs hsel hn => ?_, fun hn hsel hbad => ?_⟩,
    fun k h hk => ⟨fun hsel hfe h0 h1 => ?_, fun h24 hbit => ?_⟩⟩
  · exact exec_store (body := runVsetWrite) rfl rfl h hfree (runVsetWrite_stores hb hn hsel hcfg hevt h0 h1 h2)
  · exact exec_done (body := runVsetWrite) rfl rfl h (runVsetWrite_sealed hb hs hsel hn)
  · have hcfg : vsetCfgOk (payField c 4 4) = false := by
      rw [← Bool.not_eq_true, vsetCfgOk_iff]
      omega
    exact ⟨exec_done (body := runVsetWrite) rfl rfl h (runVsetWrite_range hb hn hsel hcfg), by simp⟩
  · exact exec_store (body := runChWrite) rfl rfl h hfree (runChWrite_stores hk hsel hfe h0 h1)
  · exact exec_done (body := runChWrite) rfl rfl h (runChWrite_range hk h24 hbit)

end Sys2Proof.Machine
end

section
/-! The readings of power quality (R104, R106, R107, R113, R118 to R123, R322, R411). -/

namespace Sys2Proof.Machine

variable {t : Fin 64} {c : Cmd} {s : State}

/-! ### Bytes of a block -/

@[simp] theorem leBytes_length (n v : Nat) : (leBytes n v).length = n := by
  induction n generalizing v with
  | zero => rfl
  | succ n ih => rw [leBytes, List.length_cons, ih]

theorem leInt_length (n : Nat) (v : Int) : (leInt n v).length = n := leBytes_length n _

theorem leBytes_zero (n : Nat) : leBytes n 0 = List.replicate n 0 := by
  induction n with
  | zero => rfl
  | succ n ih => rw [leBytes, Nat.zero_div, ih]; rfl

/-- A block of entries of one size. -/
theorem length_flatMap_of_entries {α β : Type} (l : List α) {f : α → List β} {n : Nat} (h : ∀ a, (f a).length = n) :
    (l.flatMap f).length = l.length * n := by
  simp only [List.length_flatMap, h, List.map_const', List.sum_replicate, smul_eq_mul]

/-! ### Results of windows and aggregates -/

theorem runPqRead_ok (hsets : payField c 0 1 < 4) (hclasses : payField c 1 1 < 16) :
    runPqRead (cmdIn t c s) s =
      .done .ok (leBytes 1 (pqBlocks (payField c 0 1) (payField c 1 1) s).length) (pqBlocks (payField c 0 1) (payField c 1 1) s).flatten s := by
  simp only [runPqRead, p1_cmdIn]
  exact if_neg (by omega)

theorem runPqRead_range (h : 4 ≤ payField c 0 1 ∨ 16 ≤ payField c 1 1) : runPqRead (cmdIn t c s) s = fail .range s := by
  simp only [runPqRead, p1_cmdIn]
  exact if_pos (by omega)

theorem runHarmRead_some {k : Fin 32} {n : Fin 4} (hk : payField c 0 1 = k.val + 1) (hn : payField c 1 1 = n.val) :
    runHarmRead (cmdIn t c s) s =
      .done .ok (leBytes 4 ((s.pqSets[setOfChan s k]).results[n]).seq.toNat ++ leBytes 2 ((s.pqSets[setOfChan s k]).results[n]).status.toNat)
        (harmBlock n (s.pqSets[setOfChan s k]).results[n] k.val) s := by
  have hklt := k.isLt
  have hnlt := n.isLt
  simp only [runHarmRead, p1_cmdIn, hk, hn, Nat.add_sub_cancel, ofNat_val]
  exact if_neg (by omega)

theorem runHarmRead_range (h : payField c 0 1 = 0 ∨ 32 < payField c 0 1 ∨ 3 < payField c 1 1) :
    runHarmRead (cmdIn t c s) s = fail .range s := by
  simp only [runHarmRead, p1_cmdIn]
  exact if_pos (by omega)

theorem harmBlock_eq (n : Fin 4) (r : PqResult) (ch : Nat) :
    harmBlock n r ch =
      if keyed r.vals.harm ch = [] then List.replicate 2560 0 else (List.range 128).flatMap (harmEntry n r ch) := by
  simp only [harmBlock, List.isEmpty_iff]

theorem harmEntry_length (n : Fin 4) (r : PqResult) (ch h : Nat) : (harmEntry n r ch h).length = 20 := by
  rw [harmEntry, List.length_append, List.length_append, length_flatMap_of_entries _ fun _ => leBytes_length _ _]
  simp

theorem harmBlock_length (n : Fin 4) (r : PqResult) (ch : Nat) : (harmBlock n r ch).length = 2560 := by
  rw [harmBlock_eq]
  split
  · exact List.length_replicate
  · rw [length_flatMap_of_entries _ (harmEntry_length n r ch), List.length_range]

theorem runHpowRead_some {k : Fin 24} {n : Fin 3} (hk : payField c 0 1 = k.val + 1) (hn : payField c 1 1 = n.val) :
    let r := (s.pqSets[Fin.ofNat 2 (cirSet (s.circuits[k]).cfg)]).results[Fin.ofNat 4 n.val]
    runHpowRead (cmdIn t c s) s = .done .ok (leBytes 4 r.seq.toNat ++ leBytes 2 r.status.toNat) (hpowBlock r k.val) s := by
  have hnlt := n.isLt
  simp only [runHpowRead, p1_cmdIn, hk, hn, num24_succ]
  exact if_neg (by omega)

theorem runHpowRead_range (h : payField c 0 1 = 0 ∨ 24 < payField c 0 1 ∨ 2 < payField c 1 1) :
    runHpowRead (cmdIn t c s) s = fail .range s := by
  simp only [runHpowRead, p1_cmdIn]
  by_cases hk : payField c 0 1 = 0 ∨ 24 < payField c 0 1
  · rw [num24_none hk]
  · split
    · rfl
    · exact if_pos (by omega)

theorem hpowBlock_length (r : PqResult) (c : Nat) : (hpowBlock r c).length = 2048 := by
  rw [hpowBlock, length_flatMap_of_entries _ fun _ => leInt_length 4 _, List.length_range]

theorem hpowBlock_empty {r : PqResult} {c : Nat} (h : keyed r.vals.hpow c = []) : hpowBlock r c = List.replicate 2048 0 := by
  have hentry (k : Nat) : leInt 4 ((keyed r.vals.hpow c).getD k 0) = List.replicate 4 0 := by
    rw [h]
    exact leBytes_zero 4
  simp only [hpowBlock, hentry, List.flatMap_def, List.map_const', List.flatten_replicate_replicate, List.length_range]

theorem runFlickerRead_some {v : Fin 8} (hv : payField c 0 1 = v.val + 25) :
    runFlickerRead (cmdIn t c s) s = okWith (flickerPayload s.pq.flicker[v]) s := by
  have hlt := v.isLt
  simp only [runFlickerRead, p1_cmdIn, hv, Nat.add_sub_cancel, ofNat_val]
  exact if_neg (by omega)

theorem runFlickerRead_range (h : payField c 0 1 < 25 ∨ 32 < payField c 0 1) : runFlickerRead (cmdIn t c s) s = fail .range s := by
  simp only [runFlickerRead, p1_cmdIn]
  exact if_pos h

/-! ### Events -/

theorem popEvent_restored {p : PqUnit} {r : EventRec} {l : List EventRec} (h : p.restored = r :: l) :
    popEvent p = (some r, { p with restored := l }) := by
  simp only [popEvent, h]

theorem popEvent_fifo {p : PqUnit} {r : EventRec} {l : List EventRec} (hr : p.restored = []) (hf : p.fifo = r :: l) :
    popEvent p = (some r, { p with fifo := l }) := by
  simp only [popEvent, hr, hf]

theorem popEvent_empty {p : PqUnit} (hr : p.restored = []) (hf : p.fifo = []) : popEvent p = (none, p) := by
  simp only [popEvent, hr, hf]

/-- EVENT_READ answers with EV_STAT as it was and with the record that leaves its list (R119, R120). -/
theorem eventRead_pops (h : Takes rowEventRead t c s) :
    exec (.eventRead t) s = .next (answer t .ok
      (leBytes 4 (evStat s) ++ leBytes 1 (bitN (popEvent s.pq).1.isSome) ++ leBytes 3 0 ++
        padTo 32 (((popEvent s.pq).1.map eventBytes).getD [])) [] { s with pq := { (popEvent s.pq).2 with evOvf := 0 } }) :=
  exec_done (body := runEventRead) rfl rfl h rfl

/-- EV_STAT keeps the FIFO's length in its low bits and EV_OVF above bit 16 (R119). -/
theorem evStat_fields (h : s.pq.fifo.length ≤ 64) : evStat s % 128 = s.pq.fifo.length ∧ evStat s / 65536 = s.pq.evOvf.toNat := by
  have hbit (b : Bool) : bitN b ≤ 1 := by cases b <;> decide
  have hact (q : PqSet) : bitN q.dip.isSome + 2 * bitN q.swell.isSome + 4 * bitN q.intr.isSome + 8 * bitN q.rvc.isSome ≤ 15 := by
    have := hbit q.dip.isSome
    have := hbit q.swell.isSome
    have := hbit q.intr.isSome
    have := hbit q.rvc.isSome
    omega
  have h0 := hact s.pqSets[(0 : Fin 2)]
  have h1 := hact s.pqSets[(1 : Fin 2)]
  simp only [evStat]
  omega

/-! ### Wideband results -/

theorem runSupraRead_some {w : Fin 2} {n : Fin 3} (hw : payField c 0 1 = w.val + 1) (hn : payField c 1 1 = n.val) :
    let r := s.pq.supra[n]
    runSupraRead (cmdIn t c s) s =
      .done .ok (leBytes 4 r.seq.toNat ++ leBytes 2 r.status.toNat ++ leBytes 2 (min r.excl 0xFFFF) ++ r.time.bytes) (supraBlock r w) s := by
  have hwlt := w.isLt
  have hnlt := n.isLt
  simp only [runSupraRead, p1_cmdIn, hw, hn, Nat.add_sub_cancel, ofNat_val]
  exact if_neg (by omega)

theorem runSupraRead_range (h : payField c 0 1 = 0 ∨ 2 < payField c 0 1 ∨ 2 < payField c 1 1) :
    runSupraRead (cmdIn t c s) s = fail .range s := by
  simp only [runSupraRead, p1_cmdIn]
  exact if_pos (by omega)

theorem supraBlock_length (r : SupraResult) (ch : Fin 2) : (supraBlock r ch).length = 2960 := by
  rw [supraBlock, length_flatMap_of_entries _ fun _ => leBytes_length _ _, List.length_range]

/-- The table of 16 segments read carrier by carrier (R123). -/
theorem noiseAt_eq (p : PqUnit) {k : Nat} (h : k < 768) :
    noiseAt p (k / 384) (k / 48 % 8) (k % 48) = (p.noise[Fin.ofNat 16 (k / 48)]).getD (k % 48) 0 := by
  have hseg : 8 * (k / 384) + k / 48 % 8 = k / 48 := by omega
  have hlt : k / 48 < 16 := by omega
  simp only [noiseAt, vget, hseg, dif_pos hlt, Fin.getElem_fin, Fin.val_ofNat, Nat.mod_eq_of_lt hlt]

theorem ite_some_eq_none_iff {α : Type} {p : Prop} [Decidable p] {a : α} {x : Option α} :
    (if p then some a else x) = none ↔ ¬ p ∧ x = none := by
  by_cases h : p <;> simp [h]

/-- A command passes the common checks where it passes each of them (R311). -/
theorem rowCheck_eq_none_iff {row : CmdRow} {bulk : List Byte} :
    rowCheck row c bulk s = none ↔ ¬ dLane c.desc ≠ row.lane ∧ ¬ (!lengthsOk row c.desc (dPayload c.desc) bulk) = true ∧
      ¬ (row.head && !s.ring.isHead) = true ∧ ¬ (row.spiOnly && decide (c.origin ≠ .host)) = true ∧ stateCheck row s = none ∧
      ¬ (row.d2 && decide (s.sec.debug = 2)) = true ∧ ¬ (row.lean && decide (s.power.state = .lean)) = true ∧
      ¬ (!pairsOk row (dPayload c.desc)) = true ∧ ¬ (!rsvOk row (dPayload c.desc)) = true := by
  unfold rowCheck
  cases stateCheck row s with
  | some st => simp only [ite_some_eq_none_iff, reduceCtorEq, false_and, and_false]
  | none => simp only [ite_some_eq_none_iff, true_and, and_true]

/-- The checks before that of the power state are those of the row that runs in LEAN too (R311, R411). -/
theorem rowCheck_lean {row : CmdRow} {bulk : List Byte} (hlean : s.power.state = .lean)
    (h : rowCheck { row with lean := false } c bulk s = none) : rowCheck { row with lean := true } c bulk s = some .retry := by
  obtain ⟨hlane, hlen, hhead, hspi, hstate, hd2, -, -, -⟩ := rowCheck_eq_none_iff.1 h
  have hstate' : stateCheck { row with lean := true } s = none := hstate
  refine (if_neg hlane).trans ((if_neg hlen).trans ((if_neg hhead).trans ((if_neg hspi).trans ?_)))
  rw [hstate']
  exact (if_neg hd2).trans (if_pos (by rw [hlean]; rfl))

/-- In LEAN a command that asks for wideband results hears RETRY where its other common checks pass (R311, R411). -/
theorem runCmd_lean {row : CmdRow} (body : CmdIn → State → Reply) (hlean : s.power.state = .lean) (h : Takes { row with lean := false } t c s) :
    runCmd { row with lean := true } body t s = answer t .retry [] [] s := by
  obtain ⟨htag, hop, hstart, hcheck⟩ := h
  exact runCmd_refuses body htag hop hstart (rowCheck_lean hlean hcheck)

/-- Settles O22: each reading is its body's answer, and a block's size is that of its entries. -/
theorem pqReadingsAnswer : Obligations.PqReadingsAnswer := by
  refine ⟨fun t c s => ⟨fun h => ⟨fun hsets hclasses => ?_, fun hr => ?_⟩, fun h => ⟨fun k n hk hn => ?_, fun hr => ?_⟩,
      fun h => ⟨fun k n hk hn => ?_, fun hr => ?_⟩, fun h => ⟨fun v hv => ?_, fun hr => ?_⟩⟩,
    fun t c s h => ⟨fun r l hr => ?_, fun r l hr hf => ?_, fun hr hf => ?_, evStat_fields⟩,
    fun t c s => ⟨fun h => ⟨fun w n hw hn => ?_, fun hr => ?_⟩, fun h => ?_, fun hlean => ⟨fun h => ?_, fun h => ?_⟩⟩⟩
  · exact exec_done (body := runPqRead) rfl rfl h (runPqRead_ok hsets hclasses)
  · exact exec_done (body := runPqRead) rfl rfl h (runPqRead_range hr)
  · have hb := harmBlock_eq n (s.pqSets[setOfChan s k]).results[n] k.val
    exact ⟨hb ▸ exec_done (body := runHarmRead) rfl rfl h (runHarmRead_some hk hn), hb ▸ harmBlock_length n _ k.val⟩
  · exact exec_done (body := runHarmRead) rfl rfl h (runHarmRead_range hr)
  · exact ⟨exec_done (body := runHpowRead) rfl rfl h (runHpowRead_some hk hn), hpowBlock_length _ k.val, hpowBlock_empty⟩
  · exact exec_done (body := runHpowRead) rfl rfl h (runHpowRead_range hr)
  · exact exec_done (body := runFlickerRead) rfl rfl h (runFlickerRead_some hv)
  · exact exec_done (body := runFlickerRead) rfl rfl h (runFlickerRead_range hr)
  · exact (eventRead_pops h).trans (by rw [popEvent_restored hr]; rfl)
  · exact (eventRead_pops h).trans (by rw [popEvent_fifo hr hf]; rfl)
  · exact (eventRead_pops h).trans (by rw [popEvent_empty hr hf]; rfl)
  · exact ⟨exec_done (body := runSupraRead) rfl rfl h (runSupraRead_some hw hn), supraBlock_length _ w⟩
  · exact exec_done (body := runSupraRead) rfl rfl h (runSupraRead_range hr)
  · refine (exec_done (body := runNoiseRead) rfl rfl h rfl).trans ?_
    rw [List.map_congr_left fun k hk => noiseAt_eq s.pq (List.mem_range.1 hk)]
  · exact congrArg Host.Outcome.next (runCmd_lean (row := rowSupraRead) runSupraRead hlean h)
  · exact congrArg Host.Outcome.next (runCmd_lean (row := rowNoiseRead) runNoiseRead hlean h)

end Sys2Proof.Machine
end

section
/-! Half-cycle values, their level events and the event records (R95, R98, R115 to R119). -/

namespace Sys2Proof.Machine

variable {s : State} {b : Fin 2}

theorem modSet_seen (s : State) (b : Fin 2) (f : PqSet → PqSet) : (s.modSet b f).pqSets[b] = f s.pqSets[b] := vmod_get_self _ _ _

/-! ### Records -/

/-- A finished record under the SEQ and the unit that it gets (R119). -/
def numbered (r : EventRec) (s : State) : EventRec := { r with seq := s.pq.evSeq, unit := BitVec.ofNat 8 s.unitByte }

theorem pushEvent_room (r : EventRec) (h : s.pq.fifo.length < 64) :
    (pushEvent r s).pq.fifo = s.pq.fifo ++ [numbered r s] ∧ (pushEvent r s).pq.evOvf = s.pq.evOvf := ⟨if_pos h, if_pos h⟩

theorem pushEvent_full (r : EventRec) (h : 64 ≤ s.pq.fifo.length) :
    (pushEvent r s).pq.fifo = s.pq.fifo ∧ (pushEvent r s).pq.evOvf = satAdd s.pq.evOvf 1 :=
  ⟨if_neg (Nat.not_lt.2 h), if_neg (Nat.not_lt.2 h)⟩

/-! ### Level events -/

section
variable {en low starts ends unsync : Bool} {t : Stamp} {now : Nat} {v : Vector Nat 3} {chans : BitVec 3}

theorem levelStep_disabled : levelStep false low t now v chans starts ends unsync none = (none, none) := rfl

theorem levelStep_starts (hen : en = true) (hstarts : starts = true) :
    levelStep en true t now v chans starts ends unsync none = (some (newLevel t now chans (lowest v) v[lowest v] unsync false), none) := by
  simp only [levelStep, hen, hstarts, Bool.and_self, if_true]

theorem levelStep_ends (hends : ends = true) (e : LevelEvent) :
    levelStep en low t now v chans starts ends unsync (some e) = (none, some (moreLevel low v chans unsync e)) := if_pos hends

end

theorem rvcStep_disabled {q : PqSet} (hrvc : q.rvc = none) (hen : evEn q.evt 3 = false) (b : Fin 2) (t : Stamp) (now : Nat)
    (v : Vector Nat 3) : rvcStep b t now v q = (none, none) := by
  simp only [rvcStep, hrvc, hen, Bool.false_and, Bool.false_eq_true, if_false]

/-! ### The reference -/

theorem loseRef_keeps (now : Nat) (q : PqSet) : (loseRef now q).dip = q.dip ∧ (loseRef now q).halfVal = q.halfVal := by
  unfold loseRef
  dsimp only
  split
  · exact ⟨rfl, rfl⟩
  · split <;> exact ⟨rfl, rfl⟩

theorem moveRef_keeps (now : Nat) (v : Vector Nat 3) (q : PqSet) :
    (moveRef now v q).dip = q.dip ∧ (moveRef now v q).halfVal = q.halfVal := by
  unfold moveRef
  dsimp only
  split
  · exact loseRef_keeps now _
  · exact ⟨rfl, rfl⟩

/-! ### A value of a set with dips alone -/

/-- A channel's value is below the dip threshold. -/
def inDip (q : PqSet) (v : Vector Nat 3) (k : Fin 3) : Bool := below v[k] (vsDip q.cfg) q.udin.toNat

/-- A channel's value is back above the threshold and its hysteresis. -/
def backFromDip (q : PqSet) (v : Vector Nat 3) (k : Fin 3) : Bool := atLeast v[k] (vsDip q.cfg + vsHyst q.cfg) q.udin.toNat

/-- The dip detector of a set on a value (R115). -/
def dipStep (s : State) (v : Vector Nat 3) (q : PqSet) : Option LevelEvent × Option LevelEvent :=
  levelStep (evEn q.evt 0) true s.gridStamp s.time.ticks v (maskOf (inDip q v)) ((fins 3).any (inDip q v))
    ((fins 3).all (backFromDip q v)) q.ref.isNone q.dip

/-- No detector of the set but that of dips is enabled, and no event but a dip is in progress. -/
def DipsAlone (q : PqSet) : Prop :=
  q.swell = none ∧ q.intr = none ∧ q.rvc = none ∧ evEn q.evt 1 = false ∧ evEn q.evt 2 = false ∧ evEn q.evt 3 = false

section
variable {v : Vector Nat 3} (hv : (s.pqSets[b]).halfVal = some v)
include hv

/-- With dips alone a value gives what the dip detector gives. -/
theorem halfCycle_of_dipsAlone (h : DipsAlone s.pqSets[b]) :
    ∃ q, halfCycle b s = pushAll (((dipStep s v s.pqSets[b]).2.map (levelRec b 1 (s.pqSets[b]).udin.toNat s.time.ticks false)).toList)
        (s.modSet b (fun _ => q)) ∧ q.halfVal = none ∧ q.dip = (dipStep s v s.pqSets[b]).1 := by
  obtain ⟨hswell, hintr, hrvc, hen1, hen2, hen3⟩ := h
  have hno (e : Option LevelEvent) : e.map (fun e => { e with hasInt := e.hasInt || false }) = e := by cases e <;> simp
  refine ⟨moveRef s.time.ticks v { s.pqSets[b] with
    halfVal := none, vals := Vector.ofFn (fun k => (v[k] :: (s.pqSets[b]).vals[k]).take 121),
    valTicks := (s.time.ticks :: (s.pqSets[b]).valTicks).take 121,
    dip := (dipStep s v s.pqSets[b]).1, swell := none, intr := none, rvc := none }, ?_, ?_, ?_⟩
  · simp only [halfCycle, hv, hswell, hintr, hrvc, hen1, hen2, hen3, levelStep_disabled, rvcStep_disabled, hno, ite_self, Option.isSome_none,
      Option.map_none, Option.toList_none, List.append_nil]
    rfl
  · exact (moveRef_keeps _ _ _).2
  · exact (moveRef_keeps _ _ _).1

/-- A dip starts on the first value below its threshold. -/
theorem halfCycle_dip_starts (h : DipsAlone s.pqSets[b]) (hnone : (s.pqSets[b]).dip = none) (hen : evEn (s.pqSets[b]).evt 0 = true) {k : Fin 3}
    (hlow : inDip s.pqSets[b] v k = true) :
    ∃ e, ((halfCycle b s).pqSets[b]).dip = some e ∧ e.start = s.gridStamp ∧ e.chans = maskOf (inDip s.pqSets[b] v) ∧ e.extreme = v[lowest v] ∧
      e.worst = lowest v ∧ ((halfCycle b s).pqSets[b]).halfVal = none ∧ (halfCycle b s).pq.fifo = s.pq.fifo := by
  have hany : (fins 3).any (inDip s.pqSets[b] v) = true := List.any_eq_true.2 ⟨k, List.mem_finRange k, hlow⟩
  obtain ⟨q, hs, hval, hdip⟩ := halfCycle_of_dipsAlone hv h
  rw [dipStep, hnone, levelStep_starts hen hany] at hs hdip
  have hq : (halfCycle b s).pqSets[b] = q := by
    rw [hs]
    exact modSet_seen s b _
  refine ⟨_, hq ▸ hdip, rfl, rfl, rfl, rfl, hq ▸ hval, ?_⟩
  rw [hs]
  rfl

/-- A dip ends with a record when every channel is back. -/
theorem halfCycle_dip_ends (h : DipsAlone s.pqSets[b]) {e : LevelEvent} (he : (s.pqSets[b]).dip = some e)
    (hback : ∀ k, backFromDip s.pqSets[b] v k = true) (hroom : s.pq.fifo.length < 64) :
    ∃ r, ((halfCycle b s).pqSets[b]).dip = none ∧ (halfCycle b s).pq.fifo = s.pq.fifo ++ [r] ∧ r.typ = 1 ∧ r.start = e.start ∧
      r.seq = s.pq.evSeq ∧ (halfCycle b s).pq.evSeq = s.pq.evSeq + 1 ∧
      r.duration = BitVec.ofNat 32 (min (s.time.ticks - e.startTick) (2 ^ 32 - 1)) := by
  obtain ⟨q, hs, -, hdip⟩ := halfCycle_of_dipsAlone hv h
  rw [dipStep, he, levelStep_ends (List.all_eq_true.2 fun k _ => hback k)] at hs hdip
  rw [hs]
  exact ⟨_, (congrArg PqSet.dip (modSet_seen s b _)).trans hdip, (pushEvent_room _ hroom).1, rfl, rfl, rfl, rfl, rfl⟩

end

/-! ### Transients -/

/-- The channel's transient leaves the detector. -/
def dropTrans (k : Fin 3) (q : PqSet) : PqSet :=
  { q with trans := vmod q.trans k (fun _ => none), transDue := q.transDue &&& ~~~(BitVec.ofNat 3 (2 ^ k.val)) }

theorem endTransient_eq {k : Fin 3} {e : TransEvent} (he : (s.pqSets[b]).trans[k] = some e)
    (hdue : (s.pqSets[b]).transDue.getLsbD k.val = true) :
    ∃ dur long, endTransient b k s = pushEvent (transRec b k (s.pqSets[b]).udin.toNat dur false long e) (s.modSet b (dropTrans k)) := by
  refine ⟨if decide (e.quiet < 32) then e.cycle else e.lastTick - e.startTick + 1, decide (e.quiet < 32), ?_⟩
  simp only [endTransient, he, hdue, if_true]
  rfl

/-- A transient that is due ends with a record, which a full FIFO counts as lost (R117, R119). -/
theorem endTransient_ends {k : Fin 3} {e : TransEvent} (he : (s.pqSets[b]).trans[k] = some e)
    (hdue : (s.pqSets[b]).transDue.getLsbD k.val = true) :
    ∃ r, ((endTransient b k s).pqSets[b]).trans[k] = none ∧ r.typ = 5 ∧ r.start = e.start ∧ r.chan = chanByte b (BitVec.ofNat 3 (2 ^ k.val)) ∧
      (s.pq.fifo.length < 64 → (endTransient b k s).pq.fifo = s.pq.fifo ++ [r] ∧ (endTransient b k s).pq.evOvf = s.pq.evOvf) ∧
      (64 ≤ s.pq.fifo.length → (endTransient b k s).pq.fifo = s.pq.fifo ∧ (endTransient b k s).pq.evOvf = satAdd s.pq.evOvf 1) := by
  obtain ⟨dur, long, hs⟩ := endTransient_eq he hdue
  rw [hs]
  refine ⟨numbered (transRec b k (s.pqSets[b]).udin.toNat dur false long e) s, ?_, rfl, rfl, rfl, pushEvent_room _, pushEvent_full _⟩
  exact (congrArg (fun q => q.trans[k]) (modSet_seen s b (dropTrans k))).trans (vmod_get_self _ _ _)

end Sys2Proof.Machine
end

section
/-! The close of a window: its result, and that nothing after it touches the result (R96, R100, R109 to R114). -/

namespace Sys2Proof.Machine

variable {s : State} {b : Fin 2}

/-! ### The result of a window as its bytes -/

theorem leNat_leBytes (n v : Nat) : leNat (leBytes n v) = v % 256 ^ n := by
  induction n generalizing v with
  | zero => rw [Nat.pow_zero, Nat.mod_one]; rfl
  | succ n ih =>
    rw [leBytes, leNat, ih, BitVec.toNat_ofNat, pow_succ' 256 n, Nat.mod_mul]

@[simp] theorem stamp_bytes_length (t : Stamp) : t.bytes.length = 12 := by
  simp only [Stamp.bytes, List.length_append, leBytes_length]

theorem leAt_append_left {a b : List Byte} {off n : Nat} (h : off + n ≤ a.length) : leAt (a ++ b) off n = leAt a off n := by
  rw [leAt, leAt, List.drop_append_of_le_length (by omega), List.take_append_of_le_length (by rw [List.length_drop]; omega)]

theorem leAt_append_right {a b : List Byte} {off n : Nat} (h : a.length ≤ off) : leAt (a ++ b) off n = leAt b (off - a.length) n := by
  rw [leAt, leAt, List.drop_append, List.drop_eq_nil_of_le h, List.nil_append]

/-- The first field of a run of bytes. -/
theorem leAt_leBytes_append (n v : Nat) (b : List Byte) : leAt (leBytes n v ++ b) 0 n = v % 256 ^ n := by
  rw [leAt, List.drop_zero, List.take_left' (leBytes_length n v), leNat_leBytes]

/-- Field j of fields of one size. -/
theorem leAt_flatMap_leBytes (f : Nat → Nat) {m j : Nat} (n : Nat) (h : j < m) :
    leAt ((List.range m).flatMap (fun k => leBytes n (f k))) (n * j) n = f j % 256 ^ n := by
  have hfields (l : List Nat) : ∀ i, i < l.length → leAt (l.flatMap (fun k => leBytes n (f k))) (n * i) n = f (l.getD i 0) % 256 ^ n := by
    induction l with
    | nil => exact fun i hi => absurd hi (Nat.not_lt_zero i)
    | cons a l ih =>
      rintro (_ | i) hi
      · exact leAt_leBytes_append n (f a) _
      · rw [List.flatMap_cons, leAt_append_right (by rw [leBytes_length, Nat.mul_succ]; omega), leBytes_length, Nat.mul_succ, Nat.add_sub_cancel,
          ih i (Nat.lt_of_succ_lt_succ hi), List.getD_cons_succ]
  rw [hfields _ j (by rwa [List.length_range]), List.getD_eq_getElem _ _ (by rwa [List.length_range]), List.getElem_range]

section
variable {seq freq : Word} {status : BitVec 16} {len : Nat} {t : Stamp} {words : List Nat}

theorem resultBlock_len : leAt (resultBlock seq status len t freq words) 6 2 = len % 65536 := by
  simp only [resultBlock, List.append_assoc]
  rw [leAt_append_right (by simp), leAt_append_right (by simp), leBytes_length, leBytes_length]
  exact leAt_leBytes_append 2 len _

theorem resultBlock_stamp : ((resultBlock seq status len t freq words).drop 8).take 12 = t.bytes := by
  have h : resultBlock seq status len t freq words = (leBytes 4 seq.toNat ++ leBytes 2 status.toNat ++ leBytes 2 len) ++
      (t.bytes ++ (leBytes 4 freq.toNat ++ (List.range 10).flatMap (fun k => leBytes 4 (words.getD k 0)))) := by
    simp only [resultBlock, List.append_assoc]
  rw [h, List.drop_left' (by simp), List.take_left' (stamp_bytes_length t)]

theorem resultBlock_freq : leAt (resultBlock seq status len t freq words) 20 4 = freq.toNat := by
  rw [resultBlock, List.append_assoc, leAt_append_right (by simp)]
  simp only [List.length_append, leBytes_length, stamp_bytes_length]
  exact (leAt_leBytes_append 4 freq.toNat _).trans (Nat.mod_eq_of_lt freq.isLt)

theorem resultBlock_word {j : Nat} (h : j < 10) :
    leAt (resultBlock seq status len t freq words) (24 + 4 * j) 4 = words.getD j 0 % 2 ^ 32 := by
  rw [resultBlock, leAt_append_right (by simp)]
  simp only [List.length_append, leBytes_length, stamp_bytes_length, Nat.add_sub_cancel_left]
  exact leAt_flatMap_leBytes (fun k => words.getD k 0) 4 h

end

theorem winValues_urms (w : WinClosed) (draw : Nat) (j : Fin 4) :
    (winValues s b draw w).words.getD j.val 0 = rmsOf (urmsLists (s.pqSets[b]).cfg w.volts)[j] := by
  match j with
  | 0 => rfl
  | 1 => rfl
  | 2 => rfl
  | 3 => rfl

/-! ### What a set shows after the close -/

/-- The set shows a result of its windows, and no window waits. -/
def Shows (r : PqResult) (q : PqSet) : Prop := q.winPend = none ∧ q.results[0] = r

section
variable {r : PqResult} {q : PqSet}

theorem closeAgg_shows (h : Shows r q) (k : Fin 3) (draw : Nat) (t : Stamp) (extra start : BitVec 16) :
    Shows r (closeAgg k draw t extra start q) := by
  obtain ⟨hpend, hres⟩ := h
  have hlt : k.val + 1 < 4 := by omega
  refine ⟨hpend, ?_⟩
  simp only [closeAgg, vput, dif_pos hlt]
  rw [Vector.getElem_set_ne _ _ (by omega)]
  exact hres

theorem shows_ite {p : Prop} [Decidable p] {q' : PqSet} (h : Shows r q) (h' : Shows r q') : Shows r (if p then q else q') := by
  split
  · exact h
  · exact h'

theorem aggregate_shows (h : Shows r q) (draw ns : Nat) (t : Stamp) (v : WinValues) (status : BitVec 16) :
    Shows r (aggregate draw ns t v status q) := by
  unfold aggregate
  extract_lets cross10 cross2h stepped q₁ q₂ q₃ q₄
  have h₁ : Shows r q₁ := h
  have h₂ : Shows r q₂ := shows_ite (closeAgg_shows h₁ _ _ _ _ _) h₁
  have h₃ : Shows r q₃ := shows_ite (closeAgg_shows h₂ _ _ _ _ _) h₂
  have h₄ : Shows r q₄ := h₃
  exact shows_ite (closeAgg_shows (closeAgg_shows (closeAgg_shows h₄ _ _ _ _ _) _ _ _ _ _) _ _ _ _ _)
    (shows_ite (closeAgg_shows h₄ _ _ _ _ _) h₄)

theorem takeSetParams_shows (h : Shows r q) : Shows r (takeSetParams q) := by
  obtain ⟨hpend, hres⟩ := h
  unfold takeSetParams
  exact shows_ite ⟨rfl, hres⟩ (shows_ite ⟨hpend, hres⟩ ⟨hpend, hres⟩)

end

@[simp] theorem pushAll_pqSets (l : List EventRec) (s : State) : (pushAll l s).pqSets = s.pqSets :=
  s.forEach_keeps State.pqSets l _ fun _ _ => rfl

theorem finishSetTxn_pqSets (s : State) : (finishSetTxn s).pqSets = s.pqSets := by
  unfold finishSetTxn
  split
  · rfl
  · exact State.forEach_keeps s State.pqSets _ _ fun _ _ => rfl

section
variable {r : PqResult}

theorem cutEvents_shows (h : Shows r s.pqSets[b]) (last : Nat) : Shows r (cutEvents last b s).pqSets[b] := by
  unfold cutEvents
  dsimp only
  rw [pushAll_pqSets, modSet_seen]
  exact h

theorem firstOnNew_shows (h : Shows r s.pqSets[b]) : Shows r (firstOnNew b s).pqSets[b] := by
  rw [firstOnNew, modSet_seen]
  have hwin : Shows r (if (s.pqSets[b]).winLen = 1 then
      { s.pqSets[b] with winV := (Vector.ofFn (fun (j : Fin 4) => (setVolt s b.val j.val).out)).map (fun x => [x]) } else s.pqSets[b]) :=
    shows_ite h h
  exact shows_ite hwin hwin

theorem applySetParams_shows (h : Shows r s.pqSets[b]) : Shows r (applySetParams b s).pqSets[b] := by
  unfold applySetParams
  extract_lets +lift q s₁ on s₂ s₃ s₄ s₅ s₆
  have h₁ : Shows r s₁.pqSets[b] := by
    simp only [s₁]
    split
    · exact cutEvents_shows h _
    · exact h
  have h₂ : Shows r s₂.pqSets[b] := by
    rw [show s₂.pqSets[b] = takeSetParams s₁.pqSets[b] from modSet_seen _ _ _]
    exact takeSetParams_shows h₁
  have h₄ : Shows r s₄.pqSets[b] := by
    rw [show s₄.pqSets = s₃.pqSets from s₃.forEach_keeps State.pqSets _ _ fun _ _ => rfl]
    exact h₂
  split
  · exact h₄
  · have h₅ : Shows r s₅.pqSets[b] := by
      rw [show s₅.pqSets = s₄.pqSets from s₄.forEach_keeps State.pqSets _ _ fun _ _ => rfl]
      exact h₄
    rw [finishSetTxn_pqSets]
    exact firstOnNew_shows h₅

end

/-! ### The close -/

/-- The result of a window that closes (R113). -/
def windowResult (b : Fin 2) (w : WinClosed) (s : State) : PqResult :=
  let q := s.pqSets[b]
  let vals := winValues s b (4 * s.draw.1) w
  { seq := (q.results[0]).seq + 1, status := winStatusOf q w, draw := 4 * s.draw.1, vals := vals,
    block := resultBlock ((q.results[0]).seq + 1) (winStatusOf q w) w.len s.gridStamp (winFreq q.cfg w) vals.words }

/-- A window that closes in an interval without a step gives its result (R96, R113). -/
theorem windowClose_shows {w : WinClosed} (hw : (s.pqSets[b]).winPend = some w) (hstep : (s.pqSets[b]).stepSeen = false) :
    Shows (windowResult b w s) (windowClose b s).pqSets[b] := by
  unfold windowClose
  split
  · next hnone =>
    rw [hnone] at hw
    cases hw
  · next w' hw' =>
    obtain rfl : w' = w := Option.some.inj (hw'.symm.trans hw)
    extract_lets +lift dr id s₁ ns t q stepped ends10 ends2h bits status vals seq res q₁ q₂ q₃ s₂ s₃
    have hs₁ : s₁ = s.draw.2 := if_neg (by rw [hstep]; decide)
    have hres : res = windowResult b w' s := by
      clear_value s₁
      subst hs₁
      rfl
    have h₁ : Shows res q₁ := ⟨rfl, vmod_get_self _ _ _⟩
    have h₂ : Shows res q₂ := aggregate_shows h₁ _ _ _ _ _
    have h₃ : Shows res s₂.pqSets[b] := by
      rw [modSet_seen]
      exact h₂
    rw [← hres]
    refine applySetParams_shows ?_
    simp only [s₃]
    split <;> exact h₃

end Sys2Proof.Machine
end

section
/-! Frequency intervals, wideband windows and the noise table, and the events of power quality together (R101, R121 to R123). -/

namespace Sys2Proof.Machine

variable {s : State} {b : Fin 2}

/-! ### Frequency (R101) -/

/-- An interval with fewer than 100 whole cycles reads 0. -/
theorem freqValue_few {q : PqSet} (h : q.freqCycles ≤ 100) : freqValue q = 0 := if_pos (by omega)

theorem freqEnd_few (h : (s.pqSets[b]).freqCycles ≤ 100) :
    ((freqEnd b false s).pqSets[b]).freq10 = 0 ∧ ((freqEnd b false s).pqSets[b]).freqStatus = 2 ||| (s.pqSets[b]).freqMark ∧
      ((freqEnd b false s).pqSets[b]).freqCycles = 0 := by
  rw [freqEnd, modSet_seen]
  have hfew : (s.pqSets[b]).freqCycles - 1 < 100 := by omega
  refine ⟨freqValue_few h, ?_, rfl⟩
  simp only [if_pos hfew, Bool.false_eq_true, if_false]
  exact BitVec.or_zero

theorem freqEnd_enough (h : 100 < (s.pqSets[b]).freqCycles) :
    ((freqEnd b false s).pqSets[b]).freq10 = freqValue s.pqSets[b] ∧
      ((freqEnd b false s).pqSets[b]).freqStatus = (s.pqSets[b]).freqMark ∧ ((freqEnd b false s).pqSets[b]).freqCycles = 0 ∧
      ((freqEnd b false s).pqSets[b]).freqMark = 0 := by
  rw [freqEnd, modSet_seen]
  have hmany : ¬ (s.pqSets[b]).freqCycles - 1 < 100 := by omega
  refine ⟨rfl, ?_, rfl, rfl⟩
  simp only [if_neg hmany, Bool.false_eq_true, if_false]
  exact BitVec.or_zero.trans BitVec.zero_or

/-! ### Supraharmonics (R121) -/

/-- The close of an aggregate keeps the result of the windows. -/
theorem closeSupra_newest (k : Fin 2) (t : Stamp) (p : PqUnit) : (closeSupra k t p).supra[0] = p.supra[0] := by
  have hlt : k.val + 1 < 3 := by omega
  simp only [closeSupra, vput, dif_pos hlt]
  exact Vector.getElem_set_ne _ _ (by omega)

/-- What the end of a window leaves as its newest result (R400). -/
theorem supraWindow_newest (s : State) :
    (supraWindow s).pq.supra[0] =
      if s.pq.wbGap || s.stalled 1 then s.pq.supra[0] else supraResult 0 s.gridStamp 0 (s.pq.wbWin.map supraBands) s.pq.supra[0] := by
  simp only [supraWindow, State.modPq]
  have hclose {p : PqUnit} {c : Bool} (k : Fin 2) : (if c = true then closeSupra k s.gridStamp p else p).supra[0] = p.supra[0] := by
    split
    · exact closeSupra_newest k _ p
    · rfl
  rw [hclose, hclose]
  split
  · rfl
  · exact vmod_get_self _ _ _

theorem supraWindow_starts (s : State) :
    (supraWindow s).pq.supraLast = s.gridNs ∧ (supraWindow s).pq.wbGap = s.stalled 1 ∧ (supraWindow s).pq.wbWin = Vector.replicate 2 [] :=
  ⟨rfl, rfl, rfl⟩

/-! ### The noise table (R123) -/

/-- The segments of a mask that a fold over them builds. -/
theorem getLsbD_foldl_segments (P : Fin 16 → Prop) [DecidablePred P] (j : Fin 16) (l : List (Fin 16)) (m : BitVec 16) :
    (l.foldl (fun m k => if P k then m ||| BitVec.ofNat 16 (2 ^ k.val) else m) m).getLsbD j.val = true ↔
      m.getLsbD j.val = true ∨ (j ∈ l ∧ P j) := by
  have hbit (k : Fin 16) : (BitVec.ofNat 16 (2 ^ k.val)).getLsbD j.val = true ↔ j = k := by
    rw [BitVec.getLsbD_ofNat, Nat.testBit_two_pow, decide_eq_true j.isLt, Bool.true_and, decide_eq_true_eq, Fin.ext_iff]
    exact eq_comm
  induction l generalizing m with
  | nil => simp
  | cons k l ih =>
    refine (ih _).trans ?_
    simp only [List.mem_cons]
    by_cases hk : P k
    · have hP : j = k → P j := fun h => h ▸ hk
      rw [if_pos hk, BitVec.getLsbD_or, Bool.or_eq_true, hbit]
      tauto
    · have hP : j = k → ¬ P j := fun h => h ▸ hk
      rw [if_neg hk]
      tauto

/-- The segments without a transform in the second that ends. -/
def emptySegments (s : State) : BitVec 16 :=
  (fins 16).foldl (fun m k => if (s.pq.noiseSums[k]).count = 0 then m ||| BitVec.ofNat 16 (2 ^ k.val) else m) 0

theorem emptySegments_iff (k : Fin 16) : (emptySegments s).getLsbD k.val = true ↔ (s.pq.noiseSums[k]).count = 0 := by
  rw [emptySegments, getLsbD_foldl_segments (fun k => (s.pq.noiseSums[k]).count = 0) k (fins 16) 0]
  simp [fins]

theorem noisePublish_stale (s : State) : (noisePublish s).pq.noiseStale = if s.stalled 1 then 0xFFFF else emptySegments s := rfl

/-- A STALE segment keeps its entries. -/
theorem noisePublish_noise (s : State) (k : Fin 16) :
    (noisePublish s).pq.noise[k] =
      if (noisePublish s).pq.noiseStale.getLsbD k.val then s.pq.noise[k] else noiseEntries s.pq.noiseSums[k] :=
  Vector.getElem_ofFn ..

theorem noisePublish_stalled (h : s.stalled 1 = true) :
    (noisePublish s).pq.noise = s.pq.noise ∧ (noisePublish s).pq.noiseStale = 0xFFFF := by
  have hstale : (noisePublish s).pq.noiseStale = 0xFFFF := if_pos h
  refine ⟨Vector.ext fun i hi => ?_, hstale⟩
  have hbit : (0xFFFF : BitVec 16).getLsbD i = true := by
    rw [show (0xFFFF : BitVec 16) = BitVec.allOnes 16 from rfl, BitVec.getLsbD_allOnes, decide_eq_true hi]
  exact (noisePublish_noise s ⟨i, hi⟩).trans (if_pos (by rw [hstale]; exact hbit))

/-! ### The events -/

theorem exec_pqHalfCycle (b : Bool) (h : s.metering = true) : exec (.pqHalfCycle b) s = .next (halfCycle (setOf b) s) :=
  congrArg Host.Outcome.next (if_pos h)

theorem exec_transientEnd (b : Bool) (k : Fin 3) (h : s.metering = true) : exec (.transientEnd b k) s = .next (endTransient (setOf b) k s) :=
  congrArg Host.Outcome.next (if_pos h)

theorem exec_pqWindowClose (b : Bool) (h : s.metering = true) : exec (.pqWindowClose b) s = .next (windowClose (setOf b) s) :=
  congrArg Host.Outcome.next (if_pos h)

theorem exec_freqIntervalEnd (b : Bool) (h : s.metering = true) (hen : vsEn (s.pqSets[setOf b]).cfg = true) (ht : s.gridNs % 10000000000 = 0) :
    exec (.freqIntervalEnd b) s = .next (freqEnd (setOf b) false s) :=
  congrArg Host.Outcome.next (if_pos (by rw [h, hen, decide_eq_true ht]; rfl))

theorem exec_supraWindow (h : s.wideOn = true) (ht : s.gridNs % 200000000 = 0) : exec .supraWindow s = .next (supraWindow s) :=
  congrArg Host.Outcome.next (if_pos (by rw [h, decide_eq_true ht]; rfl))

theorem exec_noisePublish (h : s.wideOn = true) (ht : s.gridNs % 1000000000 = 0) : exec .noisePublish s = .next (noisePublish s) :=
  congrArg Host.Outcome.next (if_pos (by rw [h, decide_eq_true ht]; rfl))

/-- Settles O52: a value moves the dip detector alone, a window's result outlasts what the close does after it, and STALE segments are those
without a transform. -/
theorem pqEventsTakeEffect : Obligations.PqEventsTakeEffect := by
  refine ⟨fun b v s hm hv => ?_, fun b k e s hm he hdue => ?_, fun b w s hm hw hstep => ?_, fun b s hm hen ht => ⟨fun hfew => ?_, fun hmany => ?_⟩,
    fun s hon ht => ⟨fun hgap hgoing => ?_, fun hgap => ?_⟩, fun s hon ht => ?_⟩
  · intro q hswell hintr hrvc hen1 hen2 hen3
    have hdips : DipsAlone q := ⟨hswell, hintr, hrvc, hen1, hen2, hen3⟩
    refine ⟨fun k hnone hen hlow => ?_, fun e he hback hroom => ?_⟩
    · obtain ⟨e, hstarts⟩ := halfCycle_dip_starts hv hdips hnone hen (k := k) (decide_eq_true hlow)
      exact ⟨_, e, exec_pqHalfCycle b hm, hstarts⟩
    · obtain ⟨r, hends⟩ := halfCycle_dip_ends hv hdips he (fun k => decide_eq_true (hback k)) hroom
      exact ⟨_, r, exec_pqHalfCycle b hm, hends⟩
  · obtain ⟨r, hends⟩ := endTransient_ends he hdue
    exact ⟨_, r, exec_transientEnd b k hm, hends⟩
  · obtain ⟨hpend, hres⟩ := windowClose_shows hw hstep
    refine ⟨_, exec_pqWindowClose b hm, hpend, ?_⟩
    rw [hres]
    exact ⟨rfl, rfl, resultBlock_freq, fun j => (resultBlock_word (by omega)).trans (by rw [winValues_urms]), rfl, resultBlock_stamp, resultBlock_len⟩
  · exact ⟨_, exec_freqIntervalEnd b hm hen ht, freqEnd_few hfew⟩
  · exact ⟨_, exec_freqIntervalEnd b hm hen ht, freqEnd_enough hmany⟩
  · obtain ⟨hlast, -, hwin⟩ := supraWindow_starts s
    exact ⟨_, exec_supraWindow hon ht, (supraWindow_newest s).trans (by rw [hgap, hgoing]; rfl), hlast, hwin⟩
  · obtain ⟨hlast, hstall, -⟩ := supraWindow_starts s
    exact ⟨_, exec_supraWindow hon ht, (supraWindow_newest s).trans (by rw [hgap]; rfl), hstall, hlast⟩
  · refine ⟨_, exec_noisePublish hon ht, rfl, noisePublish_stalled, fun hgoing k => ?_, fun k hstale => ?_⟩
    · have hstale : (noisePublish s).pq.noiseStale = emptySegments s := if_neg (by rw [hgoing]; decide)
      rw [noisePublish_noise, hstale]
      exact ⟨emptySegments_iff k, fun hcount => if_neg fun h => hcount ((emptySegments_iff k).1 h)⟩
    · rw [noisePublish_noise, if_pos hstale]

end Sys2Proof.Machine
end

section
/-! The lifecycle commands: the seal's check of the channels, and the record of UNSEAL (R130, R316, R420, R424, R425). -/

namespace Sys2Proof.Machine

variable {t : Fin 64} {c : Cmd} {s : State}

/-! ### SEAL -/

/-- R130 as it reads: some enabled circuit has an uncalibrated port or voltage input. -/
theorem uncalUsed_iff :
    uncalUsed s = true ↔ ∃ k : Fin 24, cirEn (s.circuits[k]).cfg = true ∧
      ((∃ p ∈ cirPorts (s.circuits[k]).cfg, (s.ports[p]).uncal = true) ∨
        ∃ e < 4, ∃ v, elemVoltIdx (s.circuits[k]).cfg e = some v ∧ (s.volts[v]).uncal = true) := by
  simp only [uncalUsed, fins, List.any_eq_true, List.mem_finRange, true_and, Bool.and_eq_true, Bool.or_eq_true, List.mem_range]
  refine exists_congr fun k => and_congr_right fun _ => or_congr_right (exists_congr fun e => and_congr_right fun _ => ?_)
  cases elemVoltIdx (s.circuits[k]).cfg e with
  | none => simp
  | some v => simp

/-- With the key word in place, SEAL looks at the channels first and at the MAKER key second. -/
theorem runSeal_checks (hkey : payField c 0 4 = 0x4C414553) :
    runSeal (cmdIn t c s) s =
      if uncalUsed s then fail .uncalibrated s else if s.sec.makerKey.isNone then fail .denied s else transition .sealed false s := by
  rw [runSeal, p4_cmdIn]
  exact if_neg (not_not.2 hkey)

theorem exec_seal_uncalibrated (h : Takes rowSeal t c s) (hkey : payField c 0 4 = 0x4C414553) (hu : uncalUsed s = true) :
    exec (.seal t) s = .next (answer t .uncalibrated [] [] s) :=
  exec_done (body := runSeal) rfl rfl h (by rw [runSeal_checks hkey, if_pos hu, fail])

/-- Settles O12: either kind of channel makes the seal's check of the circuits find one. -/
theorem uncalibratedRefusesSeal : Obligations.UncalibratedRefusesSeal := by
  intro t c s k h hkey hen
  exact ⟨fun hport => exec_seal_uncalibrated h hkey (uncalUsed_iff.2 ⟨k, hen, .inl hport⟩),
    fun hvolt => exec_seal_uncalibrated h hkey (uncalUsed_iff.2 ⟨k, hen, .inr hvolt⟩)⟩

/-! ### UNSEAL -/

/-- The state after a record of the right kind: its nonce is consumed (R425). -/
def unsealSpent (s : State) : State := { s with sec := { s.sec with unsealNonce := none } }

theorem nonceMatches_iff {n : Option (BitVec 128)} {bs : List Byte} :
    nonceMatches n bs = true ↔ n.map (·.toNat) = some (leAt bs 16 16) := decide_eq_true_iff

/-- A current record is judged by its unit and its signature alone (R424). -/
theorem unsealCheck_current {bs : List Byte} {n : BitVec 128} {k : BitVec 512} (hn : s.sec.unsealNonce = some n)
    (hnonce : n.toNat = leAt bs 16 16) (hbreaks : leAt bs 4 4 = s.sec.sealBreaks.toNat) (hk : s.sec.makerKey = some k) :
    unsealCheck bs s =
      if leAt bs 8 8 = Config.uid.toNat ∧ Config.verifies k (bs.take 64) (bs.drop 64) = true then none else some .badSignature := by
  have hmatch : nonceMatches s.sec.unsealNonce bs = true := nonceMatches_iff.2 (by rw [hn]; exact congrArg some hnonce)
  have hsigned : makerSigned s bs = Config.verifies k (bs.take 64) (bs.drop 64) := by rw [makerSigned, hk]
  rw [unsealCheck, hmatch, hsigned]
  by_cases huid : leAt bs 8 8 = Config.uid.toNat
  · cases Config.verifies k (bs.take 64) (bs.drop 64) <;> simp [huid, hbreaks]
  · simp [huid]

/-- Another nonce or another count of seal breaks: the record is stale, if it names this unit (R424). -/
theorem unsealCheck_stale {bs : List Byte}
    (h : s.sec.unsealNonce.map (·.toNat) ≠ some (leAt bs 16 16) ∨ leAt bs 4 4 ≠ s.sec.sealBreaks.toNat) :
    unsealCheck bs s = some (if leAt bs 8 8 = Config.uid.toNat then .stale else .badSignature) := by
  rw [unsealCheck]
  by_cases huid : leAt bs 8 8 = Config.uid.toNat
  · rw [if_neg (not_not.2 huid), if_pos huid]
    by_cases hmatch : nonceMatches s.sec.unsealNonce bs = true
    · have hbreaks := h.resolve_left (not_not.2 (nonceMatches_iff.1 hmatch))
      rw [hmatch, if_pos hbreaks]
      rfl
    · rw [if_pos (by simpa using hmatch)]
  · rw [if_pos huid, if_neg huid]

/-- A record of the right kind consumes its nonce and is refused, or opens the unit (R424, R425). -/
theorem runUnseal_checks (hkind : leAt (bulkOf c s) 0 4 = 0x4C534E55) (hrsv : leAt (bulkOf c s) 32 32 = 0) :
    runUnseal (cmdIn t c s) s = (unsealCheck (bulkOf c s) s).elim (transition .opened true (unsealSpent s)) fun st => fail st (unsealSpent s) := by
  rw [runUnseal, cmdIn_bulk, if_neg (by simp [hkind, hrsv])]
  cases unsealCheck (bulkOf c s) s <;> rfl

theorem exec_unseal_refused {st : Status} (h : Takes rowUnseal t c s) (hkind : leAt (bulkOf c s) 0 4 = 0x4C534E55)
    (hrsv : leAt (bulkOf c s) 32 32 = 0) (hst : unsealCheck (bulkOf c s) s = some st) :
    exec (.unseal t) s = .next (answer t st [] [] (unsealSpent s)) :=
  exec_done (body := runUnseal) rfl rfl h (by rw [runUnseal_checks hkind hrsv, hst]; rfl)

theorem exec_unseal_opens (h : Takes rowUnseal t c s) (hf : s.hw.frozen = false) (hkind : leAt (bulkOf c s) 0 4 = 0x4C534E55)
    (hrsv : leAt (bulkOf c s) 32 32 = 0) (hst : unsealCheck (bulkOf c s) s = none) :
    exec (.unseal t) s = .next (openStore (.lifecycle .opened true s.stamp s.clk.legal.count) (some t) (unsealSpent s)) := by
  have hfrozen : (unsealSpent s).hw.frozen = false := hf
  rw [exec_takes (body := runUnseal) rfl rfl h, runUnseal_checks hkind hrsv, hst]
  exact congrArg Host.Outcome.next (storeFor_asks hfrozen _)

/-! ### The lifecycle commands together -/

/-- Settles O13: each command's body read at its key word, UNSEAL's at its record. -/
theorem lifecycleCommandsAskForStores : Obligations.LifecycleCommandsAskForStores := by
  intro t c s hf
  refine ⟨fun h => ⟨fun hkey => ?_, fun hkey => ?_⟩, fun h hkey hcal => ?_, fun h hkey ⟨k, hen, hport⟩ => ?_, fun h => ?_, fun h hkey => ?_⟩
  · exact exec_store (body := runLcOpen) rfl rfl h hf (by rw [runLcOpen, p4_cmdIn, if_pos hkey, transition])
  · exact exec_done (body := runLcOpen) rfl rfl h (by rw [runLcOpen, p4_cmdIn, if_neg hkey, fail])
  · have hgood : ¬ uncalUsed s = true := fun hu => by
      obtain ⟨k, hen, hbad⟩ := uncalUsed_iff.1 hu
      obtain ⟨hports, hvolts⟩ := hcal k hen
      rcases hbad with ⟨p, hp, hport⟩ | ⟨e, he, v, hv, hvolt⟩
      · exact Bool.false_ne_true ((hports p hp).symm.trans hport)
      · exact Bool.false_ne_true ((hvolts e he v hv).symm.trans hvolt)
    refine ⟨fun hmaker => exec_store (body := runSeal) rfl rfl h hf ?_, fun hmaker => exec_done (body := runSeal) rfl rfl h ?_⟩
    · rw [runSeal_checks hkey, if_neg hgood, if_neg (by simpa using hmaker), transition]
    · rw [runSeal_checks hkey, if_neg hgood, if_pos (by rw [hmaker]; rfl), fail]
  · exact exec_seal_uncalibrated h hkey (uncalUsed_iff.2 ⟨k, hen, .inl hport⟩)
  · refine ⟨fun hkind hrsv => ⟨fun n k hn hnonce hbreaks hk => ?_, fun hold => ?_⟩, fun hkind => ?_⟩
    · have hcheck := unsealCheck_current hn hnonce hbreaks hk
      split
      · next hgood => exact exec_unseal_opens h hf hkind hrsv (hcheck.trans (if_pos hgood))
      · next hbad => exact exec_unseal_refused h hkind hrsv (hcheck.trans (if_neg hbad))
    · exact exec_unseal_refused h hkind hrsv (unsealCheck_stale hold)
    · exact exec_done (body := runUnseal) rfl rfl h (by rw [runUnseal, cmdIn_bulk, if_pos (.inl hkind), fail])
  · exact exec_store (body := runRetire) rfl rfl h hf (by rw [runRetire, p4_cmdIn, if_pos hkey, transition])

end Sys2Proof.Machine
end

section
/-! CAL_COMMIT: its checks in their order (R134, R140). -/

namespace Sys2Proof.Machine

variable {t : Fin 64} {c : Cmd} {s : State} {g : CalTarget} {u : Txn}

/-- A command on a transaction that the device has aborted hears STALE, once (R140). -/
theorem withTxn_stale {f : Txn → Reply} (hu : findTxn s g = some u) (hst : u.st = .stale) : withTxn g s f = fail .stale (dropTxn g s) := by
  simp [withTxn, hu, hst]

/-- What a commit decides on a transaction that is not STALE. -/
def commitReply (g : CalTarget) (s : State) (u : Txn) : Reply :=
  if s.sec.state = .sealed then fail .sealed s
  else if u.st ≠ .opened then fail .busy s
  else if u.loaded = 0 then fail .range s
  else if ¬ ∀ k ∈ onesOf 32 u.chans.toNat, pairGood (shadowOf s k) = true then fail .complement s
  else if ¬ ∀ k ∈ onesOf 32 u.chans.toNat, valuesGood (shadowOf s k) = true then fail .range s
  else .store (.calCommit g) s

theorem runCalCommit_checks (hg : NamesTarget c g) (hu : findTxn s g = some u) (hst : u.st ≠ .stale) :
    runCalCommit (cmdIn t c s) s = commitReply g s u := by
  simp only [runCalCommit, calTarget_of_names hg, withTxn_some hu hst, commitReply, Bool.not_eq_true', ← Bool.not_eq_true, List.all_eq_true]

/-- The checks of an open transaction with a loaded channel are those of its channels. -/
theorem commitReply_open (hsealed : s.sec.state ≠ .sealed) (hst : u.st = .opened) (hload : u.loaded ≠ 0) :
    commitReply g s u =
      if ¬ ∀ k ∈ onesOf 32 u.chans.toNat, pairGood (shadowOf s k) = true then fail .complement s
      else if ¬ ∀ k ∈ onesOf 32 u.chans.toNat, valuesGood (shadowOf s k) = true then fail .range s
      else .store (.calCommit g) s := by
  rw [commitReply, if_neg hsealed, if_neg (not_not.2 hst), if_neg hload]

theorem exists_bad_iff {l : List Nat} {f : Nat → Bool} : (∃ k ∈ l, f k = false) ↔ ¬ ∀ k ∈ l, f k = true := by
  simp only [not_forall, exists_prop, Bool.not_eq_true]

/-- A commit on a transaction that is not STALE takes the course of its decision. -/
theorem exec_calCommit (h : Takes rowCalCommit t c s) (hg : NamesTarget c g) (hu : findTxn s g = some u) (hst : u.st ≠ .stale) {r : Reply}
    (hr : commitReply g s u = r) : exec (.calCommit t) s = .next (settleReply t r) := by
  rw [exec_takes (body := runCalCommit) rfl rfl h, runCalCommit_checks hg hu hst, hr]

/-- An open transaction with a loaded channel: complements, then ranges, then the store or, in a freeze, RETRY (R134, R183). -/
theorem exec_calCommit_open (h : Takes rowCalCommit t c s) (hg : NamesTarget c g) (hu : findTxn s g = some u) (hopen : u.st = .opened)
    (hsealed : s.sec.state ≠ .sealed) (hload : u.loaded ≠ 0) :
    let chans := onesOf 32 u.chans.toNat
    ((∃ k ∈ chans, pairGood (shadowOf s k) = false) → exec (.calCommit t) s = .next (answer t .complement [] [] s)) ∧
    ((∀ k ∈ chans, pairGood (shadowOf s k) = true) → (∃ k ∈ chans, valuesGood (shadowOf s k) = false) →
      exec (.calCommit t) s = .next (answer t .range [] [] s)) ∧
    ((∀ k ∈ chans, pairGood (shadowOf s k) = true) → (∀ k ∈ chans, valuesGood (shadowOf s k) = true) →
      exec (.calCommit t) s = .next (storeFor t (.calCommit g) s)) := by
  have decides {r : Reply} := exec_calCommit h hg hu (by rw [hopen]; decide) (r := r)
  have hchans := commitReply_open (g := g) hsealed hopen hload
  refine ⟨fun hpair => decides (r := fail .complement s) ?_, fun hpair hvalue => decides (r := fail .range s) ?_,
    fun hpair hvalue => decides (r := .store (.calCommit g) s) ?_⟩
  · rw [hchans, if_pos (exists_bad_iff.1 hpair)]
  · rw [hchans, if_neg (not_not.2 hpair), if_pos (exists_bad_iff.1 hvalue)]
  · rw [hchans, if_neg (not_not.2 hpair), if_neg (not_not.2 hvalue)]

/-- Settles O18: the commit's decision read check by check, the freeze last. -/
theorem calCommitChecksInOrder : Obligations.CalCommitChecksInOrder := by
  intro t c s g h hg
  refine ⟨fun hnone => exec_done (body := runCalCommit) rfl rfl h ?_, fun u hu => ⟨fun hst => exec_done (body := runCalCommit) rfl rfl h ?_,
    fun hopen hsealed => ?_, fun hopen hst hsealed => ?_, fun hopen hsealed => ⟨fun hload => ?_, fun hload => ?_⟩⟩⟩
  · simp only [runCalCommit, calTarget_of_names hg, withTxn_none hnone, fail]
  · simp only [runCalCommit, calTarget_of_names hg, withTxn_stale hu hst, fail]
    rfl
  · exact exec_calCommit h hg hu (by rw [hopen]; decide) (if_pos hsealed)
  · exact exec_calCommit h hg hu hst ((if_neg hsealed).trans (if_pos hopen))
  · refine exec_calCommit h hg hu (by rw [hopen]; decide) (r := fail .range s) ?_
    rw [commitReply, if_neg hsealed, if_neg (not_not.2 hopen), if_pos hload]
  · obtain ⟨hcomplement, hrange, hstore⟩ := exec_calCommit_open h hg hu hopen hsealed hload
    refine ⟨hcomplement, hrange, fun hpair hvalue hf => ?_, fun hpair hvalue hf => ?_⟩
    · rw [hstore hpair hvalue, storeFor_asks hf]
    · rw [hstore hpair hvalue, storeFor_frozen hf]

end Sys2Proof.Machine
end

section
/-! The Tracer's events, and the lapse of a calibration transaction (R140, R148 to R156). -/

namespace Sys2Proof.Machine

variable {p : Fin 24} {s : State} {r : Tracer}

/-- A port's Tracer replaced, as an update of the bank of ports. -/
theorem modTracer_eq_set {f : Tracer → Tracer} {x : Tracer} (h : f (s.ports[p]).tracer = x) :
    s.modTracer p f = { s with ports := s.ports.set p { s.ports[p] with tracer := x } } := by
  rw [← h]
  rfl

/-! ### Demodulation blocks (R148, R149, R154) -/

/-- A pilot out of compliance opens the loop, whatever the block holds. -/
theorem tracerBlock_lost (r : Tracer) : tracerBlock true r = openLoop r := by
  unfold tracerBlock
  split <;> rfl

theorem tracerBlock_none (h : demodulated r = none) : tracerBlock false r = nextDem r := by
  simp [tracerBlock, h]

section
variable {zr zx : Int} (h : demodulated r = some (zr, zx))
include h

theorem tracerBlock_far (hfar : 10000000000 ^ 2 < zr * zr + zx * zx) : tracerBlock false r = openLoop r := by
  have hopen : loopOpen zr zx = true := decide_eq_true hfar
  simp [tracerBlock, h, hopen]

/-- A block that is not open joins the smoothed Z and, in MEASURE, the period. -/
theorem tracerBlock_near (hnear : zr * zr + zx * zx ≤ 10000000000 ^ 2) :
    tracerBlock false r =
      { nextDem r with zs := smoothZ (zr, zx) r.zs, blocks := if r.st = 2 then (zr, zx) :: r.blocks else r.blocks } := by
  have hopen : loopOpen zr zx = false := decide_eq_false (Int.not_lt.2 hnear)
  simp only [tracerBlock, h, hopen, Bool.or_self, Bool.false_eq_true, if_false]
  by_cases hst : r.st = 2
  · rw [if_pos hst]
    exact if_pos hst
  · rw [if_neg hst]
    exact if_neg hst

end

section
variable {hi lo lost : Bool} {x : Tracer}

/-- At the end of a block, or where compliance is lost, the Tracer takes the block. -/
theorem exec_tracerBlock (hm : s.metering = true) (hp : pilotOn s.ports[p] = true)
    (hdue : (hi || lo || lost || decide (8000 ≤ (s.ports[p]).tracer.demN)) = true)
    (hx : tracerBlock (hi || lo || lost) (s.ports[p]).tracer = x) :
    exec (.tracerBlock p hi lo lost) s = .next { s with ports := s.ports.set p { s.ports[p] with tracer := x } } := by
  show execTracerBlock p hi lo lost s = _
  rw [← modTracer_eq_set hx]
  exact congrArg Host.Outcome.next (if_pos (by rw [hm, hp]; exact hdue))

theorem exec_tracerBlock_early (hpart : (s.ports[p]).tracer.demN < 8000) : exec (.tracerBlock p false false false) s = .next s := by
  show execTracerBlock p false false false s = _
  simp only [execTracerBlock, demLen, Nat.not_le.2 hpart, decide_false, Bool.or_self, Bool.and_false, Bool.false_eq_true, if_false]

end

/-! ### Periods (R148, R152, R153) -/

theorem tracerPeriod_noisy {wide : Bool}
    (h : periodNoisy wide (meanOf (r.blocks.map (·.1)), meanOf (r.blocks.map (·.2))) r.blocks = true) :
    tracerPeriod wide r = { r with noisySeen := true, blocks := [] } := if_pos h

theorem exec_tracerPeriodEnd (wide : Bool) (hm : s.metering = true) (hp : pilotOn s.ports[p] = true) (hst : (s.ports[p]).tracer.st = 2)
    (hfull : 4 * 2 ^ ((s.ports[p]).tracer.cfg.toNat / 256 % 16) ≤ (s.ports[p]).tracer.blocks.length) {x : Tracer}
    (hx : tracerPeriod wide (s.ports[p]).tracer = x) :
    exec (.tracerPeriodEnd p wide) s = .next { s with ports := s.ports.set p { s.ports[p] with tracer := x } } := by
  have hdue : periodDue s.ports[p] = true := by
    rw [periodDue, hp, decide_eq_true hst]
    exact decide_eq_true hfull
  rw [← modTracer_eq_set hx]
  exact congrArg Host.Outcome.next (if_pos (by rw [hm, hdue]; rfl))

theorem exec_tracerPeriodEnd_early (wide : Bool)
    (h : (s.ports[p]).tracer.st ≠ 2 ∨ (s.ports[p]).tracer.blocks.length < 4 * 2 ^ ((s.ports[p]).tracer.cfg.toNat / 256 % 16)) :
    exec (.tracerPeriodEnd p wide) s = .next s := by
  have hdue : periodDue s.ports[p] = false := by
    rw [periodDue]
    rcases h with hst | hpart
    · rw [decide_eq_false hst, Bool.and_false, Bool.false_and]
    · exact (congrArg _ (decide_eq_false (Nat.not_le.2 hpart))).trans (Bool.and_false _)
  exact congrArg Host.Outcome.next (if_neg (by rw [hdue, Bool.and_false]; exact Bool.false_ne_true))

/-! ### Ramp and retry (R150, R154) -/

theorem exec_tracerRampEnd (hon : s.coreOn = true) (hst : (s.ports[p]).tracer.st = 1) (hlong : 256000 ≤ (s.ports[p]).tracer.stTicks) :
    exec (.tracerRampEnd p) s = .next { s with ports := s.ports.set p { s.ports[p] with tracer := toMeasure (s.ports[p]).tracer } } := by
  have hdue : rampDue (s.ports[p]).tracer = true := by
    rw [rampDue, decide_eq_true hst]
    exact decide_eq_true hlong
  exact congrArg Host.Outcome.next (if_pos (by rw [hon, hdue]; rfl))

theorem exec_tracerRampEnd_early (h : (s.ports[p]).tracer.st ≠ 1 ∨ (s.ports[p]).tracer.stTicks < 256000) :
    exec (.tracerRampEnd p) s = .next s := by
  have hdue : rampDue (s.ports[p]).tracer = false := by
    rw [rampDue, Bool.and_eq_false_iff, decide_eq_false_iff_not, decide_eq_false_iff_not, rampTicks, Nat.not_le]
    exact h
  exact congrArg Host.Outcome.next (if_neg (by rw [hdue, Bool.and_false]; exact Bool.false_ne_true))

theorem exec_tracerRetry (hon : s.coreOn = true) (hst : (s.ports[p]).tracer.st = 3) (hlong : 64 * 32000 ≤ (s.ports[p]).tracer.stTicks) :
    exec (.tracerRetry p) s =
      .next { s with ports := s.ports.set p { s.ports[p] with tracer := (tracerStart s.ports[p]).tracer } } := by
  have hdue : retryDue (s.ports[p]).tracer = true := by
    rw [retryDue, decide_eq_true hst]
    exact decide_eq_true hlong
  exact congrArg Host.Outcome.next (if_pos (by rw [hon, hdue]; rfl))

theorem exec_tracerRetry_early (h : (s.ports[p]).tracer.st ≠ 3 ∨ (s.ports[p]).tracer.stTicks < 64 * 32000) :
    exec (.tracerRetry p) s = .next s := by
  have hdue : retryDue (s.ports[p]).tracer = false := by
    rw [retryDue, Bool.and_eq_false_iff, decide_eq_false_iff_not, decide_eq_false_iff_not, Nat.not_le]
    exact h
  exact congrArg Host.Outcome.next (if_neg (by rw [hdue, Bool.and_false]; exact Bool.false_ne_true))

/-! ### Trims (R156) -/

/-- The state in which an evaluation of the trims is made: its powered time starts again. -/
def trimsDue (s : State) : State := { s with firn := { s.firn with ptTrace := 0 } }

/-- A trim that is clamped marks its port. -/
def markLimit (e : Fin 24 × Word × Bool) (s : State) : State := s.modTracer e.1 (fun r => { r with limitSeen := r.limitSeen || e.2.2 })

theorem exec_trimEvaluation (hon : s.coreOn = true) (hloaded : s.hw.loaded = true) (hf : s.hw.frozen = false)
    (hdue : 28800 ≤ s.firn.ptTrace.toNat) :
    exec .trimEvaluation s = .next (if (queuedTrims (trimsDue s)).isEmpty then (trimsDue s).forEach (queuedTrims (trimsDue s)) markLimit
      else openStore (.trims ((queuedTrims (trimsDue s)).map (fun e => (e.1, e.2.1)))) none
        ((trimsDue s).forEach (queuedTrims (trimsDue s)) markLimit)) :=
  congrArg Host.Outcome.next (if_pos (by rw [storesRun, hon, hloaded, hf, decide_eq_true hdue]; rfl))

/-- The marks touch neither trims nor the store. -/
theorem markLimit_trim (e : Fin 24 × Word × Bool) (s : State) (p : Fin 24) :
    ((markLimit e s).ports[p]).tracer.trim = (s.ports[p]).tracer.trim := by
  rw [markLimit, State.modTracer_ports]
  by_cases hp : p = e.1
  · subst hp
    rw [vmod_get_self]
  · rw [getElem_vmod_of_ne _ _ hp]

theorem markLimits_kept (l : List (Fin 24 × Word × Bool)) (s : State) :
    (s.forEach l markLimit).firn = s.firn ∧ ∀ p : Fin 24, ((s.forEach l markLimit).ports[p]).tracer.trim = (s.ports[p]).tracer.trim :=
  ⟨s.forEach_keeps State.firn l markLimit fun _ _ => rfl,
    fun p => s.forEach_keeps (fun u => (u.ports[p]).tracer.trim) l markLimit fun e u => markLimit_trim e u p⟩

/-! ### The lapse of a transaction (R140) -/

theorem exec_calIdleTimeout (g : CalTarget) (s : State) :
    exec (.calIdleTimeout g) s = .next { s with cal := { s.cal with txns := s.cal.txns.map (fun u =>
      if u.target = g ∧ u.st = .opened then { u with st := .stale } else u) } } := by
  have hlapse : (fun u : Txn => if u.target = g then (if u.st = .opened then { u with st := .stale } else u) else u) =
      fun u => if u.target = g ∧ u.st = .opened then { u with st := .stale } else u := by
    funext u
    exact (ite_and _ _ _ _).symm
  rw [← hlapse]
  rfl

/-! ### The statement -/

/-- Settles O41: each event is its operation on one Tracer where it is due, and nothing where it is early. -/
theorem tracerEventsTakeEffect : Obligations.TracerEventsTakeEffect := by
  refine ⟨fun p hi lo lost s hm hp => ⟨fun hout => ?_, ?_, ?_⟩, fun p wide s hm hp => ⟨fun hst hfull => ⟨fun hdev => ?_, fun hnoisy => ?_,
    fun hgood => ?_⟩, exec_tracerPeriodEnd_early wide⟩, fun p s hon => ⟨exec_tracerRampEnd hon, exec_tracerRampEnd_early, fun hst hlong => ?_,
    exec_tracerRetry_early⟩, fun s hon hloaded hf hdue => ?_, exec_calIdleTimeout⟩
  · have hlost : (hi || lo || lost) = true := by
      rw [Bool.or_eq_true, Bool.or_eq_true, or_assoc]
      exact hout
    exact exec_tracerBlock hm hp (by rw [hlost]; rfl) (by rw [hlost]; exact tracerBlock_lost _)
  · rintro rfl rfl rfl hfull
    have hdue := decide_eq_true hfull
    exact ⟨fun zr zx hz => ⟨fun hfar => exec_tracerBlock hm hp hdue (tracerBlock_far hz hfar),
      fun hnear => exec_tracerBlock hm hp hdue (tracerBlock_near hz hnear)⟩, fun hz => exec_tracerBlock hm hp hdue (tracerBlock_none hz)⟩
  · rintro rfl rfl rfl hpart
    exact exec_tracerBlock_early hpart
  · exact Bool.or_eq_true_iff.2 (.inl (decide_eq_true hdev))
  · exact exec_tracerPeriodEnd wide hm hp hst hfull (tracerPeriod_noisy hnoisy)
  · refine ⟨_, exec_tracerPeriodEnd wide hm hp hst hfull rfl, ?_⟩
    rw [tracerPeriod, if_neg (by rw [hgood]; exact Bool.false_ne_true)]
    exact ⟨rfl, rfl, rfl, rfl, rfl, rfl, rfl, rfl, rfl⟩
  · exact ⟨_, exec_tracerRetry hon hst hlong, rfl, rfl, rfl, rfl⟩
  · have hexec := exec_trimEvaluation hon hloaded hf hdue
    obtain ⟨hfirn, htrim⟩ := markLimits_kept (queuedTrims (trimsDue s)) (trimsDue s)
    refine ⟨fun hq => ?_, fun hq => ⟨_, hexec.trans (congrArg Host.Outcome.next (if_neg (mt List.isEmpty_iff.1 hq))), by rw [hfirn]; rfl, htrim⟩⟩
    have hq : queuedTrims (trimsDue s) = [] := hq
    rw [hexec, hq]
    rfl

end Sys2Proof.Machine
end

section
/-! The responses that the hardware places for commands without the MP: slots of the response ring, and what one answer writes (R291, R294,
R295, R306). -/

namespace Sys2Proof.Machine

variable {s t u : State} {k : Fin 64} {c : Cmd} {a b : Status}

/-! ### Fields of a response (R294) -/

theorem leNat_lt (bs : List Byte) : leNat bs < 256 ^ bs.length := by
  induction bs with
  | nil => decide
  | cons x bs ih =>
    have hx : x.toNat < 256 := x.isLt
    rw [leNat, List.length_cons, Nat.pow_succ]
    omega

theorem leAt_lt (bs : List Byte) (off n : Nat) : leAt bs off n < 256 ^ n :=
  (leNat_lt _).trans_le (Nat.pow_le_pow_right (by decide) (List.length_take_le _ _))

theorem padTo_self {n : Nat} {bs : List Byte} (h : bs.length = n) : padTo n bs = bs := by
  rw [padTo, h, Nat.sub_self, List.replicate_zero, List.append_nil, ← h, List.take_length]

section
variable (d p : List Byte) (st unit tag bulk yield latency : Nat)

theorem respBytes_length : (respBytes d st unit tag p bulk yield latency).length = 64 := by
  simp only [respBytes, List.length_append, leBytes_length, padTo_length]

/-- Opcode, status and tag stand in bytes 0 to 4. -/
theorem respBytes_head (hst : st < 256) (htag : tag < 256) :
    leAt (respBytes d st unit tag p bulk yield latency) 0 2 = leAt d 0 2 ∧ leAt (respBytes d st unit tag p bulk yield latency) 2 1 = st ∧
      leAt (respBytes d st unit tag p bulk yield latency) 4 1 = tag := by
  have skip {n v off m : Nat} {r : List Byte} (h : n ≤ off) : leAt (leBytes n v ++ r) off m = leAt r (off - n) m := by
    rw [leAt_append_right (by rw [leBytes_length]; exact h), leBytes_length]
  simp only [respBytes, List.append_assoc]
  refine ⟨?_, ?_, ?_⟩
  · rw [leAt_leBytes_append]
    exact Nat.mod_eq_of_lt (leAt_lt d 0 2)
  · rw [skip (by decide), leAt_leBytes_append]
    exact Nat.mod_eq_of_lt hst
  · rw [skip (by decide), skip (by decide), skip (by decide), leAt_leBytes_append]
    exact Nat.mod_eq_of_lt htag

end

/-! ### Slots of the response ring (R291) -/

/-- The window address of the slot at an index. -/
def rspAddr (i : Byte) : Nat := 0x0400 + 64 * (i.toNat % 64)

theorem rspAddr_bounds (i : Byte) : 0x0400 ≤ rspAddr i ∧ rspAddr i + 64 ≤ 0x1400 := by
  rw [rspAddr]
  omega

/-- Two of 64 successive indices name slots that lie apart. -/
theorem rspAddr_apart (i : Byte) {m n : Nat} (hm : m < 64) (hn : n < 64) (h : m ≠ n) :
    rspAddr (i + BitVec.ofNat 8 m) + 64 ≤ rspAddr (i + BitVec.ofNat 8 n) ∨
      rspAddr (i + BitVec.ofNat 8 n) + 64 ≤ rspAddr (i + BitVec.ofNat 8 m) := by
  simp only [rspAddr, BitVec.toNat_add, BitVec.toNat_ofNat]
  omega

theorem index_zero (i : Byte) : i + BitVec.ofNat 8 0 = i := BitVec.add_zero i

/-- u is s after n responses: RSP_PI has moved on by n, and of the window only their slots have changed. -/
structure Responded (n : Nat) (s u : State) : Prop where
  hw : u.hw = { s.hw with rspPi := s.hw.rspPi + BitVec.ofNat 8 n }
  win : ∀ x, (∀ j < n, x < rspAddr (s.hw.rspPi + BitVec.ofNat 8 j) ∨ rspAddr (s.hw.rspPi + BitVec.ofNat 8 j) + 64 ≤ x) →
    memGet 0 u.mb.win x = memGet 0 s.mb.win x

namespace Responded

variable {m n : Nat}

theorem of_same (hhw : u.hw = s.hw) (hwin : u.mb.win = s.mb.win) : Responded 0 s u :=
  ⟨hhw.trans (congrArg (fun i => { s.hw with rspPi := i }) (index_zero _).symm), fun _ _ => by rw [hwin]⟩

theorem trans (h : Responded m s t) (h' : Responded n t u) : Responded (m + n) s u := by
  have hpi (j : Nat) : t.hw.rspPi + BitVec.ofNat 8 j = s.hw.rspPi + BitVec.ofNat 8 (m + j) := by
    rw [h.hw, BitVec.ofNat_add, BitVec.add_assoc]
  refine ⟨?_, fun x hx => (h'.win x fun j hj => ?_).trans (h.win x fun j hj => hx j (by omega))⟩
  · rw [h'.hw, hpi n, h.hw]
  · rw [hpi j]
    exact hx (m + j) (by omega)

/-- Bytes outside the response ring stay. -/
theorem win_outside (h : Responded n s u) {x : Nat} (hx : x < 0x0400 ∨ 0x1400 ≤ x) : memGet 0 u.mb.win x = memGet 0 s.mb.win x :=
  h.win x fun j _ => by
    have := rspAddr_bounds (s.hw.rspPi + BitVec.ofNat 8 j)
    omega

/-- The newest response stays while at most 63 more come. -/
theorem slot_before (h : Responded n s u) {i : Byte} (hi : s.hw.rspPi = i + 1) (hn : n < 64) : rspSlot u i = rspSlot s i := by
  refine List.ext_getElem (by simp [rspSlot]) fun x hx _ => ?_
  have hx : x < 64 := by simpa [rspSlot] using hx
  simp only [rspSlot, Laws.memSlice_get _ _ _ _ _ hx]
  refine h.win _ fun j hj => ?_
  have hapart := rspAddr_apart i (m := 0) (n := 1 + j) (by decide) (by omega) (by omega)
  rw [index_zero, BitVec.ofNat_add, ← BitVec.add_assoc, show BitVec.ofNat 8 1 = 1 from rfl, ← hi] at hapart
  have hslot : 1024 + 64 * (i.toNat % 64) = rspAddr i := rfl
  omega

/-- Where every step places at most one response, a fold places at most one for each element. -/
theorem forEach {α : Type} {f : α → State → State} (h : ∀ x v, ∃ n ≤ 1, Responded n v (f x v)) (l : List α) (s : State) :
    ∃ n ≤ l.length, Responded n s (s.forEach l f) := by
  induction l generalizing s with
  | nil => exact ⟨0, le_rfl, .of_same rfl rfl⟩
  | cons x l ih =>
    obtain ⟨m, hm, hx⟩ := h x s
    obtain ⟨n, hn, hl⟩ := ih (f x s)
    exact ⟨m + n, by rw [List.length_cons]; omega, hx.trans hl⟩

end Responded

/-! ### One answer -/

theorem bulkAnswered_mb (k : Fin 64) (s : State) :
    (bulkAnswered k s).mb.win = s.mb.win ∧ (bulkAnswered k s).mb.tags = s.mb.tags := by
  unfold bulkAnswered
  split <;> exact ⟨rfl, rfl⟩

/-- A local command's answer without data: one response with its opcode, status and tag, and a free tag (R294, R295). -/
theorem answerHw_local (h : s.mb.tags[k] = some c) (hl : isLocal c = true) (st : Status) :
    Responded 1 s (answerHw k st s) ∧ (answerHw k st s).mb.tags = vmod s.mb.tags k (fun _ => none) ∧
      (let r := rspSlot (answerHw k st s) s.hw.rspPi; leAt r 0 2 = leAt c.desc 0 2 ∧ leAt r 2 1 = st.code ∧ leAt r 4 1 = k.val) := by
  obtain ⟨hwin, htags⟩ := bulkAnswered_mb k (putBulk [] s.draw.2)
  have hhw : (bulkAnswered k (putBulk [] s.draw.2)).hw = s.hw := by simp [State.draw]
  have hst : st.code < 256 := by cases st <;> decide
  rw [answerHw, answer_local h hl]
  generalize bulkAnswered k (putBulk [] s.draw.2) = v at hwin htags hhw
  generalize yieldByte c s.fresh s.time.ticks = y, latencyUs c s.fresh s.time.ticks = l
  have hlen := respBytes_length c.desc [] st.code s.unitByte k.val ([] : List Byte).length y l
  have hhead := respBytes_head c.desc [] st.code s.unitByte k.val ([] : List Byte).length y l hst (by omega)
  generalize respBytes c.desc st.code s.unitByte k.val [] ([] : List Byte).length y l = r at hlen hhead
  refine ⟨⟨?_, fun x hx => ?_⟩, congrArg (fun w => vmod w k fun _ => none) htags, ?_⟩
  · exact (place_rspPi r v).trans (by rw [hhw]; rfl)
  · have hx := hx 0 (by decide)
    rw [index_zero, ← hhw] at hx
    refine Eq.trans ?_ (congrArg (memGet 0 · x) hwin)
    exact Laws.memGet_memPuts_out (by rw [padTo_length]; exact hx)
  · have hslot : rspSlot (freeTag k (place r v)) s.hw.rspPi = r := by
      rw [← hhw]
      exact (place_slot r v).trans (padTo_self hlen)
    rw [hslot]
    exact hhead

/-- The answer of a command that came from another unit leaves in frames; its tag waits for them (R295). -/
theorem answerHw_ring (h : s.mb.tags[k] = some c) (hl : isLocal c = false) (st : Status) :
    Responded 0 s (answerHw k st s) ∧
      (answerHw k st s).mb.tags = vmod s.mb.tags k (fun x => x.map (fun c => { c with started := true, waiting := false })) := by
  cases ho : c.origin with
  | ring x y =>
    have hmb : (answerHw k st s).mb = (setCmd k (fun c => { c with started := true, waiting := false }) s.draw.2).mb := by
      simp only [answerHw, answer, h, ho, sendFrame_keeps]
      rfl
    have hhw : (answerHw k st s).hw = s.hw := by
      simp only [answerHw, answer, h, ho, sendFrame_keeps]
      rfl
    exact ⟨.of_same hhw (by rw [hmb]; rfl), by rw [hmb]; rfl⟩
  | _ => simp [isLocal, ho] at hl

/-! ### Every command without a response is answered (R306) -/

/-- A command of this unit's MP that has no response yet. -/
abbrev Unanswered (c : Cmd) : Prop := c.remote = false ∧ (c.started = false ∨ c.waiting = true)

theorem flushTag_unanswered (h : s.mb.tags[k] = some c) (hc : Unanswered c) :
    flushTag a b k s = answerHw k (if c.started then a else b) s := by
  obtain ⟨hremote, hwait⟩ := hc
  simp only [flushTag, h, hremote, Bool.false_eq_true, if_false]
  cases hs : c.started with
  | false => simp
  | true => simp [hwait.resolve_left (by rw [hs]; decide)]

theorem flushTag_rest (h : ∀ c, s.mb.tags[k] = some c → ¬ Unanswered c) : flushTag a b k s = s := by
  cases htag : s.mb.tags[k] with
  | none => simp only [flushTag, htag]
  | some c =>
    simp only [flushTag, htag]
    cases hremote : c.remote with
    | true => rfl
    | false =>
      have hdone : c.started = true ∧ c.waiting = false := by simpa [Unanswered, hremote] using h c htag
      simp [hdone]

/-- What the flush of one tag can do: nothing, a response in the ring, or an answer in frames; no other tag changes. -/
theorem flushTag_step (a b : Status) (k : Fin 64) (s : State) :
    (∃ n ≤ 1, Responded n s (flushTag a b k s)) ∧ ∀ j, j ≠ k → (flushTag a b k s).mb.tags[j] = s.mb.tags[j] := by
  by_cases h : ∃ c, s.mb.tags[k] = some c ∧ Unanswered c
  · obtain ⟨c, htag, hc⟩ := h
    rw [flushTag_unanswered htag hc]
    cases hl : isLocal c with
    | true =>
      obtain ⟨hresp, htags, -⟩ := answerHw_local htag hl (if c.started then a else b)
      exact ⟨⟨1, le_rfl, hresp⟩, fun j hj => by rw [htags]; exact getElem_vmod_of_ne _ _ hj⟩
    | false =>
      obtain ⟨hresp, htags⟩ := answerHw_ring htag hl (if c.started then a else b)
      exact ⟨⟨0, by decide, hresp⟩, fun j hj => by rw [htags]; exact getElem_vmod_of_ne _ _ hj⟩
  · rw [flushTag_rest fun c htag hc => h ⟨c, htag, hc⟩]
    exact ⟨⟨0, by decide, .of_same rfl rfl⟩, fun _ _ => rfl⟩

theorem flush_responded (l : List (Fin 64)) (s : State) : ∃ n ≤ l.length, Responded n s (s.forEach l (flushTag a b)) :=
  Responded.forEach (fun k v => (flushTag_step a b k v).1) l s

theorem flush_tag_of_not_mem {l : List (Fin 64)} (h : k ∉ l) (s : State) : (s.forEach l (flushTag a b)).mb.tags[k] = s.mb.tags[k] := by
  induction l generalizing s with
  | nil => rfl
  | cons j l ih =>
    obtain ⟨hj, hl⟩ := List.ne_and_not_mem_of_not_mem_cons h
    exact (ih hl _).trans ((flushTag_step a b j s).2 k hj)

/-- A fold over tags, cut at one of them. -/
theorem forEach_split {l l' : List (Fin 64)} (f : Fin 64 → State → State) (s : State) :
    s.forEach (l ++ k :: l') f = (f k (s.forEach l f)).forEach l' f := by
  rw [State.forEach, List.foldl_append]
  rfl

/-- The flush of many tags reaches each of them with its command as it was, and adds at most 63 responses after that tag's own. -/
theorem flush_reaches {l : List (Fin 64)} (hl : l.Nodup) (hlen : l.length ≤ 64) (hk : k ∈ l) (a b : Status) (s : State) :
    ∃ v, v.mb.tags[k] = s.mb.tags[k] ∧ (∃ j < 64, v.hw.rspPi = s.hw.rspPi + BitVec.ofNat 8 j) ∧
      (s.forEach l (flushTag a b)).mb.tags[k] = (flushTag a b k v).mb.tags[k] ∧
      ∃ n < 64, Responded n (flushTag a b k v) (s.forEach l (flushTag a b)) := by
  obtain ⟨l₁, l₂, rfl⟩ := List.append_of_mem hk
  obtain ⟨-, hl₂, hapart⟩ := List.nodup_append.1 hl
  rw [List.length_append, List.length_cons] at hlen
  have hnot₁ : k ∉ l₁ := fun h => hapart k h k List.mem_cons_self rfl
  obtain ⟨m, hm, hbefore⟩ := flush_responded (a := a) (b := b) l₁ s
  obtain ⟨n, hn, hafter⟩ := flush_responded (a := a) (b := b) l₂ (flushTag a b k (s.forEach l₁ (flushTag a b)))
  rw [forEach_split]
  exact ⟨_, flush_tag_of_not_mem hnot₁ s, ⟨m, by omega, by rw [hbefore.hw]⟩, flush_tag_of_not_mem (List.nodup_cons.1 hl₂).1 _, n, by omega, hafter⟩

end Sys2Proof.Machine
end

section
/-! An MP reset: what it sets before it answers, the answers, and its three causes (R141, R306, R425, R429, R435). -/

namespace Sys2Proof.Machine

variable {s t : State} {k : Fin 64} {c : Cmd}

/-! ### Every tag (R306) -/

/-- Every command without a response has been answered. Irreducible, since a check of equality must not run the fold over 64 tags. -/
@[irreducible] def flushed (s : State) : State := s.forEach (fins 64) (flushTag .interrupted .retry)

theorem flushed_reaches (k : Fin 64) (s : State) :
    ∃ v, v.mb.tags[k] = s.mb.tags[k] ∧ (∃ j < 64, v.hw.rspPi = s.hw.rspPi + BitVec.ofNat 8 j) ∧
      (flushed s).mb.tags[k] = (flushTag .interrupted .retry k v).mb.tags[k] ∧
      ∃ n < 64, Responded n (flushTag .interrupted .retry k v) (flushed s) := by
  have hall : (fins 64).Nodup ∧ (fins 64).length ≤ 64 ∧ k ∈ fins 64 :=
    ⟨List.nodup_finRange 64, (List.length_finRange (n := 64)).le, List.mem_finRange k⟩
  unfold flushed
  generalize fins 64 = l at hall
  obtain ⟨hl, hlen, hk⟩ := hall
  exact flush_reaches hl hlen hk _ _ s

/-- A tag without such a command stays as it is. -/
theorem flushed_tag_rest (h : ∀ c, s.mb.tags[k] = some c → ¬ Unanswered c) : (flushed s).mb.tags[k] = s.mb.tags[k] := by
  obtain ⟨v, htag, -, hkept, -⟩ := flushed_reaches k s
  rw [hkept, flushTag_rest fun c hc => h c (htag.symm.trans hc), htag]

/-- A local command has its response in the ring, and its tag is free (R306). -/
theorem flushed_local (h : s.mb.tags[k] = some c) (hc : Unanswered c) (hl : isLocal c = true) :
    (flushed s).mb.tags[k] = none ∧ ∃ j < 64, let r := rspSlot (flushed s) (s.hw.rspPi + BitVec.ofNat 8 j)
      leAt r 0 2 = leAt c.desc 0 2 ∧ leAt r 2 1 = (if c.started then 0x13 else 0x02) ∧ leAt r 4 1 = k.val := by
  obtain ⟨v, htag, ⟨j, hj, hpi⟩, hkept, n, hn, hafter⟩ := flushed_reaches k s
  rw [h] at htag
  rw [flushTag_unanswered htag hc] at hkept hafter
  obtain ⟨hresp, htags, hop, hst, hnum⟩ := answerHw_local htag hl (if c.started then .interrupted else .retry)
  have hslot : rspSlot (flushed s) (s.hw.rspPi + BitVec.ofNat 8 j) =
      rspSlot (answerHw k (if c.started then .interrupted else .retry) v) v.hw.rspPi := by
    rw [← hpi]
    exact hafter.slot_before (by rw [hresp.hw]; rfl) hn
  refine ⟨by rw [hkept, htags]; exact vmod_get_self _ _ _, j, hj, ?_⟩
  rw [hslot]
  exact ⟨hop, hst.trans (by cases c.started <;> rfl), hnum⟩

/-- A command that came from another unit keeps its tag for the frames of its answer (R306). -/
theorem flushed_ring (h : s.mb.tags[k] = some c) (hc : Unanswered c) (hl : isLocal c = false) :
    (flushed s).mb.tags[k] = some { c with started := true, waiting := false } := by
  obtain ⟨v, htag, -, hkept, -⟩ := flushed_reaches k s
  rw [h] at htag
  obtain ⟨-, htags⟩ := answerHw_ring htag hl (if c.started then .interrupted else .retry)
  rw [hkept, flushTag_unanswered htag hc, htags]
  exact (vmod_get_self _ _ _).trans (congrArg _ htag)

/-! ### The reset -/

/-- The state in which a reset answers the commands: the MP starts anew, nonces and open transactions are void, the level is D0. -/
def mpDown (s : State) : State :=
  mpResetTxns (dropDebug (voidNonces (((s.modHw (fun h => { h with mpReady := false, mpRun := true, mpResets := satAdd h.mpResets 1 })).raise
    irqMpReset).modMp (fun m => { m with halted := false }))))

/-- The level's end may raise LIFECYCLE; the rest of the host port's registers it leaves. -/
theorem dropDebug_hw (s : State) (h : s.hw.irq.getLsbD 4 = true) :
    ∃ i, i.getLsbD 4 = true ∧ (dropDebug s).hw = { s.hw with irq := i } := by
  unfold dropDebug
  split
  · exact ⟨s.hw.irq, h, rfl⟩
  · refine ⟨_, ?_, rfl⟩
    exact (BitVec.getLsbD_or ..).trans (by rw [State.modSec_hw, h, Bool.true_or])

theorem mpDown_hw (s : State) :
    ∃ i, i.getLsbD 4 = true ∧
      (mpDown s).hw = { s.hw with mpReady := false, mpRun := true, mpResets := satAdd s.hw.mpResets 1, irq := i } :=
  dropDebug_hw (voidNonces _) (raise_irq (s.modHw _) (k := irqMpReset) (by decide))

theorem mpDown_sec (s : State) :
    (mpDown s).sec = { s.sec with debug := 0, debugLeft := none, unsealNonce := none, debugNonce := none } :=
  (dropDebug_sec (voidNonces _)).1

theorem mpDown_mp (s : State) : (mpDown s).mp = { s.mp with halted := false } := by simp [mpDown]

theorem mpDown_kept (s : State) :
    (mpDown s).mb = s.mb ∧ (mpDown s).circuits = s.circuits ∧ (mpDown s).clk = s.clk ∧ (mpDown s).hw.rspPi = s.hw.rspPi := by
  obtain ⟨i, -, hhw⟩ := mpDown_hw s
  exact ⟨by simp [mpDown], by simp [mpDown], by simp [mpDown], by rw [hhw]⟩

/-- No transaction that is left was OPEN (R141). -/
theorem mpDown_txns {u : Txn} (h : u ∈ (mpDown s).cal.txns) : u ∈ s.cal.txns ∧ u.st ≠ .opened := by
  rw [mpDown, mpResetTxns, State.modCal_cal] at h
  obtain ⟨hu, hst⟩ := List.mem_filter.1 h
  simp only [Bool.and_eq_true, decide_eq_true_eq] at hst
  obtain ⟨⟨hopened, -⟩, -⟩ := hst
  exact ⟨by simpa using hu, hopened⟩

/-- The end of a reset: the requests of the store lose their owners, and no swap is under way. -/
def resetEnd (s : State) : State :=
  clearSwap (s.modFirn (fun f => { f with reqs := f.reqs.map (fun r => if r.tag = none then r else { r with tag := none }) }))

theorem resetEnd_hw (s : State) : (resetEnd s).hw = { s.hw with swapping := false } := rfl

theorem resetEnd_mp (s : State) : (resetEnd s).mp = { s.mp with swapTag := none } := rfl

theorem resetEnd_kept (s : State) :
    (resetEnd s).sec = s.sec ∧ (resetEnd s).cal = s.cal ∧ (resetEnd s).circuits = s.circuits ∧ (resetEnd s).clk = s.clk :=
  ⟨rfl, rfl, rfl, rfl⟩

theorem resetEnd_owner {r : StoreReq} (h : r ∈ (resetEnd s).firn.reqs) : r.tag = none := by
  obtain ⟨q, -, rfl⟩ := List.mem_map.1 h
  split
  · next hq => exact hq
  · rfl

theorem resetMp_eq (s : State) : resetMp s = flushTags .interrupted .retry none (mpDown s) := rfl

/-- The answers of a reset leave out no tag. -/
theorem flushTags_all (s : State) : clearSwap (flushTags .interrupted .retry none s) = resetEnd (flushed s) := by
  have hall : (fins 64).filter (fun k => decide (some k ≠ none)) = fins 64 := by
    simp only [ne_eq, reduceCtorEq, not_false_eq_true, decide_true, List.filter_true]
  unfold flushed
  rw [flushTags, hall]
  generalize s.forEach (fins 64) (flushTag .interrupted .retry) = v
  rfl

theorem flushed_kept (s : State) :
    (flushed s).sec = s.sec ∧ (flushed s).mp = s.mp ∧ (flushed s).cal = s.cal ∧ (flushed s).circuits = s.circuits ∧ (flushed s).clk = s.clk ∧
      ∃ n, Responded n s (flushed s) := by
  obtain ⟨n, -, hresp⟩ := flush_responded (a := .interrupted) (b := .retry) (fins 64) s
  unfold flushed
  exact ⟨s.forEach_keeps State.sec _ _ fun _ _ => by simp, s.forEach_keeps State.mp _ _ fun _ _ => by simp,
    s.forEach_keeps State.cal _ _ fun _ _ => by simp, s.forEach_keeps State.circuits _ _ fun _ _ => by simp,
    s.forEach_keeps State.clk _ _ fun _ _ => by simp, n, hresp⟩

/-- What an MP reset makes of s, but for WDOG_FIRED (R141, R306, R425, R429). -/
structure MpWasReset (s t : State) : Prop where
  mp : t.hw.mpReady = false ∧ t.hw.mpRun = true ∧ t.mp.halted = false ∧ t.hw.swapping = false ∧ t.mp.swapTag = none
  hw : t.hw.mpResets = satAdd s.hw.mpResets 1 ∧ t.hw.irq.getLsbD 4 = true ∧ t.hw.cmdPi = s.hw.cmdPi ∧ t.hw.cmdCi = s.hw.cmdCi
  sec : t.sec.unsealNonce = none ∧ t.sec.debugNonce = none ∧ t.sec.debug = 0 ∧ t.sec.state = s.sec.state
  kept : t.circuits = s.circuits ∧ t.clk = s.clk
  txns : ∀ x ∈ t.cal.txns, x ∈ s.cal.txns ∧ x.st ≠ .opened
  owners : ∀ r ∈ t.firn.reqs, r.tag = none
  win : ∀ a, a < 0x0400 ∨ 0x1400 ≤ a → memGet 0 t.mb.win a = memGet 0 s.mb.win a
  rest : ∀ k : Fin 64, (∀ c, s.mb.tags[k] = some c → ¬ Unanswered c) → t.mb.tags[k] = s.mb.tags[k]
  inRing : ∀ (k : Fin 64) (c : Cmd), s.mb.tags[k] = some c → Unanswered c → isLocal c = true → t.mb.tags[k] = none ∧
    ∃ j < 64, let r := rspSlot t (s.hw.rspPi + BitVec.ofNat 8 j)
      leAt r 0 2 = leAt c.desc 0 2 ∧ leAt r 2 1 = (if c.started then 0x13 else 0x02) ∧ leAt r 4 1 = k.val
  inFrames : ∀ (k : Fin 64) (c : Cmd), s.mb.tags[k] = some c → Unanswered c → isLocal c = false →
    t.mb.tags[k] = some { c with started := true, waiting := false }

theorem mpWasReset (s : State) : MpWasReset s (clearSwap (resetMp s)) ∧ (clearSwap (resetMp s)).hw.wdogFired = s.hw.wdogFired := by
  obtain ⟨hmb, hcir, hclk, hpi⟩ := mpDown_kept s
  obtain ⟨i, hi, hhw⟩ := mpDown_hw s
  have hsec := mpDown_sec s
  have hmp := mpDown_mp s
  have htxns := @mpDown_txns s
  rw [resetMp_eq, flushTags_all]
  generalize mpDown s = d at *
  obtain ⟨fsec, fmp, fcal, fcir, fclk, n, hresp⟩ := flushed_kept d
  obtain ⟨esec, ecal, ecir, eclk⟩ := resetEnd_kept (flushed d)
  have ehw := (resetEnd_hw (flushed d)).trans (congrArg (fun h : HwRegs => { h with swapping := false }) hresp.hw)
  rw [hhw] at ehw
  refine ⟨{
    mp := by rw [ehw, resetEnd_mp, fmp, hmp]; exact ⟨rfl, rfl, rfl, rfl, rfl⟩
    hw := by rw [ehw]; exact ⟨rfl, hi, rfl, rfl⟩
    sec := by rw [esec, fsec, hsec]; exact ⟨rfl, rfl, rfl, rfl⟩
    kept := ⟨(ecir.trans fcir).trans hcir, (eclk.trans fclk).trans hclk⟩
    txns := fun x hx => htxns (by rwa [ecal, fcal] at hx)
    owners := fun r hr => resetEnd_owner hr
    win := fun x hx => (hresp.win_outside hx).trans (by rw [hmb])
    rest := fun k hk => (flushed_tag_rest (by rwa [hmb])).trans (by rw [hmb])
    inRing := fun k c hk hc hl => by rw [← hpi]; exact flushed_local (by rwa [hmb]) hc hl
    inFrames := fun k c hk hc hl => flushed_ring (by rwa [hmb]) hc hl }, by rw [ehw]⟩

/-- A reset takes nothing from the MP's own record but what it writes. -/
theorem MpWasReset.of_modMp {f : Mp → Mp} (h : MpWasReset (s.modMp f) t) : MpWasReset s t := { h with }

/-- WDOG_FIRED is no part of what a reset writes. -/
theorem MpWasReset.fired (h : MpWasReset s t) : MpWasReset s (t.modHw (fun x => { x with wdogFired := true })) := { h with }

/-! ### Its causes -/

/-- A firing of the watchdog in the first 60 s of a firmware is counted (R434). -/
def countFire (s : State) : State := if swapTrial s then s.modMp (fun m => { m with swapFires := m.swapFires + 1 }) else s

theorem exec_mpReset (hon : s.coreOn = true) : exec .mpReset s = .next (clearSwap (resetMp s)) :=
  congrArg Host.Outcome.next (if_pos hon)

theorem exec_force (hon : s.coreOn = true) : exec (.force 0x5A) s = .next (clearSwap (resetMp s)) :=
  congrArg Host.Outcome.next (if_pos ⟨rfl, hon⟩)

theorem exec_watchdogExpiry (hon : s.coreOn = true) (hrun : s.hw.mpRun = true) (hgoing : s.mp.halted = false) :
    exec .watchdogExpiry s = .next ((clearSwap (resetMp (countFire s))).modHw (fun h => { h with wdogFired := true })) :=
  congrArg Host.Outcome.next (if_pos (by rw [hon, hrun, hgoing]; rfl))

theorem mpWasReset_countFire (s : State) : MpWasReset s (clearSwap (resetMp (countFire s))) := by
  unfold countFire
  split
  · exact (mpWasReset _).1.of_modMp
  · exact (mpWasReset s).1

theorem exec_watchdogExpiry_idle (h : s.coreOn = false ∨ s.hw.mpRun = false ∨ s.mp.halted = true) : exec .watchdogExpiry s = .next s :=
  congrArg Host.Outcome.next (if_neg (by rcases h with h | h | h <;> simp [h]))

theorem exec_mpReset_off (hoff : s.coreOn = false) : exec .mpReset s = .next s :=
  congrArg Host.Outcome.next (if_neg (by rw [hoff]; exact Bool.false_ne_true))

theorem exec_force_off (hoff : s.coreOn = false) : exec (.force 0x5A) s = .next s :=
  congrArg Host.Outcome.next (if_neg (by rw [hoff]; exact fun h => Bool.false_ne_true h.2))

/-- Each cause leads to such a reset, and the watchdog's alone sets WDOG_FIRED (R306, R435). -/
theorem exec_resets {i : Instr} (hon : s.coreOn = true)
    (hi : i = .mpReset ∨ i = .force 0x5A ∨ (i = .watchdogExpiry ∧ s.hw.mpRun = true ∧ s.mp.halted = false)) :
    ∃ t, exec i s = .next t ∧ MpWasReset s t ∧ t.hw.wdogFired = (s.hw.wdogFired || decide (i = .watchdogExpiry)) := by
  rcases hi with rfl | rfl | ⟨rfl, hrun, hgoing⟩
  · exact ⟨_, exec_mpReset hon, (mpWasReset s).1, (mpWasReset s).2.trans (Bool.or_false _).symm⟩
  · exact ⟨_, exec_force hon, (mpWasReset s).1, (mpWasReset s).2.trans (Bool.or_false _).symm⟩
  · exact ⟨_, exec_watchdogExpiry hon hrun hgoing, (mpWasReset_countFire s).fired, (Bool.or_true _).symm⟩

/-- Settles O9: one flush of all 64 tags, read at each tag, behind the three causes. -/
theorem mpResetDropsWork : Obligations.MpResetDropsWork := by
  refine ⟨fun s hon i hi => ?_, fun s hon hidle => exec_watchdogExpiry_idle (.inr hidle), fun s i hoff hi => ?_⟩
  · obtain ⟨t, hexec, h, hfired⟩ := exec_resets hon hi
    obtain ⟨hready, hrun, hhalted, hswap, htag⟩ := h.mp
    obtain ⟨hresets, hirq, hpi, hci⟩ := h.hw
    obtain ⟨hunseal, hdebug, hlevel, hstate⟩ := h.sec
    obtain ⟨hcir, hclk⟩ := h.kept
    refine ⟨t, hexec, hready, hrun, hhalted, hswap, htag, hresets, hirq, hunseal, hdebug, hlevel, hfired, hpi, hci, hstate, hcir, hclk,
      h.txns, h.owners, h.win, fun k hk => ?_, fun k c hk => ⟨fun hremote => ?_, fun hremote hl hwait => ?_, fun hremote hl hwait => ?_⟩⟩
    · rw [h.rest k (by rw [hk]; simp), hk]
    · rw [h.rest k fun d hd hc => ?_, hk]
      obtain rfl : c = d := Option.some.inj (hk.symm.trans hd)
      exact Bool.false_ne_true (hc.1.symm.trans hremote)
    · exact h.inRing k c hk ⟨hremote, hwait⟩ hl
    · exact h.inFrames k c hk ⟨hremote, hwait⟩ hl
  · rcases hi with rfl | rfl | rfl
    · exact exec_mpReset_off hoff
    · exact exec_force_off hoff
    · exact exec_watchdogExpiry_idle (.inl hoff)

end Sys2Proof.Machine
end

section
/-! What a crystal tick has made due, one rule per operation: alarms, weekdays, a billing boundary, and the MP's copy of it (R207, R209, R222,
R223). -/

namespace Sys2Proof.Machine

variable {s : State}

/-! ### Alarms (R207) -/

theorem doAlarm_idle {n : Fin 4} (h : (s.clk.alarms[n]).due = false) : doAlarm n s = s :=
  if_neg (by rw [h]; exact Bool.false_ne_true)

/-- A firing that is due: the alarm fires, CLOCK is raised, and PWR_WAKE follows in HOLD where WAKE asks for it. -/
theorem doAlarm_due {n : Fin 4} (h : (s.clk.alarms[n]).due = true) :
    doAlarm n s =
      let t := (s.modClk (fun k => { k with alarms := vmod k.alarms n Alarm.fire })).raise irqClock
      if (s.clk.alarms[n]).wake && decide (s.power.state = .hold) then t.modPower (fun p => { p with pwrWake := true }) else t :=
  if_pos h

theorem doAlarm_power {n : Fin 4} (h : (s.clk.alarms[n]).due = true) (hup : s.power.state ≠ .hold) : (doAlarm n s).power = s.power := by
  have hno : ¬ ((s.clk.alarms[n]).wake && decide (s.power.state = .hold)) = true := by simp [hup]
  rw [doAlarm_due h]
  dsimp only
  rw [if_neg hno]
  rfl

theorem doAlarm_alarms {n : Fin 4} (h : (s.clk.alarms[n]).due = true) :
    (doAlarm n s).clk.alarms = vmod s.clk.alarms n Alarm.fire := by
  rw [doAlarm_due h]
  dsimp only
  split <;> rfl

theorem doAlarm_irq {n : Fin 4} (h : (s.clk.alarms[n]).due = true) : (doAlarm n s).hw.irq.getLsbD 3 = true := by
  have hraised := raise_irq (s.modClk (fun k => { k with alarms := vmod k.alarms n Alarm.fire })) (k := irqClock) (by decide)
  rw [doAlarm_due h]
  dsimp only
  split <;> exact hraised

theorem doAlarm_wakes {n : Fin 4} (h : (s.clk.alarms[n]).due = true) (hwake : (s.clk.alarms[n]).wake = true) (hhold : s.power.state = .hold) :
    (doAlarm n s).power.pwrWake = true := by
  rw [doAlarm_due h, hwake, decide_eq_true hhold]
  rfl

/-! ### Weekdays (R209) -/

/-- The weekday of a clock that has passed midnight. -/
def advanceWday (c : RtClock) : RtClock := if c.wdayDue then { c with wday := nextWday c.wday, wdayDue := false } else c

theorem doWeekday_legal (s : State) : doWeekday true s = s.modClk (fun k => { k with legal := advanceWday k.legal }) := rfl

theorem doWeekday_service (s : State) : doWeekday false s = s.modClk (fun k => { k with service := advanceWday k.service }) := rfl

theorem advanceWday_idle {c : RtClock} (h : c.wdayDue = false) : advanceWday c = c := if_neg (by rw [h]; exact Bool.false_ne_true)

theorem advanceWday_due {c : RtClock} (h : c.wdayDue = true) : advanceWday c = { c with wday := nextWday c.wday, wdayDue := false } := if_pos h

/-- A weekday that advances is not the count's. -/
theorem advanceWday_kept (c : RtClock) :
    (advanceWday c).count = c.count ∧ (advanceWday c).trimAcc = c.trimAcc ∧ (advanceWday c).write = c.write := by
  unfold advanceWday
  split <;> exact ⟨rfl, rfl, rfl⟩

theorem doWeekday_legal_idle (h : s.clk.legal.wdayDue = false) : doWeekday true s = s := by
  rw [doWeekday_legal, State.modClk, advanceWday_idle h]

theorem doWeekday_service_idle (h : s.clk.service.wdayDue = false) : doWeekday false s = s := by
  rw [doWeekday_service, State.modClk, advanceWday_idle h]

/-! ### Billing boundaries (R222, R223) -/

theorem doBoundary_idle (h : s.clk.boundaryDue = false) : doBoundary s = s := if_neg (by rw [h]; exact Bool.false_ne_true)

theorem closeInterval_service (stop next : BitVec 48) (t : Stamp) (extra : BitVec 16) (k : Clocks) :
    (closeInterval stop next t extra k).service = k.service := by
  unfold closeInterval
  dsimp only
  split
  · rfl
  · split <;> rfl

theorem takeBoundary_service (stop next : BitVec 48) (extra : BitVec 16) (s : State) :
    (takeBoundary stop next extra s).clk.service = s.clk.service := by
  unfold takeBoundary
  split
  · exact closeInterval_service _ _ _ _ _
  · rfl

/-- An open interval without a boundary that still waits: the boundary keeps its end, its flags and the next one's start. -/
theorem closeInterval_open {stop next : BitVec 48} {t : Stamp} {extra : BitVec 16} {k : Clocks} (hopen : k.billIsOpen = true)
    (hb : k.boundary = none) :
    closeInterval stop next t extra k =
      { k with boundary := some { stop := stop, next := next, time := t, flags := k.billFlags ||| extra, spans := 1 },
               billFlags := billTickFlags k &&& 0x50, billCfg := k.billCfgW } := by
  simp only [closeInterval, hopen, hb, Bool.not_true, Bool.false_eq_true, if_false]

theorem doBoundary_due (hdue : s.clk.boundaryDue = true) (hon : s.coreOn = true) (hl : s.hw.loaded = true) :
    doBoundary s =
      ((snapMp (s.modClk (fun k => { k with boundaryDue := false }))).modClk
        (closeInterval s.clk.legal.count s.clk.legal.count (s.stampAt s.clk.lfNs) 0)).modDisp (noteStrip s.clk.legal.count) := by
  have hgo : (s.coreOn && s.hw.loaded) = true := by rw [hon, hl]; rfl
  exact (if_pos hdue).trans (congrArg (fun u : State => u.modDisp (noteStrip s.clk.legal.count)) (if_pos hgo))

/-! ### The record of a closed interval (R223) -/

/-- The record that the MP forms of a boundary. -/
def boundaryRecord (s : State) (b : Boundary) : BillRec :=
  { seq := s.clk.billSeq, flags := b.flags, start := s.clk.billStart, stop := b.stop, time := b.time,
    snap := s.energy.mpLatch.seq, image := s.energy.mpLatch.image.getD (Vector.replicate 24 .zero) }

theorem formRecord_some {b : Boundary} (h : s.clk.boundary = some b) :
    (formRecord s).clk =
      { s.clk with records := (boundaryRecord s b :: s.clk.records).take 4, boundary := none,
                   billSeq := s.clk.billSeq + BitVec.ofNat 32 (b.spans + s.clk.billExtra), billExtra := 0, billStart := b.next } := by
  simp only [formRecord, h]
  rfl

/-- The store that the copy asks for writes no clock. -/
theorem copyBoundary_clk (s : State) : (copyBoundary s).clk = (formRecord s).clk := by
  unfold copyBoundary
  split
  next h => simp only [formRecord, h]
  · split
    · rfl
    · exact congrArg StoreFrame.clk (openStore_step (s := formRecord s) (.page 426)).1

end Sys2Proof.Machine
end

section
/-! A crystal tick: what is due before it, and what it makes of the two clocks (R194, R196, R204, R216). -/

namespace Sys2Proof.Machine

variable {s : State} {c : RtClock} {k : Clocks}

/-! ### One clock on one tick -/

theorem tick_counts (h : c.write = none) (acc : BitVec 20) (adj : Int) :
    (c.tick acc adj).count = c.count + BitVec.ofInt 48 (1 + adj) ∧ (c.tick acc adj).trimAcc = acc := by
  simp only [RtClock.tick, landing, h, and_self]

/-- A write whose ticks have passed lands. -/
theorem tick_lands {n : BitVec 33} {wd : Option (BitVec 3)} (h : c.write = some (n, wd, 0)) (acc : BitVec 20) (adj : Int) :
    c.tick acc adj =
      { count := BitVec.ofNat 48 (n.toNat * 32768), wday := wd.getD c.wday, trimAcc := acc, write := none, wdayDue := false } := by
  simp only [RtClock.tick, landing, writeWait, h]

/-- What trim T adds to a tick on which its accumulator stands at acc (R196). -/
def trimNet (acc : BitVec 20) (t : Int) : Int := if (trimStep acc t).2 then (if t < 0 then -1 else 1) else 0

theorem trimNet_none {acc : BitVec 20} {t : Int} (h : acc.toNat + t.natAbs < 2 ^ 20) : trimNet acc t = 0 :=
  if_neg (by simpa [trimStep] using h)

theorem trimNet_carry {acc : BitVec 20} {t : Int} (h : 2 ^ 20 ≤ acc.toNat + t.natAbs) : trimNet acc t = if t < 0 then -1 else 1 :=
  if_pos (decide_eq_true h)

/-- With no slew in force and none that waits, the legal clock follows its trim alone (R215, R216). -/
theorem legalAdjust_unslewed (htotal : k.slewTotal = 0) (hheld : k.slewHeld = 0) (hold : Bool) (trim : Int) :
    (legalAdjust hold trim k).1 = trim := by
  have hnone : slewDue k.slewTotal k.slewTick = false := by simp [slewDue, slewBefore, htotal]
  simp only [legalAdjust, hheld, hnone]
  simp [mixSlew]

theorem tickClocks_service (hold : Bool) (k : Clocks) :
    (tickClocks hold k).service =
      k.service.tick (trimStep k.service.trimAcc (serviceTrim k)).1 (trimNet k.service.trimAcc (serviceTrim k)) := rfl

theorem tickClocks_legal (hold : Bool) (k : Clocks) :
    (tickClocks hold k).legal =
      k.legal.tick (trimStep k.legal.trimAcc (ltrimOf k.ltrim)).1
        (legalAdjust hold (trimNet k.legal.trimAcc (ltrimOf k.ltrim)) k).1 := rfl

/-! ### What the last tick has left due -/

/-- The weekdays that the last tick has made due. -/
def advanceWdays (s : State) : State :=
  s.modClk (fun k => { k with legal := advanceWday k.legal, service := advanceWday k.service })

theorem settleTick_eq (halarms : ∀ n : Fin 4, (s.clk.alarms[n]).due = false) (hb : s.clk.boundaryDue = false) :
    settleTick s = doTheta (advanceWdays s) := by
  have hidle : s.forEach (fins 4) doAlarm = s :=
    State.forEach_inv s (· = s) _ _ (fun n u hu => by rw [hu]; exact doAlarm_idle (halarms n)) rfl
  have hweek : doWeekday false (doWeekday true s) = advanceWdays s := rfl
  rw [settleTick, hidle, hweek, doBoundary_idle (s := advanceWdays s) hb]

theorem doTheta_idle (h : s.clk.tcDue = false) : doTheta s = s := if_neg (by rw [h]; exact Bool.false_ne_true)

theorem doTheta_service (s : State) : (doTheta s).clk.service = s.clk.service := by
  unfold doTheta
  split <;> rfl

/-! ### The tick -/

/-- Both clocks moved by one tick, the ring time of the tick noted, and the supply of PD_AO taken. -/
def ticked (s : State) : State :=
  (s.modClk (fun k => { tickClocks (slewStopped s) k with
    lfNs := s.nowNs + Config.tickPhase s.time.ticks s.clk.service.count.toNat % 31250 })).modPower takeVsup

theorem crystal_plain (h : (settleTick s).clk.legal.write = none) : crystal s = ticked (settleTick s) := by
  have hno : (landing (settleTick s).clk.legal).isSome = false := by simp only [landing, h, Option.isSome_none]
  exact if_neg (by rw [hno]; exact Bool.false_ne_true)

/-- A set of the legal clock that lands closes an interval, and the service clock goes on. -/
theorem crystal_service (s : State) : (crystal s).clk.service = (ticked (settleTick s)).clk.service := by
  unfold crystal
  extract_lets u oldL lands hold at_ v inv
  split
  · exact takeBoundary_service _ _ _ _
  · rfl

theorem exec_crystalTick (hon : s.power.state ≠ .off) (hrun : s.clk.crystalRuns = true) : exec .crystalTick s = .next (crystal s) :=
  congrArg Host.Outcome.next (if_pos (by simp [aoOn, hon, hrun]))

theorem exec_crystalTick_stopped (h : s.clk.crystalRuns = false) : exec .crystalTick s = .next s :=
  congrArg Host.Outcome.next (if_neg (by simp [h]))

/-- The first edge after a stop is a tick of the crystal that runs again (R204). -/
theorem exec_oscResume (hon : s.power.state ≠ .off) (hrun : s.clk.crystalRuns = false) :
    exec .oscResume s = exec .crystalTick { s with clk := { s.clk with crystalRuns := true } } := by
  rw [exec_crystalTick (s := { s with clk := { s.clk with crystalRuns := true } }) hon rfl]
  exact congrArg Host.Outcome.next (if_pos (by simp [aoOn, hon, hrun]))

theorem exec_oscStopped (hon : s.power.state ≠ .off) :
    exec .oscStopped s = .next { s with clk := { s.clk with oscStopped := true, crystalRuns := false } } :=
  congrArg Host.Outcome.next (if_pos (decide_eq_true hon))

/-- Nothing but weekdays due, no write and no slew: each clock's tick is that of its own trim. -/
structure QuietTick (s : State) : Prop where
  alarms : ∀ n : Fin 4, (s.clk.alarms[n]).due = false
  boundary : s.clk.boundaryDue = false
  legal : s.clk.legal.write = none
  service : s.clk.service.write = none
  slewTotal : s.clk.slewTotal = 0
  slewHeld : s.clk.slewHeld = 0
  theta : s.clk.tcDue = false

theorem crystal_quiet (h : QuietTick s) : crystal s = ticked (advanceWdays s) := by
  have hsettle : settleTick s = advanceWdays s := (settleTick_eq h.alarms h.boundary).trans (doTheta_idle h.theta)
  rw [crystal_plain (by rw [hsettle]; exact (advanceWday_kept _).2.2.trans h.legal), hsettle]

theorem crystal_quiet_legal (h : QuietTick s) :
    (crystal s).clk.legal.count = s.clk.legal.count + BitVec.ofInt 48 (1 + trimNet s.clk.legal.trimAcc (ltrimOf s.clk.ltrim)) ∧
      (crystal s).clk.legal.trimAcc = s.clk.legal.trimAcc + BitVec.ofNat 20 (ltrimOf s.clk.ltrim).natAbs := by
  obtain ⟨hcount, hacc, hwrite⟩ := advanceWday_kept s.clk.legal
  have htick : (crystal s).clk.legal = (advanceWday s.clk.legal).tick (trimStep s.clk.legal.trimAcc (ltrimOf s.clk.ltrim)).1
      (trimNet s.clk.legal.trimAcc (ltrimOf s.clk.ltrim)) := by
    rw [crystal_quiet h, ← hacc]
    refine (tickClocks_legal _ (advanceWdays s).clk).trans ?_
    rw [legalAdjust_unslewed (k := (advanceWdays s).clk) h.slewTotal h.slewHeld]
    rfl
  rw [htick, ← hcount]
  exact tick_counts (hwrite.trans h.legal) _ _

theorem crystal_quiet_service (h : QuietTick s) :
    (crystal s).clk.service.count = s.clk.service.count + BitVec.ofInt 48 (1 + trimNet s.clk.service.trimAcc (serviceTrim s.clk)) ∧
      (crystal s).clk.service.trimAcc = s.clk.service.trimAcc + BitVec.ofNat 20 (serviceTrim s.clk).natAbs := by
  obtain ⟨hcount, hacc, hwrite⟩ := advanceWday_kept s.clk.service
  have htick : (crystal s).clk.service = (advanceWday s.clk.service).tick (trimStep s.clk.service.trimAcc (serviceTrim s.clk)).1
      (trimNet s.clk.service.trimAcc (serviceTrim s.clk)) := by
    rw [crystal_quiet h, ← hacc]
    rfl
  rw [htick, ← hcount]
  exact tick_counts (hwrite.trans h.service) _ _

/-- A set of the service clock whose ticks have passed lands, whatever the compensation does (R194). -/
theorem crystal_serviceSet {n : BitVec 33} {w : BitVec 3} (halarms : ∀ k : Fin 4, (s.clk.alarms[k]).due = false)
    (hb : s.clk.boundaryDue = false) (hw : s.clk.service.write = some (n, some w, 0)) :
    (crystal s).clk.service.count = BitVec.ofNat 48 (n.toNat * 32768) ∧ (crystal s).clk.service.wday = w ∧
      (crystal s).clk.service.write = none := by
  have hwrite : (settleTick s).clk.service.write = some (n, some w, 0) := by
    rw [settleTick_eq halarms hb, doTheta_service]
    exact (advanceWday_kept _).2.2.trans hw
  have htick := (tickClocks_service (slewStopped (settleTick s)) (settleTick s).clk).trans (tick_lands hwrite _ _)
  rw [crystal_service]
  exact ⟨congrArg RtClock.count htick, congrArg RtClock.wday htick, congrArg RtClock.write htick⟩

/-- Settles O44: with nothing due but weekdays, a clock's tick is that of its trim; a write that lands replaces it. -/
theorem crystalTicksCount : Obligations.CrystalTicksCount := by
  refine fun s hon => ⟨fun hrun halarms hb hlw hsw hst hsh htc => ?_, fun n w hrun halarms hb hw => ?_, fun hstop => ?_, exec_oscStopped hon⟩
  · have hq : QuietTick s := ⟨halarms, hb, hlw, hsw, hst, hsh, htc⟩
    obtain ⟨hlegal, hlacc⟩ := crystal_quiet_legal hq
    obtain ⟨hservice, hsacc⟩ := crystal_quiet_service hq
    refine ⟨_, exec_crystalTick hon hrun, hlacc, hsacc, fun hlt => ?_, fun hge => ⟨fun hpos => ?_, fun hneg => ?_⟩, fun hlt => ?_,
      by rw [crystal_quiet hq]; rfl, by rw [crystal_quiet hq]; rfl, by rw [crystal_quiet hq]; rfl⟩
    · rw [hlegal, trimNet_none hlt]
      rfl
    · rw [hlegal, trimNet_carry hge, if_neg (by omega)]
      rfl
    · rw [hlegal, trimNet_carry hge, if_pos hneg]
      exact BitVec.add_zero _
    · rw [hservice, trimNet_none hlt]
      rfl
  · obtain ⟨hcount, hwday, hwrite⟩ := crystal_serviceSet halarms hb hw
    refine ⟨_, exec_crystalTick hon hrun, ?_, hwday, hwrite⟩
    rw [hcount, BitVec.toNat_ofNat]
    omega
  · exact ⟨exec_crystalTick_stopped hstop, exec_oscResume hon hstop⟩

end Sys2Proof.Machine
end

section
/-! The readings of the time group (R193, R210, R223, R238, R315, R323). -/

namespace Sys2Proof.Machine

variable {t : Fin 64} {c : Cmd} {s : State}

/-- A seconds field beyond the calendar reads 0 in its record (R210). -/
theorem dateBytes_eq (n : Nat) : dateBytes n = if 6311433599 < n then leBytes 8 0 else dateBytes n := by
  split
  next h => exact if_pos h
  · rfl

theorem runClkDate_eq (i : CmdIn) (s : State) :
    runClkDate i s =
      .done (if 6311433599 < secondsOf (seenClocks s).legal ∨ 6311433599 < secondsOf (seenClocks s).service then .range else .ok)
        (datePayload s) [] s :=
  congrArg (fun st => Reply.done st (datePayload s) [] s) (if_congr
    (by rw [Bool.or_eq_true, decide_eq_true_iff, decide_eq_true_iff]; exact Iff.rfl) rfl rfl)

theorem runBillRead_some {r : BillRec} (hlt : payField c 0 1 < 4) (hr : (copyBoundary s).clk.records[payField c 0 1]? = some r) :
    runBillRead (cmdIn t c s) s = .done .ok (leBytes 4 r.seq.toNat) (billBytes r ++ imageBytes r.image) (copyBoundary s) := by
  simp only [runBillRead, p1_cmdIn, if_neg (show ¬ 3 < payField c 0 1 by omega), hr]

theorem runBillRead_none (hlt : payField c 0 1 < 4) (hr : (copyBoundary s).clk.records[payField c 0 1]? = none) :
    runBillRead (cmdIn t c s) s = fail .range (copyBoundary s) := by
  simp only [runBillRead, p1_cmdIn, if_neg (show ¬ 3 < payField c 0 1 by omega), hr]

theorem runBillRead_range (hge : 4 ≤ payField c 0 1) : runBillRead (cmdIn t c s) s = fail .range s := by
  simp only [runBillRead, p1_cmdIn]
  exact if_pos hge

/-- Settles O23: each reading is its body's answer; the records of CLK_DATE and BILL_READ are split at their ranges. -/
theorem timeReadingsAnswer : Obligations.TimeReadingsAnswer := by
  refine fun t c s => ⟨fun hl => ?_, fun h => ?_, fun h => ?_, copyBoundary_of_none, fun r h hlt hr => ?_, fun h hlt hr => ?_,
    fun h hge => ?_, fun h => ?_⟩
  · rw [hl]
    exact ⟨rfl, rfl, rfl, rfl, rfl, rfl⟩
  · refine (exec_done (body := runClkRead) rfl rfl h rfl).trans ?_
    simp only [clkRecord, seenClocks]
    cases (s.clk.latched.getD (clkImage s)).time <;> rfl
  · refine (exec_done (body := runClkDate) rfl rfl h (runClkDate_eq _ s)).trans ?_
    rw [datePayload, dateBytes_eq (secondsOf (seenClocks s).legal), dateBytes_eq (secondsOf (seenClocks s).service)]
    rfl
  · exact exec_done (body := runBillRead) rfl rfl h (runBillRead_some hlt hr)
  · exact exec_done (body := runBillRead) rfl rfl h (runBillRead_none hlt hr)
  · exact exec_done (body := runBillRead) rfl rfl h (runBillRead_range hge)
  · exact exec_done (body := runTimeStatus) rfl rfl h rfl

end Sys2Proof.Machine
end

section
/-! Commands that need the crossing to the clocks, and the sets of the two clocks (R194, R195, R209 to R211, R220, R323, R400, R401). -/

namespace Sys2Proof.Machine

variable {row : CmdRow} {body : CmdIn → State → Reply} {t : Fin 64} {c : Cmd} {s : State} {i : Instr}

/-! ### A command that needs the clocks -/

/-- A command that passes the common checks does what its body says, but for the crossing to the clocks. -/
theorem exec_clockBusy (hi : exec i s = .next (runCmd row body t s)) (h : Takes row t c s) :
    exec i s = .next (settleReply t (clockBusy row s (body (cmdIn t c s) s))) := by
  rw [hi, runCmd_takes body h]
  rfl

/-- While the crossing goes, a body that answers at once gives that answer. -/
theorem exec_done_going {st : Status} {p b : List Byte} {s' : State} (hi : exec i s = .next (runCmd row body t s)) (h : Takes row t c s)
    (hgo : s.stalled 8 = false) (hb : body (cmdIn t c s) s = .done st p b s') : exec i s = .next (answer t st p b s') := by
  rw [exec_clockBusy hi h, clockBusy_going hgo, hb]
  rfl

/-- While the crossing goes, and outside a freeze, a body that asks for a store opens it. -/
theorem exec_store_going {ch : Change} (hi : exec i s = .next (runCmd row body t s)) (h : Takes row t c s) (hgo : s.stalled 8 = false)
    (hf : s.hw.frozen = false) (hb : body (cmdIn t c s) s = .store ch s) : exec i s = .next (openStore ch (some t) s) := by
  rw [exec_clockBusy hi h, clockBusy_going hgo, hb]
  exact congrArg Host.Outcome.next (storeFor_asks hf ch)

/-- A refusal of the body's own is the answer, whether or not the crossing is stalled. -/
theorem exec_refused {st : Status} (hi : exec i s = .next (runCmd row body t s)) (h : Takes row t c s) (hst : st ≠ .ok)
    (hb : body (cmdIn t c s) s = fail st s) : exec i s = .next (answer t st [] [] s) := by
  have hbusy : clockBusy row s (fail st s) = fail st s := by
    simp only [clockBusy, fail, if_neg hst, ite_self]
  rw [exec_clockBusy hi h, hb, hbusy]
  rfl

/-- While the crossing is stalled, what the body would do is left undone (R401). -/
theorem exec_stalled {p : List Byte} {s' : State} (hi : exec i s = .next (runCmd row body t s)) (h : Takes row t c s)
    (hclocks : row.clocks = true) (hstall : s.stalled 8 = true) (hb : body (cmdIn t c s) s = okWith p s') :
    exec i s = .next (answer t .busy [] [] s) := by
  rw [exec_clockBusy hi h, hb]
  simp only [clockBusy, hclocks, hstall, okWith, Bool.and_self, if_true, settleReply_done]

/-! ### What a set names (R209, R211) -/

theorem setSeconds_count {n : Nat} (h : n < 2 ^ 33) (date : List Byte) : setSeconds 0 n date = .inl n := if_pos h

theorem setSeconds_count_range {n : Nat} (h : 2 ^ 33 ≤ n) (date : List Byte) : setSeconds 0 n date = .inr .range := if_neg (Nat.not_lt.2 h)

theorem setSeconds_date {date : List Byte} (n : Nat) (hfault : dateFault date = none) (hrsv : leAt date 7 1 = 0) :
    setSeconds 1 n date = .inl (dateSeconds date) := by
  simp [setSeconds, hfault, hrsv]

theorem setSeconds_badDate {date : List Byte} (n : Nat) (hfault : dateFault date = some .badDate) (hrsv : leAt date 7 1 = 0) :
    setSeconds 1 n date = .inr .badDate := by
  simp [setSeconds, hfault, hrsv]

/-- A field outside its bounds in a year of the calendar makes a date that does not exist. -/
theorem dateFault_badDate {date : List Byte} (hlo : 2000 ≤ leAt date 0 2) (hhi : leAt date 0 2 ≤ 2199)
    (h : leAt date 2 1 = 0 ∨ 12 < leAt date 2 1 ∨ leAt date 3 1 = 0 ∨ 23 < leAt date 4 1 ∨ 59 < leAt date 5 1 ∨ 59 < leAt date 6 1) :
    dateFault date = some .badDate := by
  unfold dateFault
  rw [if_neg (by omega), if_pos (by omega)]

/-- FLAGS and the weekday of a set are legal (R9, R209). -/
def wdayLegal (c : Cmd) : Prop := payField c 1 1 ≤ 1 ∧ payField c 2 1 ≤ 7 ∧ (payField c 1 1 = 1 → payField c 2 1 ≤ 6)

theorem setWdayBad_eq_false (h : wdayLegal c) : setWdayBad (payField c 1 1) (payField c 2 1) = false := by
  obtain ⟨hflags, hwday, hset⟩ := h
  simp only [setWdayBad, Bool.or_eq_false_iff, decide_eq_false_iff_not, Nat.not_lt, Bool.and_eq_false_imp]
  refine ⟨⟨hflags, hwday⟩, fun hbit => hset ?_⟩
  interval_cases hf : payField c 1 1
  · exact absurd hbit (by decide)
  · rfl

/-! ### SERVICE_SET (R194, R195) -/

/-- The date of a SERVICE_SET. -/
def serviceDate (c : Cmd) : List Byte := ((dPayload c.desc).drop 12).take 8

/-- A set of the service clock waits for its tick. -/
def serviceSetState (n : Nat) (c : Cmd) (s : State) : State :=
  s.draw.2.modClk (fun k => { k with service := clockWrite s.fresh n (setWday (payField c 1 1) (payField c 2 1)) k.service })

theorem runServiceSet_sets {n : Nat} (hw : wdayLegal c) (h : setSeconds (payField c 0 1) (payField c 4 8) (serviceDate c) = .inl n) :
    runServiceSet (cmdIn t c s) s = okWith [] (serviceSetState n c s) := by
  have h' : setSeconds (payField c 0 1) (payField c 4 8) (((cmdIn t c s).pay.drop 12).take 8) = .inl n := h
  simp only [runServiceSet, p1_cmdIn, p8_cmdIn, h', setWdayBad_eq_false hw]
  rfl

theorem runServiceSet_refuses {st : Status} (hw : wdayLegal c)
    (h : setSeconds (payField c 0 1) (payField c 4 8) (serviceDate c) = .inr st) : runServiceSet (cmdIn t c s) s = fail st s := by
  have h' : setSeconds (payField c 0 1) (payField c 4 8) (((cmdIn t c s).pay.drop 12).take 8) = .inr st := h
  simp only [runServiceSet, p1_cmdIn, p8_cmdIn, h', setWdayBad_eq_false hw]
  cases st <;> rfl

/-! ### LEGAL_SET (R195, R220) -/

/-- The date of a LEGAL_SET. -/
def legalDate (c : Cmd) : List Byte := ((dPayload c.desc).drop 20).take 8

/-- A set of the legal clock waits for its tick. -/
def legalSetState (n : Nat) (c : Cmd) (s : State) : State :=
  s.draw.2.modClk (fun k => { k with legal := clockWrite s.fresh n (setWday (payField c 1 1) (payField c 2 1)) k.legal })

section
variable {n : Nat} (hw : wdayLegal c) (h : setSeconds (payField c 0 1) (payField c 4 8) (legalDate c) = .inl n)
include hw h

theorem runLegalSet_sets (hopen : s.sec.state ≠ .sealed ∨ s.clk.legalInvalid = true) :
    runLegalSet (cmdIn t c s) s = okWith (leBytes 4 (copyBoundary s).clk.billSeq.toNat) (legalSetState n c (copyBoundary s)) := by
  have h' : setSeconds (payField c 0 1) (payField c 4 8) (((cmdIn t c s).pay.drop 20).take 8) = .inl n := h
  have hfree : ¬ (s.sec.state = .sealed ∧ (!s.clk.legalInvalid) = true) := by
    rw [Bool.not_eq_true', Bool.eq_false_iff]
    tauto
  simp only [runLegalSet, p1_cmdIn, p8_cmdIn, h', setWdayBad_eq_false hw, if_neg hfree]
  rfl

theorem runLegalSet_sealed (hs : s.sec.state = .sealed) (hvalid : s.clk.legalInvalid = false) :
    runLegalSet (cmdIn t c s) s = fail .sealed s := by
  have h' : setSeconds (payField c 0 1) (payField c 4 8) (((cmdIn t c s).pay.drop 20).take 8) = .inl n := h
  simp only [runLegalSet, p1_cmdIn, p8_cmdIn, h', setWdayBad_eq_false hw, hs, hvalid]
  rfl

end

/-! ### The calendar (R210, R211) -/

/-- The instants that the spec works out, and the ends of the calendar. -/
theorem calendar_instants :
    dateSeconds [0xD0, 0x07, 2, 29, 0, 0, 0, 0] = 5097600 ∧ dateSeconds [0x34, 0x08, 3, 1, 0, 0, 0, 0] = 3160857600 ∧
      dateSeconds [0x97, 0x08, 12, 31, 23, 59, 59, 0] = 6311433599 ∧ dateBytes 5097600 = [0xD0, 0x07, 2, 29, 0, 0, 0, 0] ∧
      dateBytes 3160857600 = [0x34, 0x08, 3, 1, 0, 0, 0, 0] ∧ dateBytes 6311433599 = [0x97, 0x08, 12, 31, 23, 59, 59, 0] ∧
      dateBytes 6311433600 = List.replicate 8 0 ∧ dateFault [0x34, 0x08, 2, 29, 0, 0, 0, 0] = some .badDate ∧
      dateFault [0xD0, 0x07, 4, 31, 0, 0, 0, 0] = some .badDate ∧ dateFault [0x98, 0x08, 1, 1, 0, 0, 0, 0] = some .range := by
  decide +kernel

/-- Settles O24: a set first finds its seconds, then its weekday, then the seal; only one that passes them meets the crossing. -/
theorem clockSetsReachTheClock : Obligations.ClockSetsReachTheClock := by
  refine ⟨fun t c s => ⟨fun h hf hd hset => ?_, fun h hf hd hset => ?_⟩, calendar_instants⟩
  · have hw : wdayLegal c := ⟨hf, hd, hset⟩
    refine ⟨fun h0 hn hgo => ?_, fun h0 hn => ?_, fun h1 hfault hrsv hgo => ?_, fun h1 hlo hhi hrsv hbad => ?_, fun h0 hn hstall => ?_⟩
    · exact exec_done_going (body := runServiceSet) rfl h hgo (runServiceSet_sets hw (by rw [h0]; exact setSeconds_count hn _))
    · exact exec_refused (body := runServiceSet) rfl h (by decide) (runServiceSet_refuses hw (by rw [h0]; exact setSeconds_count_range hn _))
    · exact exec_done_going (body := runServiceSet) rfl h hgo (runServiceSet_sets hw (by rw [h1]; exact setSeconds_date _ hfault hrsv))
    · exact exec_refused (body := runServiceSet) rfl h (by decide)
        (runServiceSet_refuses hw (by rw [h1]; exact setSeconds_badDate _ (dateFault_badDate hlo hhi hbad) hrsv))
    · exact exec_stalled (body := runServiceSet) rfl h rfl hstall (runServiceSet_sets hw (by rw [h0]; exact setSeconds_count hn _))
  · have hw : wdayLegal c := ⟨hf, hd, hset⟩
    refine ⟨copyBoundary_of_none, fun hopen hgo => ⟨fun h0 hn => ?_, fun h1 hfault hrsv => ?_⟩, fun hs hvalid h0 hn => ?_⟩
    · exact exec_done_going (body := runLegalSet) rfl h hgo (runLegalSet_sets hw (by rw [h0]; exact setSeconds_count hn _) hopen)
    · exact exec_done_going (body := runLegalSet) rfl h hgo (runLegalSet_sets hw (by rw [h1]; exact setSeconds_date _ hfault hrsv) hopen)
    · exact exec_refused (body := runLegalSet) rfl h (by decide)
        (runLegalSet_sealed hw (by rw [h0]; exact setSeconds_count hn _) hs hvalid)

end Sys2Proof.Machine
end

section
/-! The clock registers, weekdays, alarms and flags of CLK_STAT (R197, R204 to R209, R212, R214, R221, R323). -/

namespace Sys2Proof.Machine

variable {t : Fin 64} {c : Cmd} {s : State}

/-! ### Registers that Firn holds -/

theorem runClkCfgWrite_stores (h : clkCfgOk (payField c 0 4) = true) :
    runClkCfgWrite (cmdIn t c s) s = .store (.clkCfg (BitVec.ofNat 32 (payField c 0 4))) s := by
  simp only [runClkCfgWrite, p4_cmdIn, h, if_true]

theorem runLtrimWrite_stores (h : (BitVec.ofNat 16 (payField c 0 2)).toInt.natAbs ≤ 512) :
    runLtrimWrite (cmdIn t c s) s = .store (.ltrim (BitVec.ofNat 32 (payField c 0 4))) s := by
  simp only [runLtrimWrite, p2_cmdIn, p4_cmdIn]
  exact if_pos h

theorem runLtrimWrite_range (h : 512 < (BitVec.ofNat 16 (payField c 0 2)).toInt.natAbs) :
    runLtrimWrite (cmdIn t c s) s = fail .range s := by
  simp only [runLtrimWrite, p2_cmdIn]
  exact if_neg (Nat.not_le.2 h)

theorem runLegalParams_stores (hsel : payField c 0 1 < 8) (hrsv : slewCfgRsv (payField c 20 4) = false) (hbill : payField c 28 4 ≤ 7)
    (h1 : (payField c 0 1).testBit 1 = true → slewCfgOk (payField c 20 4) = true)
    (h2 : (payField c 0 1).testBit 2 = true → payField c 28 4 ≤ 5) :
    runLegalParams (cmdIn t c s) s = .store (.legalParams (BitVec.ofNat 3 (payField c 0 1)) (BitVec.ofNat 64 (payField c 4 8))
      (BitVec.ofNat 32 (payField c 20 4)) (BitVec.ofNat 32 (payField c 28 4))) s := by
  simp only [runLegalParams, p1_cmdIn, p4_cmdIn, p8_cmdIn]
  refine if_neg ?_
  rintro (h | h | h | ⟨hbit, h⟩ | ⟨hbit, h⟩)
  · omega
  · simp [hrsv] at h
  · omega
  · simp [h1 hbit] at h
  · simp [billCfgOk, h2 hbit] at h

/-! ### WDAY_WRITE (R209) -/

theorem runWdayWrite_service (h1 : payField c 0 1 = 1) (hd : payField c 1 1 ≤ 6) :
    runWdayWrite (cmdIn t c s) s =
      okWith [] ((doWeekday false s).modClk (fun k => { k with service := { k.service with wday := BitVec.ofNat 3 (payField c 1 1) } })) := by
  have hservice : decide (payField c 0 1 = 0) = false := decide_eq_false (by omega)
  simp only [runWdayWrite, p1_cmdIn, hservice, Bool.false_and, Bool.false_eq_true, if_false]
  exact if_neg (by omega)

section
variable (h0 : payField c 0 1 = 0)
include h0

theorem runWdayWrite_legal (hd : payField c 1 1 ≤ 6) (hs : s.sec.state = .factory ∨ s.sec.state = .opened) :
    runWdayWrite (cmdIn t c s) s =
      okWith [] ((doWeekday true s).modClk (fun k => { k with legal := { k.legal with wday := BitVec.ofNat 3 (payField c 1 1) } })) := by
  have hsealed : s.sec.state ≠ .sealed := by rcases hs with hs | hs <;> simp [hs]
  have hretired : s.sec.state ≠ .retired := by rcases hs with hs | hs <;> simp [hs]
  simp only [runWdayWrite, p1_cmdIn, h0, decide_true, Bool.true_and, decide_eq_true_eq, if_neg hsealed, if_neg hretired]
  exact if_neg (by omega)

theorem runWdayWrite_sealed (hs : s.sec.state = .sealed) : runWdayWrite (cmdIn t c s) s = fail .sealed s := by
  simp only [runWdayWrite, p1_cmdIn, h0, hs]
  rfl

theorem runWdayWrite_retired (hs : s.sec.state = .retired) : runWdayWrite (cmdIn t c s) s = fail .denied s := by
  simp only [runWdayWrite, p1_cmdIn, h0, hs]
  rfl

end

/-! ### ALARM_WRITE (R206, R208) -/

theorem runAlarmWrite_writes {n : Fin 4} (hn : payField c 0 1 = n.val) (hctl : payField c 8 4 < 16) :
    runAlarmWrite (cmdIn t c s) s =
      okWith [] ((doAlarm n s).modClk (fun k => { k with
        alarms := vmod k.alarms n (Alarm.write (BitVec.ofNat 48 (payField c 2 6)) (payField c 8 4) (alarmClock k n).count) })) := by
  have hlt := n.isLt
  simp only [runAlarmWrite, p1_cmdIn, p4_cmdIn, p6_cmdIn, hn, ofNat_val]
  exact if_neg (by omega)

/-- The record that a write leaves: only FIRED and SKIPPED hold something of the alarm as it was. -/
theorem alarmWrite_eq (c : Cmd) (ctl : Nat) (count : BitVec 48) (a : Alarm) :
    Alarm.write (BitVec.ofNat 48 (payField c 2 6)) ctl count a =
      { time := BitVec.ofNat 48 (payField c 2 6), arm := ctl.testBit 0, fired := a.fired && !ctl.testBit 1,
        skipped := a.skipped && !ctl.testBit 2, wake := ctl.testBit 3,
        late := ctl.testBit 0 && decide (payField c 2 6 ≤ count.toNat), due := false, dueSkip := false } := by
  have hlt : payField c 2 6 < 2 ^ 48 := leAt_lt _ 2 6
  rw [Alarm.write, BitVec.toNat_ofNat, Nat.mod_eq_of_lt hlt]
  rfl

theorem alarmClock_count (k : Clocks) (n : Fin 4) :
    (alarmClock k n).count = if n.val < 2 then k.legal.count else k.service.count := apply_ite RtClock.count _ _ _

/-! ### CLK_CLEAR (R204, R205) -/

theorem runClkClear_clears (h : payField c 0 4 / 1024 % 64 = 0) :
    runClkClear (cmdIn t c s) s = okWith [] (s.modClk (clearClk (payField c 0 4))) := by
  simp only [runClkClear, p4_cmdIn]
  exact if_neg (not_not.2 h)

/-- Settles O25: registers that Firn holds ask for their store; a weekday or an alarm is first brought up to date, then written. -/
theorem clockRegistersAreWritten : Obligations.ClockRegistersAreWritten := by
  refine fun t c s hgo => ⟨fun h hf hok => ?_, fun h hf => ⟨fun hle => ?_, fun hlt => ?_⟩, fun h hf hsel hrsv hbill h1 h2 => ?_,
    fun h hd => ⟨fun h1 => ⟨doWeekday_service_idle, ?_⟩, fun h0 => ⟨fun hs => ⟨doWeekday_legal_idle, ?_⟩, fun hs => ?_, fun hs => ?_⟩⟩,
    fun n h hn hctl => ⟨doAlarm_idle, ?_⟩, fun h hm => ?_⟩
  · exact exec_store_going (body := runClkCfgWrite) rfl h hgo hf (runClkCfgWrite_stores hok)
  · exact exec_store_going (body := runLtrimWrite) rfl h hgo hf (runLtrimWrite_stores hle)
  · exact exec_refused (body := runLtrimWrite) rfl h (by decide) (runLtrimWrite_range hlt)
  · exact exec_store_going (body := runLegalParams) rfl h hgo hf (runLegalParams_stores hsel hrsv hbill h1 h2)
  · exact exec_done_going (body := runWdayWrite) rfl h hgo (runWdayWrite_service h1 hd)
  · exact exec_done_going (body := runWdayWrite) rfl h hgo (runWdayWrite_legal h0 hd hs)
  · exact exec_refused (body := runWdayWrite) rfl h (by decide) (runWdayWrite_sealed h0 hs)
  · exact exec_refused (body := runWdayWrite) rfl h (by decide) (runWdayWrite_retired h0 hs)
  · refine exec_done_going (body := runAlarmWrite) rfl h hgo ((runAlarmWrite_writes hn hctl).trans ?_)
    rw [← alarmClock_count]
    exact congrArg (fun v => okWith [] ((doAlarm n s).modClk (fun k => { k with alarms := v })))
      (vmod_eq_set (alarmWrite_eq c _ _ _))
  · exact exec_done_going (body := runClkClear) rfl h hgo (runClkClear_clears hm)

end Sys2Proof.Machine
end

section
/-! What a tick has made due, one by one: alarms, weekdays, boundaries and records; the sample of LCLK_OFS and its slew; the temperatures of the
compensation (R199, R200, R207, R209, R213 to R218, R222, R223). -/

namespace Sys2Proof.Machine

variable {s : State}

/-! ### Alarms, weekdays, boundaries and records -/

theorem exec_alarmFire (n : Fin 4) (hon : s.power.state ≠ .off) (hgo : s.stalled 7 = false) : exec (.alarmFire n) s = .next (doAlarm n s) :=
  congrArg Host.Outcome.next (if_pos (by simp [aoOn, hon, hgo]))

theorem exec_weekdayAdvance (x : ClockSel) (hon : s.power.state ≠ .off) :
    exec (.weekdayAdvance x) s = .next (doWeekday (decide (x = .legal)) s) :=
  congrArg Host.Outcome.next (if_pos (decide_eq_true hon))

theorem exec_billingBoundary (hgo : s.stalled 7 = false) : exec .billingBoundary s = .next (doBoundary s) :=
  congrArg Host.Outcome.next (if_neg (by rw [hgo]; exact Bool.false_ne_true))

theorem exec_billRecord (hmp : s.mpRuns = true) : exec .billRecord s = .next (copyBoundary s) := congrArg Host.Outcome.next (if_pos hmp)

/-- The boundary image of the present count (R222). -/
def boundaryNow (s : State) : Boundary :=
  { stop := s.clk.legal.count, next := s.clk.legal.count, time := s.stampAt s.clk.lfNs, flags := s.clk.billFlags, spans := 1 }

/-- A boundary of an open interval is noted with its image and its snapshot; the next interval starts with flags and period of its own. -/
theorem doBoundary_closes (hdue : s.clk.boundaryDue = true) (hon : s.coreOn = true) (hl : s.hw.loaded = true)
    (hopen : s.clk.billIsOpen = true) (hb : s.clk.boundary = none) :
    (doBoundary s).clk = { s.clk with boundaryDue := false, boundary := some (boundaryNow s),
                                      billFlags := billTickFlags s.clk &&& 0x50, billCfg := s.clk.billCfgW } ∧
      (doBoundary s).energy = (snapMp s).energy := by
  have hflags : s.clk.billFlags ||| 0 = s.clk.billFlags := BitVec.or_zero
  rw [doBoundary_due hdue hon hl]
  refine ⟨(closeInterval_open (k := { s.clk with boundaryDue := false }) hopen hb).trans ?_, rfl⟩
  dsimp only
  rw [hflags]
  rfl

/-! ### LCLK_OFS (R213, R215, R218, R219) -/

theorem exec_legalOffsetSample (hon : s.coreOn = true) (huse : s.time.inUse = true) (hgo : s.stalled 7 = false)
    (hsec : s.gridNs % 1000000000 = 0) :
    exec .legalOffsetSample s = .next (s.modClk (sampleOffset (slewHold s) s.gridNs)) :=
  congrArg Host.Outcome.next (if_pos (by simp [hon, huse, hgo, hsec]))

/-- In the second of a step the sample is discarded, and its slew goes on (R219). -/
theorem sampleOffset_skipped {k : Clocks} (h : k.skipSample = true) (hold : Bool) (ns : Nat) :
    sampleOffset hold ns k =
      { k with skipSample := false, slewing := k.slewing && decide (slewBefore k.slewTotal k.slewTick < k.slewTotal) } := if_pos h

/-- The slew events of the ring second that starts with offset o (R215, R218). -/
def slewEvents (hold : Bool) (o : Int) (w : Word) : Nat :=
  if hold || decide (slewLimitOf w * 32768 < o.natAbs) || decide (o.natAbs ≤ 1) then 0 else min o.natAbs (slewRateOf w)

theorem sampleOffset_taken {k : Clocks} (h : k.skipSample = false) (hold : Bool) (ns : Nat) :
    sampleOffset hold ns k =
      { k with ofs := BitVec.ofInt 32 (legalOffset k ns),
               legalFar := decide (slewLimitOf k.slewCfg * 32768 < (legalOffset k ns).natAbs),
               slewTotal := slewEvents hold (legalOffset k ns) k.slewCfg, slewTick := 0, slewPos := decide (0 < legalOffset k ns),
               slewing := decide (slewEvents hold (legalOffset k ns) k.slewCfg ≠ 0),
               slewSeconds := satAdd k.slewSeconds (if slewEvents hold (legalOffset k ns) k.slewCfg = 0 then 0 else 1) } :=
  if_neg (by rw [h]; exact Bool.false_ne_true)

theorem slewEvents_near {o : Int} {w : Word} (hnear : o.natAbs ≤ slewLimitOf w * 32768) (hone : 1 < o.natAbs) :
    slewEvents false o w = min o.natAbs (slewRateOf w) :=
  if_neg (by simp only [Bool.false_or, Bool.or_eq_true, decide_eq_true_eq]; omega)

theorem slewEvents_none {hold : Bool} {o : Int} {w : Word} (h : hold = true ∨ o.natAbs ≤ 1) : slewEvents hold o w = 0 :=
  if_pos (by simp only [Bool.or_eq_true, decide_eq_true_eq]; tauto)

/-! ### The compensation's temperatures (R199, R200) -/

theorem exec_tcUpdate (theta : Int) (hon : s.power.state ≠ .off) (hdue : s.clk.tcDue = true) :
    exec (.tcUpdate theta) s = .next (s.modClk (updateTheta theta)) :=
  congrArg Host.Outcome.next (if_pos (by simp [aoOn, hon, hdue]))

theorem exec_tcUpdate_early (theta : Int) (hno : s.clk.tcDue = false) : exec (.tcUpdate theta) s = .next s :=
  congrArg Host.Outcome.next (if_neg (by simp [hno]))

theorem thermistorCode_some {tick : Nat} (h : (s.aux.inputs[Fin.ofNat 16 (s.clk.cfg.toNat / 4 % 8)]).tick = some tick) :
    thermistorCode s = some (s.aux.inputs[Fin.ofNat 16 (s.clk.cfg.toNat / 4 % 8)]).result.toNat :=
  congrArg (Option.map fun _ => (s.aux.inputs[Fin.ofNat 16 (s.clk.cfg.toNat / 4 % 8)]).result.toNat) h

theorem exec_tcTempWrite {code : Nat} (hmp : s.mpRuns = true) (hsrc : s.clk.cfg.getLsbD 1 = true) (htable : s.clk.tcTable ≠ [])
    (hcode : thermistorCode s = some code) :
    exec .tcTempWrite s = .next (s.modClk (fun k => { k with
      tcTemp := BitVec.ofInt 16 (thermistor (tablePoints k.tcTable) code), tcFallback := false, tcAge := 0 })) := by
  have hsrc' : clkTcSrc s.clk.cfg = true := hsrc
  have htable' : s.clk.tcTable.isEmpty = false := List.isEmpty_eq_false_iff.2 htable
  show execTcTempWrite s = _
  simp only [execTcTempWrite, hmp, hsrc', htable', hcode, Bool.not_false, Bool.and_self, if_true]

theorem exec_tcFallback (hon : s.power.state ≠ .off) (hsrc : s.clk.cfg.getLsbD 1 = true) (hage : 524288 ≤ s.clk.tcAge) :
    exec .tcFallback s = .next (s.modClk (fun k => { k with tcFallback := true })) := by
  have hsrc' : clkTcSrc s.clk.cfg = true := hsrc
  exact congrArg Host.Outcome.next (if_pos (by simp [aoOn, tcLimit, hon, hsrc', hage]))

/-- Settles O45: each event is its operation where it is due; the sample of LCLK_OFS is discarded or starts the slew of its second. -/
theorem clockEventsTakeEffect : Obligations.ClockEventsTakeEffect := by
  refine ⟨⟨fun n s hon hgo hdue => ?_, fun s hon => ⟨fun hdue => ?_, fun hdue => ?_⟩, fun s hon hl hgo hdue hopen hb => ?_,
      fun s b hmp hb _ => ?_⟩,
    fun s hon huse hgo hsec => ⟨fun hskip => ?_, fun hskip => ?_⟩, fun theta s hon hdue => exec_tcUpdate theta hon hdue,
    fun theta s hno => exec_tcUpdate_early theta hno, fun s tick hmp hsrc htable hx => ?_,
    fun s hon hsrc hage => exec_tcFallback hon hsrc hage⟩
  · have halarms := doAlarm_alarms hdue
    have hself : (doAlarm n s).clk.alarms[n] = (s.clk.alarms[n]).fire := by rw [halarms]; exact vmod_get_self _ _ _
    refine ⟨_, exec_alarmFire n hon hgo, ?_, ?_, ?_, doAlarm_irq hdue, doAlarm_wakes hdue, doAlarm_power hdue, fun m hm => ?_⟩
    · rw [hself]; rfl
    · rw [hself]; rfl
    · rw [hself]; rfl
    · rw [halarms]
      exact getElem_vmod_of_ne _ _ hm
  · rw [exec_weekdayAdvance .legal hon]
    show Host.Outcome.next (doWeekday true s) = _
    rw [doWeekday_legal, State.modClk, advanceWday_due hdue]
    rfl
  · rw [exec_weekdayAdvance .service hon]
    show Host.Outcome.next (doWeekday false s) = _
    rw [doWeekday_service, State.modClk, advanceWday_due hdue]
    rfl
  · obtain ⟨hclk, henergy⟩ := doBoundary_closes hdue hon hl hopen hb
    refine ⟨_, boundaryNow s, exec_billingBoundary hgo, ?_⟩
    rw [hclk, henergy]
    exact ⟨rfl, rfl, rfl, rfl, rfl, rfl, rfl, rfl, rfl, rfl⟩
  · refine ⟨_, boundaryRecord s b, exec_billRecord hmp, ?_⟩
    rw [copyBoundary_clk, formRecord_some hb]
    exact ⟨rfl, rfl, rfl, rfl, rfl, rfl, rfl, rfl, rfl⟩
  · refine ⟨_, exec_legalOffsetSample hon huse hgo hsec, ?_⟩
    rw [State.modClk_clk, sampleOffset_skipped hskip]
    exact ⟨rfl, rfl, rfl⟩
  · refine ⟨_, exec_legalOffsetSample hon huse hgo hsec, ?_⟩
    rw [State.modClk_clk, sampleOffset_taken hskip]
    refine ⟨rfl, rfl, fun hhold hnear hone hrate => ?_, fun hnone => ?_, rfl, rfl⟩
    · rw [hhold, slewEvents_near hnear hone]
      exact ⟨decide_eq_true (by omega), rfl, rfl⟩
    · rw [slewEvents_none hnone]
      exact ⟨rfl, rfl⟩
  · exact exec_tcTempWrite hmp hsrc htable (thermistorCode_some hx)

end Sys2Proof.Machine
end

section
/-! Writes of the timed outputs: TOUT_WRITE of all registers of an output (R243, R245, R248, R323). -/

namespace Sys2Proof.Machine

variable {t : Fin 64} {c : Cmd} {s : State} {n : Fin 4} {o : Tout} {ctl now : Nat}

/-! ### What a write carries -/

/-- The first m + k bytes as a number: the first m, then the next k. -/
theorem leNat_take_add (l : List Byte) (m k : Nat) : leNat (l.take (m + k)) = leNat (l.take m) + 256 ^ m * leNat ((l.drop m).take k) := by
  induction m generalizing l with
  | zero => simp [leNat]
  | succ m ih =>
    rw [Nat.add_right_comm, leNat_take_succ, leNat_take_succ, ih, List.drop_tail, pow_succ']
    ring

theorem leAt_add (bs : List Byte) (off m k : Nat) : leAt bs off (m + k) = leAt bs off m + 256 ^ m * leAt bs (off + m) k := by
  rw [leAt, leNat_take_add, List.drop_drop]
  rfl

/-- A write of every register of output n whose values R243 admits. -/
structure ToutWritable (n : Fin 4) (c : Cmd) : Prop where
  out : payField c 0 1 = n.val
  sel : payField c 1 1 = 15
  epoch : payField c 2 1 < 16
  ctl : payField c 4 4 < 2 ^ 16
  rsv : (payField c 4 4).testBit 7 = false
  ns : payField c 8 4 < 1000000000
  periodMin : 1000 ≤ payField c 20 4
  periodMax : payField c 20 4 ≤ 4000000000
  periodStep : payField c 20 4 % 5 = 0
  widthMin : 20 ≤ payField c 24 4
  widthMax : payField c 24 4 ≤ 4000000000
  apart : (payField c 4 4).testBit 1 = true → payField c 24 4 + 20 ≤ payField c 20 4

/-- The values of TIME, PERIOD and WIDTH in an output, with none that wait. -/
def Tout.load (v : BitVec 80 × Word × Word) (o : Tout) : Tout := { o with time := v.1, period := v.2.1, width := v.2.2, pend := none }

/-- TIME, PERIOD and WIDTH as a write carries them. -/
def toutGiven (c : Cmd) : BitVec 80 × Word × Word :=
  (BitVec.ofNat 80 (payField c 8 10), BitVec.ofNat 32 (payField c 20 4), BitVec.ofNat 32 (payField c 24 4))

theorem toutValues_all (hsel : payField c 1 1 = 15) (o : Tout) : toutValues (cmdIn t c s) o = toutGiven c := by
  simp only [toutValues, p1_cmdIn, p4_cmdIn, hsel]
  rfl

theorem toutGiven_time_toNat (c : Cmd) : (toutGiven c).1.toNat = payField c 8 4 + 2 ^ 32 * payField c 12 6 := by
  have hlt : payField c 8 10 < 2 ^ 80 := leAt_lt _ 8 10
  have hsplit : payField c 8 10 = payField c 8 4 + 256 ^ 4 * payField c 12 6 := leAt_add _ 8 4 6
  rw [toutGiven, BitVec.toNat_ofNat, Nat.mod_eq_of_lt hlt, hsplit]
  rfl

theorem toutNs_given (c : Cmd) : toutNs (toutGiven c).1 = payField c 12 6 * 1000000000 + payField c 8 4 := by
  have hlt : payField c 8 4 < 2 ^ 32 := leAt_lt _ 8 4
  rw [toutNs, toutGiven_time_toNat]
  omega

theorem toutOk_given (h : ToutWritable n c) : toutOk ((payField c 4 4).testBit 1) (toutGiven c) = true := by
  obtain ⟨-, -, -, -, -, hns, hpmin, hpmax, hpstep, hwmin, hwmax, hapart⟩ := h
  have htime : (toutGiven c).1.toNat % 2 ^ 32 = payField c 8 4 := by
    have hlt : payField c 8 4 < 2 ^ 32 := leAt_lt _ 8 4
    rw [toutGiven_time_toNat]
    omega
  have hperiod : (toutGiven c).2.1.toNat = payField c 20 4 := Nat.mod_eq_of_lt (leAt_lt _ 20 4)
  have hwidth : (toutGiven c).2.2.toNat = payField c 24 4 := Nat.mod_eq_of_lt (leAt_lt _ 24 4)
  rw [toutOk, htime, hperiod, hwidth]
  simp only [Bool.and_eq_true, decide_eq_true_eq, Bool.or_eq_true, Bool.not_eq_true']
  refine ⟨⟨⟨⟨⟨⟨hns, hpmin⟩, hpmax⟩, hpstep⟩, hwmin⟩, hwmax⟩, ?_⟩
  cases hper : (payField c 4 4).testBit 1
  · exact .inl rfl
  · exact .inr (hapart hper)

/-! ### The command -/

/-- An admitted write is turned away for its epoch alone (R245). -/
theorem runToutWrite_eq (h : ToutWritable n c) :
    runToutWrite (cmdIn t c s) s = if payField c 2 1 ≠ s.time.epoch.toNat then fail .stale s
      else okWith [] (s.modTout n (Tout.write (cmdIn t c s) s.nowNs)) := by
  have hok := toutOk_given h
  obtain ⟨hn, hsel, hepoch, hctl, hrsv, -⟩ := h
  have hlt := n.isLt
  have hin : ¬ (3 < n.val ∨ 15 < 15 ∨ bitB (payField c 4 4) 7 = true ∨ 0xFFFF < payField c 4 4 ∨ 15 < payField c 2 1) := by
    have hbit : ¬ bitB (payField c 4 4) 7 = true := by rw [bitB, hrsv]; decide
    rintro (h | h | h | h | h)
    exacts [by omega, by omega, hbit h, by omega, by omega]
  have hctlSel : bitB 15 0 = true := rfl
  have htimeSel : bitB 15 1 = true := rfl
  have hok' : ¬ (!toutOk (bitB (payField c 4 4) 1) (toutGiven c)) = true := by rw [bitB, hok]; decide
  simp only [runToutWrite, toutValues_all hsel, p1_cmdIn, p4_cmdIn, hn, hsel, ofNat_val, hctlSel, htimeSel, if_true, true_and]
  rw [if_neg hin, if_neg hok']

theorem exec_toutWrite_stale (h : Takes rowToutWrite t c s) (hw : ToutWritable n c) (he : payField c 2 1 ≠ s.time.epoch.toNat) :
    exec (.toutWrite t) s = .next (answer t .stale [] [] s) :=
  exec_done (body := runToutWrite) rfl rfl h ((runToutWrite_eq hw).trans (if_pos he))

theorem exec_toutWrite (h : Takes rowToutWrite t c s) (hw : ToutWritable n c) (he : payField c 2 1 = s.time.epoch.toNat) :
    exec (.toutWrite t) s = .next (answer t .ok [] []
      { s with time := { s.time with outs := s.time.outs.set n (Tout.write (cmdIn t c s) s.nowNs s.time.outs[n]) } }) :=
  exec_done (body := runToutWrite) rfl rfl h ((runToutWrite_eq hw).trans (if_neg (not_not.2 he)))

/-! ### The output -/

theorem rearm_off (h : o.en = false) (now : Nat) : o.rearm now = { o with nextEdge := none } := by
  simp only [Tout.rearm, h, Bool.not_false, if_true]

/-- A one-shot that is armed fires at its time, or at once where that has passed (R245). -/
theorem rearm_armed (hen : o.en = true) (hper : o.periodic = false) (harm : o.arm = true) (now : Nat) :
    o.rearm now = { o with nextEdge := some (max (toutNs o.time) now), armedLate := decide (toutNs o.time < now) } := by
  simp only [Tout.rearm, hen, hper, harm, Bool.not_true, Bool.false_eq_true, if_false, if_true]

/-- CTL of an output that stays enabled leaves its pulse and its other registers. -/
theorem control_on (hen : ctl.testBit 0 = true) :
    o.control ctl now = { o with en := true, periodic := ctl.testBit 1, pol := ctl.testBit 2, arm := ctl.testBit 3,
                                 fired := o.fired && !ctl.testBit 4, late := o.late && !ctl.testBit 5,
                                 rephased := o.rephased && !ctl.testBit 6,
                                 level := if o.pulse.isSome then !ctl.testBit 2 else ctl.testBit 2 } := by
  simp only [Tout.control, bitB, hen, Bool.not_true, Bool.false_eq_true, if_false]
  cases o.pulse <;> rfl

/-- An output that is not enabled ends its pulse and stays idle, whatever waited for the pulse's end. -/
theorem finish_off (hen : o.en = false) (e : Nat) :
    (o.finish e).en = false ∧ (o.finish e).pulse = none ∧ (o.finish e).level = o.pol := by
  unfold Tout.finish
  cases o.pend with
  | none => exact ⟨hen, rfl, rfl⟩
  | some v =>
    simp only [rearm_off, hen, true_and]
    rfl

theorem control_off (hen : ctl.testBit 0 = false) :
    (o.control ctl now).en = false ∧ (o.control ctl now).pulse = none ∧ (o.control ctl now).level = ctl.testBit 2 := by
  simp only [Tout.control, bitB, hen, Bool.not_false, if_true]
  exact finish_off rfl _

/-- With no pulse in progress once CTL is written, all registers take the values given (R243). -/
theorem write_idle (hsel : payField c 1 1 = 15) (hp : (o.control (payField c 4 4) now).pulse = none) :
    Tout.write (cmdIn t c s) now o = ((o.control (payField c 4 4) now).load (toutGiven c)).rearm now := by
  have hall : bitB 15 0 = true := rfl
  simp only [Tout.write, toutValues_all hsel, p1_cmdIn, p4_cmdIn, hsel, hall, if_true, hp, Tout.load]

/-- During a pulse TIME, PERIOD and WIDTH wait (R248). -/
theorem write_pulse {e : Nat} (hsel : payField c 1 1 = 15) (hp : (o.control (payField c 4 4) now).pulse = some e) :
    Tout.write (cmdIn t c s) now o = { (o.control (payField c 4 4) now).rearm now with pend := some (toutGiven c) } := by
  have hall : bitB 15 0 = true := rfl
  simp only [Tout.write, toutValues_all hsel, p1_cmdIn, p4_cmdIn, hsel, hall, if_true, hp]

/-- Settles O27: CTL decides whether the output runs and keeps its pulse; the other registers come in at once or wait for the pulse's end. -/
theorem timedOutputIsWritten : Obligations.TimedOutputIsWritten := by
  intro t c s n h hn hsel hepoch hctl hrsv hns hpmin hpmax hpstep hwmin hwmax hapart
  have hw : ToutWritable n c := ⟨hn, hsel, hepoch, hctl, hrsv, hns, hpmin, hpmax, hpstep, hwmin, hwmax, hapart⟩
  refine ⟨fun he hp hen hper harm => ?_, fun he hp hoff => ?_, exec_toutWrite_stale h hw, fun he hp hen => ?_⟩
  · refine ⟨_, _, exec_toutWrite h hw he, rfl, ?_⟩
    have hidle : ((s.time.outs[n]).control (payField c 4 4) s.nowNs).pulse = none := by rw [control_on hen]; exact hp
    have hrun := rearm_armed (o := ((s.time.outs[n]).control (payField c 4 4) s.nowNs).load (toutGiven c)) (by rw [control_on hen]; rfl)
      (by rw [control_on hen]; exact hper) (by rw [control_on hen]; exact harm) s.nowNs
    have htime : toutNs (((s.time.outs[n]).control (payField c 4 4) s.nowNs).load (toutGiven c)).time = _ := toutNs_given c
    rw [write_idle hsel hidle, hrun, htime, control_on hen]
    exact ⟨rfl, hper, harm, rfl, rfl, rfl, rfl, rfl, rfl, rfl⟩
  · obtain ⟨hen, hpulse, hlevel⟩ := control_off (o := s.time.outs[n]) (now := s.nowNs) hoff
    refine ⟨_, _, exec_toutWrite h hw he, rfl, ?_⟩
    rw [write_idle hsel hpulse, rearm_off (o := ((s.time.outs[n]).control (payField c 4 4) s.nowNs).load (toutGiven c)) hen]
    exact ⟨hen, rfl, hlevel, hpulse⟩
  · obtain ⟨e, he'⟩ := Option.isSome_iff_exists.1 hp
    have hpulse : ((s.time.outs[n]).control (payField c 4 4) s.nowNs).pulse = some e := by rw [control_on hen]; exact he'
    obtain ⟨-, hpulse', -, htime, hperiod, hwidth, -⟩ := rearm_keeps ((s.time.outs[n]).control (payField c 4 4) s.nowNs) s.nowNs
    refine ⟨_, _, exec_toutWrite h hw he, rfl, ?_⟩
    rw [write_pulse hsel hpulse]
    rw [control_on hen] at hpulse' htime hperiod hwidth ⊢
    exact ⟨hpulse', htime, hperiod, hwidth, rfl⟩

end Sys2Proof.Machine
end

section
/-! SYNC and STEP at the head and at the other units (R224, R227 to R234, R237 to R241, R255, R261). -/

namespace Sys2Proof.Machine

variable {s : State} {f : RxFrame} {r : RingSel} {dt : Nat} {x : SyncIn}

/-! ### Frames that come and go (R255, R261) -/

/-- A unit other than the head keeps no time of hearing. -/
theorem hear_of_unit (hu : s.ring.isHead = false) (f : RxFrame) : hear f s = s := by
  unfold hear
  cases rosterIdx f.src with
  | none => rfl
  | some i => exact if_neg (by rw [hu]; decide)

/-- A unit other than the head uses a frame that it hears once it has noted it. -/
theorem withFrame_hears {ty : BitVec 4} (h : Hears ty f s) (hu : s.ring.isHead = false) (use : State → State) :
    withFrame ty f s use = use (noteFrame f s) := by
  obtain ⟨hon, hgo, hgood, hty, hme, hnew⟩ := h
  simp [withFrame, hon, hgo, hgood, hty, hme, hnew, hear_of_unit hu]

/-- A frame to every unit goes out on both rings (R261). -/
theorem routeTo_broadcast (s : State) : routeTo s broadcast = ([.primary, .secondary], false) := if_pos (by simp)

theorem sendFrame_broadcast (ty : BitVec 4) (p : List Byte) (tag : Option (Fin 64)) (s : State) :
    Queues s (sendFrame ty broadcast p tag s)
      (([.primary, .secondary] : List RingSel).map (fun g => mkFrame g ty broadcast s.ring.addr s.ring.txSeq[ty.toFin] p tag)) := by
  simp only [Queues, sendFrame, routeTo_broadcast]
  rfl

/-! ### The head's SYNC (R227, R228, R237) -/

/-- A field that ends before the one read. -/
theorem leAt_leBytes_skip {n v off m : Nat} {b : List Byte} (h : n ≤ off) : leAt (leBytes n v ++ b) off m = leAt b (off - n) m := by
  rw [leAt_append_right (by rwa [leBytes_length]), leBytes_length]

theorem syncPayload_stamp (s : State) : (syncPayload s).take 12 = (s.stampAt (s.nowMs * 1000000)).bytes := by
  rw [syncPayload, List.append_assoc, List.append_assoc]
  exact List.take_left' (stamp_bytes_length _)

/-- Past its stamp the payload carries RATE and the marks. -/
theorem leAt_syncPayload (s : State) (off n : Nat) :
    leAt (syncPayload s) (12 + off) n =
      leAt (leBytes 4 s.time.rate.toNat ++ (leBytes 1 (bitN s.time.valid + 2 * bitN s.time.ppsLock) ++ leBytes 3 0)) off n := by
  rw [syncPayload, List.append_assoc, List.append_assoc, leAt_append_right (by rw [stamp_bytes_length]; omega), stamp_bytes_length,
    Nat.add_sub_cancel_left]

theorem syncPayload_rate (s : State) : leAt (syncPayload s) 12 4 = s.time.rate.toNat :=
  (leAt_syncPayload s 0 4).trans ((leAt_leBytes_append 4 _ _).trans (Nat.mod_eq_of_lt s.time.rate.isLt))

theorem syncPayload_marks (s : State) : leAt (syncPayload s) 16 1 = bitN s.time.valid + 2 * bitN s.time.ppsLock := by
  refine (leAt_syncPayload s 4 1).trans ?_
  rw [leAt_leBytes_skip (by decide), leAt_leBytes_append]
  cases s.time.valid <;> cases s.time.ppsLock <;> rfl

/-- The head as its SYNC leaves it: in time with itself, its asymmetries in effect. -/
def headSynced (s : State) : State := (takeAsym s).modTime (fun t => { t with valid := headValid t, syncOk := true })

theorem exec_syncSend (hon : s.coreOn = true) (hh : s.ring.isHead = true) (hst : s.time.startStored = true) (hstep : s.time.step = none) :
    exec .syncSend s = .next (sendFrame tySync broadcast (syncPayload (headSynced s)) none (headSynced s)) := by
  have hnone : (sendFrame tySync broadcast (syncPayload (headSynced s)) none (headSynced s)).time.step = none := hstep
  show execSyncSend s = _
  simp only [execSyncSend, hon, hh, hst, Bool.and_self, if_true]
  show Host.Outcome.next (sendStep (sendFrame tySync broadcast (syncPayload (headSynced s)) none (headSynced s))) = _
  rw [sendStep, hnone]

theorem exec_epochStoreRetry (hon : s.coreOn = true) (hh : s.ring.isHead = true) (hworn : s.time.startWorn = true)
    (hf : s.hw.frozen = false) :
    exec .epochStoreRetry s = .next (openStore .epochStart none { s with time := { s.time with startWorn := false } }) :=
  congrArg Host.Outcome.next (if_pos (by rw [hon, hh, hworn, hf]; rfl))

/-! ### SYNC at the other units (R230 to R234, R241) -/

theorem exec_syncReceived {t : State} (h : Hears tySync f s) (hu : s.ring.isHead = false) (hrx : rxStalled s (entryPort r) = false)
    (ht : takeSync (syncIn (takeAsym s) r f dt) (takeAsym (noteFrame f s)) = t) : exec (.syncReceived r f dt) s = .next t := by
  obtain ⟨hon, -, hgood, -⟩ := id h
  show execSyncReceived r f dt s = _
  simp only [execSyncReceived, hon, hu, hrx, hgood, Bool.not_true, Bool.or_false, Bool.false_eq_true, if_false, withFrame_hears h hu, ht]

/-- A frame that fails its checks counts for the ring and for SYNC (R238, R255). -/
theorem exec_syncReceived_bad (hon : s.coreOn = true) (hu : s.ring.isHead = false) (hrx : rxStalled s (entryPort r) = false)
    (hbad : frameGood f = false) : exec (.syncReceived r f dt) s = .next ((countFrameErr s).modTime countSyncErr) := by
  show execSyncReceived r f dt s = _
  simp only [execSyncReceived, hon, hu, hrx, hbad, Bool.not_true, Bool.or_false, Bool.false_eq_true, if_false, Bool.not_false, if_true]

theorem takeSync_first (hseen : s.time.seen = false) : takeSync x s = s.modTime (firstSync x) := if_pos (by rw [hseen]; rfl)

/-- After a step has taken effect, a SYNC of the old timescale from before it is dropped (R241). -/
theorem takeSync_stale {a : Nat} (hseen : s.time.seen = true) (hlast : s.time.lastAt = some a) (he : x.origin.epoch + 1 = s.time.epoch)
    (hlt : x.origin.total < a) : takeSync x s = s.modTime (fun t => { countSyncErr t with lastAt := none }) := by
  have hstale : staleSync x s.time = true := by simp only [staleSync, hlast, he, hlt, decide_true, Bool.and_self]
  simp only [takeSync, hseen, hstale, Bool.not_true, Bool.false_eq_true, if_false, if_true]

section
variable (hseen : s.time.seen = true) (hlast : s.time.lastAt = none)
include hseen hlast

/-- A SYNC of a unit that has seen one, with no step just behind it, is judged by its epoch and its offset. -/
theorem takeSync_seen :
    takeSync x s = if x.origin.epoch ≠ s.time.epoch then adoptSync x s
      else if x.off.natAbs ≤ 1000 * nsUnits then s.modTime (correctSync x)
      else if 2 ≤ s.time.farRun then adoptSync x s
      else s.modTime (fun t => { countSyncErr (noteSync x t) with farRun := t.farRun + 1, lastAt := none }) := by
  have hfresh : staleSync x s.time = false := by simp only [staleSync, hlast]
  simp only [takeSync, hseen, hfresh, Bool.not_true, Bool.false_eq_true, if_false]

theorem takeSync_near (he : x.origin.epoch = s.time.epoch) (hoff : x.off.natAbs ≤ 1000 * 65536) :
    takeSync x s = s.modTime (correctSync x) := by
  rw [takeSync_seen hseen hlast, if_neg (not_not.2 he)]
  exact if_pos hoff

theorem takeSync_far (he : x.origin.epoch = s.time.epoch) (hoff : 1000 * 65536 < x.off.natAbs) (hrun : s.time.farRun < 2) :
    takeSync x s = s.modTime (fun t => { countSyncErr (noteSync x t) with farRun := t.farRun + 1, lastAt := none }) := by
  rw [takeSync_seen hseen hlast, if_neg (not_not.2 he)]
  exact (if_neg (Nat.not_le.2 hoff)).trans (if_neg (Nat.not_le.2 hrun))

theorem takeSync_far_adopts (he : x.origin.epoch = s.time.epoch) (hoff : 1000 * 65536 < x.off.natAbs) (hrun : 2 ≤ s.time.farRun) :
    takeSync x s = adoptSync x s := by
  rw [takeSync_seen hseen hlast, if_neg (not_not.2 he)]
  exact (if_neg (Nat.not_le.2 hoff)).trans (if_pos hrun)

theorem takeSync_epoch_adopts (he : x.origin.epoch ≠ s.time.epoch) : takeSync x s = adoptSync x s := by
  rw [takeSync_seen hseen hlast, if_pos he]

end

/-! ### What a SYNC writes of ring time -/

/-- An adopted reference sets ring time and epoch, and the sampling pulls to it with LOST (R234). -/
theorem adoptSync_time (x : SyncIn) (s : State) :
    (adoptSync x s).time.rt = shiftRt s.time.rt (-x.off) ∧ (adoptSync x s).time.adopted = true ∧ (adoptSync x s).time.lost = true ∧
      (adoptSync x s).time.mode = .pull ∧ (adoptSync x s).time.epoch = x.origin.epoch ∧ (adoptSync x s).time.valid = x.valid ∧
      (adoptSync x s).time.step = if x.origin.epoch = s.time.epoch then s.time.step else none :=
  ⟨rfl, rfl, rfl, rfl, rfl, rfl, rfl⟩

theorem exec_syncTimeout (hon : s.coreOn = true) (hu : s.ring.isHead = false) (hseen : s.time.seen = true)
    (hmode : s.time.mode ≠ .holdover) :
    exec .syncTimeout s = .next ((s.modTime (fun t => { t with
      mode := .holdover, lost := t.lost || decide (t.mode = .lock), stepPull := false, lockRun := 0, pulling := false,
      syncOk := false })).modRing (fun r => { r with headUid := none })) :=
  congrArg Host.Outcome.next (if_pos (by rw [hon, hu, hseen, decide_eq_true hmode]; rfl))

theorem exec_stepReceived (h : Hears tyStep f s) (hu : s.ring.isHead = false) (hseen : s.time.seen = true)
    (he : (stampOf (f.payload.take 12)).epoch = s.time.epoch) (hat : s.nowNs ≤ (stampOf (f.payload.take 12)).total) :
    exec (.stepReceived f) s = .next ((noteFrame f s).modTime (fun t => { t with step := some (stepOf f.payload) })) := by
  show Host.Outcome.next (withFrame tyStep f s _) = _
  rw [withFrame_hears h hu]
  refine congrArg Host.Outcome.next (if_pos ?_)
  rw [Bool.and_eq_true, Bool.and_eq_true, Bool.and_eq_true, decide_eq_true_eq, decide_eq_true_eq]
  exact ⟨⟨⟨congrArg Bool.not hu, hseen⟩, he⟩, hat⟩

/-- Settles O46: the head's SYNC is queued on both rings, and a unit judges each SYNC by whether it has seen one, its epoch and its offset. -/
theorem syncEventsTakeEffect : Obligations.SyncEventsTakeEffect := by
  refine ⟨fun s hon hh hst hstep => ?_, fun s => exec_epochStoreRetry, fun r f dt s h hu hrx => ?_,
    fun r f dt s hon hu hrx hbad => exec_syncReceived_bad hon hu hrx hbad, fun s hon hu hseen hmode => ?_,
    fun f s h hu hseen he hat => ?_⟩
  · exact ⟨_, _, exec_syncSend hon hh hst hstep, rfl, rfl, rfl, sendFrame_broadcast tySync _ none (headSynced s),
      syncPayload_stamp (headSynced s), syncPayload_rate (headSynced s), syncPayload_marks (headSynced s)⟩
  · obtain ⟨hrt, hadopted, hlost, hmode, hepoch, hvalid, hstep⟩ :=
      adoptSync_time (syncIn (takeAsym s) r f dt) (takeAsym (noteFrame f s))
    refine ⟨fun hseen => ?_, fun hseen hlast he hoff => ?_, fun hseen hlast he hoff => ⟨fun hrun => ?_, fun hrun => ?_⟩,
      fun hseen hlast he => ?_, fun a hseen hlast he hlt => ?_⟩
    · exact ⟨_, exec_syncReceived h hu hrx (takeSync_first hseen), rfl, rfl, rfl, rfl, rfl, rfl, rfl⟩
    · exact ⟨_, exec_syncReceived h hu hrx (takeSync_near hseen hlast he hoff), rfl, rfl, rfl, rfl, rfl, rfl⟩
    · exact ⟨_, exec_syncReceived h hu hrx (takeSync_far hseen hlast he hoff hrun), rfl, rfl, rfl, rfl, rfl⟩
    · exact ⟨_, exec_syncReceived h hu hrx (takeSync_far_adopts hseen hlast he hoff hrun), hrt, hadopted, hlost, hmode, hepoch, hvalid⟩
    · exact ⟨_, exec_syncReceived h hu hrx (takeSync_epoch_adopts hseen hlast he), hrt, hadopted, hlost, hmode,
        hstep.trans (if_neg he), hepoch, hvalid⟩
    · exact ⟨_, exec_syncReceived h hu hrx (takeSync_stale hseen hlast he hlt), rfl⟩
  · exact ⟨_, exec_syncTimeout hon hu hseen hmode, rfl, rfl, rfl, rfl⟩
  · exact ⟨_, _, exec_stepReceived h hu hseen he hat, rfl, rfl, rfl, rfl, rfl⟩

end Sys2Proof.Machine
end

section
/-! Links of the ring: ALIGN and the link delay, links that come up and go down (R231, R232, R252, R256, R267, R268). -/

namespace Sys2Proof.Machine

variable {s : State} {p : RingPort} {f : RxFrame} {dt : Nat}

/-! ### Ports and frames on one ring -/

theorem portOf_modPortOf (p : RingPort) (g : LinkPort → LinkPort) (r : Ring) : portOf p (modPortOf p g r) = g (portOf p r) := by
  cases p <;> rfl

theorem modPortOf_isHead (p : RingPort) (g : LinkPort → LinkPort) (r : Ring) : (modPortOf p g r).isHead = r.isHead := by
  cases p <;> rfl

theorem modPortOf_txq (p : RingPort) (g : LinkPort → LinkPort) (r : Ring) : (modPortOf p g r).txq = r.txq := by
  cases p <;> rfl

theorem sendOn_queues (g : RingSel) (ty : BitVec 4) (dst : BitVec 6) (bs : List Byte) (s : State) :
    Queues s (sendOn g ty dst bs s) [mkFrame g ty dst s.ring.addr s.ring.txSeq[ty.toFin] bs none] := rfl

theorem portOf_sendOn (g : RingSel) (ty : BitVec 4) (dst : BitVec 6) (bs : List Byte) (s : State) (p : RingPort) :
    portOf p (sendOn g ty dst bs s).ring = portOf p s.ring := by
  cases p <;> rfl

/-! ### Fields of an ALIGN payload (R256) -/

section
variable (s : State) (kind : Nat) (xseq : BitVec 16) (t2 : List Byte)

theorem alignPayload_uid : leAt (alignPayload s kind xseq t2) 0 8 = Config.uid.toNat := by
  simp only [alignPayload, List.append_assoc]
  exact (leAt_leBytes_append 8 _ _).trans (Nat.mod_eq_of_lt Config.uid.isLt)

theorem alignPayload_kind (hk : kind < 256) : alignKind (alignPayload s kind xseq t2) = kind := by
  simp only [alignKind, alignPayload, List.append_assoc]
  rw [leAt_leBytes_skip (by decide), leAt_leBytes_skip (by decide), leAt_leBytes_append]
  exact Nat.mod_eq_of_lt hk

theorem alignPayload_xseq : leAt (alignPayload s kind xseq t2) 10 2 = xseq.toNat := by
  simp only [alignPayload, List.append_assoc]
  rw [leAt_leBytes_skip (by decide), leAt_leBytes_skip (by decide), leAt_leBytes_skip (by decide), leAt_leBytes_append]
  exact Nat.mod_eq_of_lt xseq.isLt

theorem alignPayload_t2 (h : t2.length = 12) : sliceAt (alignPayload s kind xseq t2) 12 12 = t2 := by
  have hsplit : alignPayload s kind xseq t2 =
      (leBytes 8 Config.uid.toNat ++ leBytes 1 s.ring.addr.toNat ++ leBytes 1 kind ++ leBytes 2 xseq.toNat) ++ (t2 ++ leBytes 12 0) := by
    rw [alignPayload, padTo_self h, List.append_assoc]
  rw [sliceAt, hsplit, List.drop_left' (by simp), List.take_left' h]
  simp [h]

end

/-! ### ALIGN_SEND (R231) -/

/-- A port with a new request: its number moves on, and a request that has not left its queue is gone. -/
def alignAsked (p : RingPort) (s : State) : State :=
  s.modRing (fun r => modPortOf p (fun q =>
    { q with xseq := q.xseq + 1, good := if q.sentT1.isSome then 0 else q.good, sentT1 := none })
    { r with txq := r.txq.filter (fun f => !isAlignReq (exitRing p) f) })

theorem exec_alignSend (hon : s.coreOn = true) (hok : s.time.syncOk = true) (hup : (portOf p s.ring).up = true) :
    exec (.alignSend p) s = .next (sendOn (exitRing p) tyAlign broadcast
      (alignPayload (alignAsked p s) 1 (portOf p (alignAsked p s).ring).xseq []) (alignAsked p s)) :=
  congrArg Host.Outcome.next (if_pos (by rw [hon, hok, hup]; rfl))

theorem alignAsked_xseq (p : RingPort) (s : State) : (portOf p (alignAsked p s).ring).xseq = (portOf p s.ring).xseq + 1 := by
  cases p <;> rfl

theorem alignAsked_txq (p : RingPort) (s : State) :
    (alignAsked p s).ring.txq = s.ring.txq.filter (fun f => !isAlignReq (exitRing p) f) :=
  modPortOf_txq p _ _

/-! ### ALIGN_RECEIVED (R231) -/

/-- A port that has learnt its neighbour's UID. -/
def alignHeard (p : RingPort) (f : RxFrame) (s : State) : State :=
  s.modRing (modPortOf p (fun q => { q with uid := BitVec.ofNat 64 (leAt f.payload 0 8) }))

theorem alignHeard_isHead (p : RingPort) (f : RxFrame) (s : State) : (alignHeard p f s).ring.isHead = s.ring.isHead :=
  modPortOf_isHead p _ _

theorem alignHeard_txq (p : RingPort) (f : RxFrame) (s : State) : (alignHeard p f s).ring.txq = s.ring.txq :=
  modPortOf_txq p _ _

theorem alignHeard_stampAt (p : RingPort) (f : RxFrame) (s : State) (ns : Nat) : (alignHeard p f s).stampAt ns = s.stampAt ns := by
  cases p <;> rfl

theorem alignHeard_port (p : RingPort) (f : RxFrame) (s : State) :
    portOf p (alignHeard p f s).ring = { portOf p s.ring with uid := BitVec.ofNat 64 (leAt f.payload 0 8) } :=
  portOf_modPortOf p _ _

/-- Only the head forms topologies. -/
theorem headTopology_of_unit (hu : s.ring.isHead = false) : headTopology s = s := if_pos (by rw [hu]; rfl)

section
variable (hon : s.coreOn = true) (hrx : rxStalled s p = false) (hgood : frameGood f = true) (hty : f.typ = tyAlign)
include hon hrx hgood hty

theorem exec_alignReceived_request (hk : alignKind f.payload = 1) :
    exec (.alignReceived p f dt) s = .next (sendOn (exitRing p) tyAlign broadcast
      (alignPayload (alignHeard p f s) 2 (BitVec.ofNat 16 (leAt f.payload 10 2)) (s.stampAt ((s.time.rt + dt) / 65536)).bytes)
      (alignHeard p f s)) := by
  show execAlignReceived p f dt s = _
  rw [← alignHeard_stampAt p f]
  simp only [execAlignReceived, hon, hrx, hgood, hty, hk, Bool.not_true, Bool.or_false, Bool.false_eq_true, if_false, ne_eq,
    not_true_eq_false, if_true]
  rfl

theorem exec_alignReceived_answer (hk : alignKind f.payload = 2) (hu : s.ring.isHead = false) :
    exec (.alignReceived p f dt) s =
      .next ((alignHeard p f s).modRing (modPortOf p (takeAlignAnswer (s.time.rt + dt) f.payload))) := by
  have hhead : ((alignHeard p f s).modRing (modPortOf p (takeAlignAnswer (s.time.rt + dt) f.payload))).ring.isHead = false :=
    (modPortOf_isHead p _ _).trans ((alignHeard_isHead p f s).trans hu)
  have hne : alignKind f.payload ≠ 1 := by omega
  show execAlignReceived p f dt s = _
  simp only [execAlignReceived, hon, hrx, hgood, hty, Bool.not_true, Bool.or_false, Bool.false_eq_true, if_false, ne_eq,
    not_true_eq_false, if_neg hne, if_pos hk]
  exact congrArg Host.Outcome.next (headTopology_of_unit hhead)

end

/-- The delay that an answer gives: half of what the exchange took beyond the neighbour's own part (R231). -/
def exchangeDelay (t1 t4 : Nat) (bs : List Byte) : Int :=
  (((t4 : Int) - t1) - ((((stampOf (sliceAt bs 24 12)).total * 65536 : Nat) : Int) - ((stampOf (sliceAt bs 12 12)).total * 65536 : Nat))) / 2

theorem takeAlignAnswer_joins {t1 ms t4 : Nat} {bs : List Byte} {q : LinkPort} (ht1 : q.sentT1 = some (t1, ms))
    (hx : leAt bs 10 2 = q.xseq.toNat) (hms : t4 / 65536000000 ≤ ms + 5) :
    takeAlignAnswer t4 bs q = { q with history := (exchangeDelay t1 t4 bs :: q.history).take 8,
                                       delay := meanDelay ((exchangeDelay t1 t4 bs :: q.history).take 8),
                                       good := q.good + 1, sentT1 := none } := by
  have hin : ¬ (leAt bs 10 2 ≠ q.xseq.toNat ∨ ms + 5 < t4 / (nsUnits * 1000000)) := not_or.2 ⟨not_not.2 hx, Nat.not_lt.2 hms⟩
  simp only [takeAlignAnswer, ht1, if_neg hin]
  rfl

theorem takeAlignAnswer_late {t1 ms t4 : Nat} (bs : List Byte) {q : LinkPort} (ht1 : q.sentT1 = some (t1, ms))
    (hms : ms + 5 < t4 / 65536000000) : takeAlignAnswer t4 bs q = q := by
  have hout : leAt bs 10 2 ≠ q.xseq.toNat ∨ ms + 5 < t4 / (nsUnits * 1000000) := .inr hms
  simp only [takeAlignAnswer, ht1, if_pos hout]

/-! ### Links (R252) -/

theorem exec_linkUp (hon : s.coreOn = true) (hup : (portOf p s.ring).up = false) :
    exec (.linkUp p) s = .next { s with
      ring := modPortOf p (fun q => { q with up := true, good := 0, history := [], sentT1 := none }) s.ring } :=
  congrArg Host.Outcome.next (if_pos (by rw [hon, hup]; rfl))

theorem exec_linkDown (n : Nat) (hon : s.coreOn = true) (hup : (portOf p s.ring).up = true) (hu : s.ring.isHead = false) :
    exec (.linkDown p n) s = .next { s with
      ring := modPortOf p (fun q => { q with up := false, good := 0, delay := 0, history := [], sentT1 := none, uid := 0, tell := true })
        { s.ring with codeErr := satAdd s.ring.codeErr n } } := by
  show Host.Outcome.next (if s.coreOn then linkLost p n s else s) = _
  rw [if_pos hon]
  refine congrArg Host.Outcome.next ((if_pos hup).trans (if_neg ?_))
  rw [State.modRing_ring, modPortOf_isHead, hu]
  decide

end Sys2Proof.Machine
end

section
/-! Frames that a unit forwards, and its own windows (R229, R232, R253 to R260). -/

namespace Sys2Proof.Machine

variable {s : State} {p : RingPort} {r g : RingSel} {f : RxFrame} {resid t0 dt : Nat}

/-! ### The correction (R229, R254) -/

theorem violation_of_good (h : frameGood f = true) : f.violation = false := by
  simp only [frameGood, Bool.and_eq_true, Bool.not_eq_true'] at h
  tauto

theorem forwardCorr_good (h : frameGood f = true) (d : Int) : forwardCorr f d = f.corr + BitVec.ofInt 64 d :=
  if_neg (by rw [violation_of_good h]; decide)

/-- The low v bits of one number below those of another at 2^v and above stay within the width of both. -/
theorem low_add_high_lt {a c v : Nat} (hc : c < 2 ^ 64) (ha : a < 2 ^ 64) : a % 2 ^ v + c / 2 ^ v * 2 ^ v < 2 ^ 64 := by
  rcases Nat.lt_or_ge v 64 with hv | hv
  · have hpow : 2 ^ 64 = 2 ^ (64 - v) * 2 ^ v := by rw [← pow_add, Nat.sub_add_cancel hv.le]
    have hhigh : c / 2 ^ v + 1 ≤ 2 ^ (64 - v) := Nat.div_lt_of_lt_mul (by rwa [Nat.mul_comm, ← hpow])
    calc a % 2 ^ v + c / 2 ^ v * 2 ^ v < 2 ^ v + c / 2 ^ v * 2 ^ v := Nat.add_lt_add_right (Nat.mod_lt _ (Nat.two_pow_pos v)) _
      _ = (c / 2 ^ v + 1) * 2 ^ v := by ring
      _ ≤ 2 ^ (64 - v) * 2 ^ v := Nat.mul_le_mul_right _ hhigh
      _ = 2 ^ 64 := hpow.symm
  · have hc' : c / 2 ^ v = 0 := Nat.div_eq_of_lt (hc.trans_le (Nat.pow_le_pow_right (by decide) hv))
    rw [hc', Nat.zero_mul, Nat.add_zero]
    exact (Nat.mod_le a _).trans_lt ha

/-- The pairs from a violation on pass unchanged (R254). -/
theorem forwardCorr_violation (h : f.violation = true) (d : Int) :
    (forwardCorr f d).toNat / 2 ^ f.violAt = f.corr.toNat / 2 ^ f.violAt := by
  simp only [forwardCorr, h, if_true]
  rw [BitVec.toNat_ofNat, Nat.mod_eq_of_lt (low_add_high_lt f.corr.isLt (BitVec.isLt _)),
    Nat.add_mul_div_right _ _ (Nat.two_pow_pos _), Nat.div_eq_of_lt (Nat.mod_lt _ (Nat.two_pow_pos _)), Nat.zero_add]

/-! ### FRAME_FORWARD -/

/-- A frame sent on with its correction, once a SYNC has brought the asymmetries into effect (R229, R232). -/
def frameCorrected (r : RingSel) (f : RxFrame) (resid : Nat) (s : State) : State :=
  let s := if f.typ = tySync ∧ frameGood f then takeAsym s else s
  if f.typ = tyAlign then s
  else s.modRing (fun k => { k with fwdCorr := forwardCorr f (linkDelay (portOf (entryPort r) k) + resid) })

/-- The same with a frame that fails its checks counted (R255). -/
def framePassed (r : RingSel) (f : RxFrame) (resid : Nat) (s : State) : State :=
  let s := frameCorrected r f resid s
  if f.typ ≠ tyAlign ∧ !frameGood f ∧ !frameForMe s f then countFrameErr s else s

theorem frameCorrected_keeps (r : RingSel) (f : RxFrame) (resid : Nat) (s : State) :
    (frameCorrected r f resid s).time = s.time ∧ (frameCorrected r f resid s).ring.addr = s.ring.addr ∧
      (frameCorrected r f resid s).ring.txq = s.ring.txq ∧ (frameCorrected r f resid s).ring.abandoned = s.ring.abandoned := by
  unfold frameCorrected
  dsimp only
  split <;> split <;> exact ⟨rfl, rfl, rfl, rfl⟩

theorem framePassed_keeps (r : RingSel) (f : RxFrame) (resid : Nat) (s : State) :
    (framePassed r f resid s).time = s.time ∧ (framePassed r f resid s).ring.addr = s.ring.addr ∧
      (framePassed r f resid s).ring.txq = s.ring.txq ∧ (framePassed r f resid s).ring.abandoned = s.ring.abandoned := by
  have h := frameCorrected_keeps r f resid s
  unfold framePassed
  dsimp only
  split <;> exact h

theorem framePassed_align (h : f.typ = tyAlign) : framePassed r f resid s = s := by
  have hsync : tyAlign ≠ tySync := by decide
  simp only [framePassed, frameCorrected, h, hsync, if_true, ne_eq, not_true_eq_false, false_and, if_false]

theorem framePassed_good (hgood : frameGood f = true) (ha : f.typ ≠ tyAlign) (hs : f.typ ≠ tySync) :
    framePassed r f resid s = s.modRing (fun k => { k with
      fwdCorr := f.corr + BitVec.ofInt 64 (linkDelay (portOf (entryPort r) k) + resid) }) := by
  simp only [framePassed, frameCorrected, hgood, ha, hs, false_and, if_false, forwardCorr_good hgood, Bool.not_true, Bool.false_eq_true,
    and_false]

theorem framePassed_sync (hgood : frameGood f = true) (hs : f.typ = tySync) :
    framePassed r f resid s = (takeAsym s).modRing (fun k => { k with
      fwdCorr := f.corr + BitVec.ofInt 64 (linkDelay (portOf (entryPort r) k) + resid) }) := by
  have ha : tySync ≠ tyAlign := by decide
  simp only [framePassed, frameCorrected, hgood, hs, ha, true_and, if_true, if_false, forwardCorr_good hgood, Bool.not_true,
    Bool.false_eq_true, false_and, and_false]

theorem linkDelay_takeAsym (p : RingPort) (s : State) :
    linkDelay (portOf p (takeAsym s).ring) = (portOf p s.ring).delay.toNat + (portOf p s.ring).asym.toInt := by
  cases p <;> rfl

theorem framePassed_violation (hv : f.violation = true) (ha : f.typ ≠ tyAlign) (hme : frameForMe s f = false) :
    framePassed r f resid s = countFrameErr (s.modRing (fun k => { k with
      fwdCorr := forwardCorr f (linkDelay (portOf (entryPort r) k) + resid) })) := by
  have hbad : frameGood f = false := by
    cases h : frameGood f
    · rfl
    · exact absurd (violation_of_good h) (by rw [hv]; decide)
  have hcorr : frameCorrected r f resid s = s.modRing (fun k => { k with
      fwdCorr := forwardCorr f (linkDelay (portOf (entryPort r) k) + resid) }) := by
    simp only [frameCorrected, hbad, Bool.false_eq_true, and_false, if_false, if_neg ha]
  rw [framePassed, hcorr]
  refine if_pos ⟨ha, ?_, ?_⟩
  · rw [hbad]; rfl
  · show (!frameForMe s f) = true
    rw [hme]; rfl

section
variable (hon : s.coreOn = true) (hu : s.ring.isHead = false) (hup : (portOf (entryPort r) s.ring).up = true)
include hon hu hup

theorem exec_frameForward (w : Bool) :
    exec (.frameForward r f resid w) s = .next (if w && decide ((framePassed r f resid s).ring.addr ≠ 0)
      then abandonWindow r (framePassed r f resid s) else framePassed r f resid s) :=
  congrArg Host.Outcome.next (if_pos (by rw [hon, hu, hup]; rfl))

/-- A frame outside the unit's own window passes, and nothing more. -/
theorem exec_frameForward_outside : exec (.frameForward r f resid false) s = .next (framePassed r f resid s) :=
  exec_frameForward hon hu hup false

/-- A frame in the own window of a unit with an address abandons that window (R259). -/
theorem exec_frameForward_window (ha : s.ring.addr ≠ 0) :
    exec (.frameForward r f resid true) s = .next (abandonWindow r (framePassed r f resid s)) := by
  obtain ⟨-, haddr, -, -⟩ := framePassed_keeps r f resid s
  rw [exec_frameForward hon hu hup true, haddr, decide_eq_true ha]
  rfl

end

theorem abandonWindow_writes (g : RingSel) (s : State) :
    ∃ n, 1 ≤ n ∧ (abandonWindow g s).ring.abandoned = satAdd s.ring.abandoned n ∧ (abandonWindow g s).ring.dupAddr = true ∧
      (abandonWindow g s).ring.txq = s.ring.txq ∧ (g, s.gridNs / 1000000) ∈ (abandonWindow g s).ring.noTx :=
  ⟨_, Nat.le_max_left 1 _, rfl, rfl, rfl, List.mem_cons_self⟩

/-! ### What a window takes (R257, R258) -/

theorem frameRank_lt (head : Bool) (x : TxFrame) : frameRank head x < 8 := by
  unfold frameRank
  split <;> (repeat' split) <;> decide

theorem inOrder_nil (head : Bool) : inOrder head [] = [] := rfl

theorem inOrder_singleton (head : Bool) (x : TxFrame) : inOrder head [x] = [x] := by
  have hlt := frameRank_lt head x
  simp only [inOrder, List.filter_cons, List.filter_nil]
  generalize frameRank head x = k at hlt ⊢
  interval_cases k <;> rfl

theorem fitWindow_singleton {room : Nat} {x : TxFrame} (h : frameChars x ≤ room) : fitWindow room [] [x] = ([x], []) := by
  simp [fitWindow, h]

/-- The own frames of a ring that a window may take in a cycle. -/
def readyFrames (g : RingSel) (cycle : Nat) (s : State) : List TxFrame :=
  s.ring.txq.filter (fun x => decide (x.ring = g) && frameMayGo s cycle x)

/-- The frames that stay in the queue, whatever the window takes. -/
def keptFrames (g : RingSel) (cycle : Nat) (s : State) : List TxFrame :=
  s.ring.txq.filter (fun x => !(decide (x.ring = g) && frameMayGo s cycle x))

theorem windowFrames_none {cycle : Nat} (h : readyFrames g cycle s = []) : windowFrames g cycle s = ([], []) := by
  rw [windowFrames, show s.ring.txq.filter _ = [] from h, inOrder_nil, fitWindow]

theorem keptFrames_of_none {cycle : Nat} (h : readyFrames g cycle s = []) : keptFrames g cycle s = s.ring.txq :=
  List.filter_eq_self.2 fun x hx => by rw [Bool.not_eq_true', ← Bool.not_eq_true]; exact List.filter_eq_nil_iff.1 h x hx

/-- A unit's window takes 600 characters. -/
theorem windowFrames_one {cycle : Nat} {x : TxFrame} (hu : s.ring.isHead = false) (ha : s.ring.addr ≠ 0)
    (h : readyFrames g cycle s = [x]) (hlen : x.payload.length ≤ 256) : windowFrames g cycle s = ([x], []) := by
  have hroom : windowRoom s = 600 := by
    simp only [windowRoom, hu, ha, Bool.false_eq_true, if_false]
  rw [windowFrames, show s.ring.txq.filter _ = [x] from h, inOrder_singleton, hroom]
  exact fitWindow_singleton (by rw [frameChars]; omega)

/-! ### UNIT_WINDOW -/

theorem headWraps_of_unit (cycle : Nat) (g : RingSel) (hu : s.ring.isHead = false) : headWraps cycle g s = s := by
  unfold headWraps
  cases s.ring.wrapPend with
  | none => rfl
  | some w => exact if_neg (by simp [hu])

theorem unitReport_none (g : RingSel) (h : mustReport s = false) : unitReport g s = s := if_neg (by rw [h]; simp)

theorem stampFrame_plain {x : TxFrame} (h : x.typ ≠ tyAlign) (s : State) (t : Nat) : stampFrame s t x = { x with src := s.ring.addr } :=
  if_neg fun hk => h hk.1

theorem noteT1_plain {e : Nat × TxFrame} (h : e.2.typ ≠ tyAlign) (s : State) : noteT1 e s = s := if_neg fun hk => h hk.1

/-- A unit's window that one frame leaves in, of its own queue or IDLE, and that nothing waits behind. -/
theorem fillWindow_one {l : List TxFrame} {u : State} {x : TxFrame} (hu : s.ring.isHead = false) (hrep : mustReport s = false)
    (hgo : s.stalled 4 = false) (hl : windowFrames g (t0 / 65536000000) s = (l, [])) (htag : l.filterMap (·.tag) = [])
    (hidle : withIdle g l s = ([x], u)) (hty : x.typ ≠ tyAlign) :
    fillWindow g t0 s = u.modRing (fun k => { k with
      txq := keptFrames g (t0 / 65536000000) s, sent := [{ x with src := u.ring.addr }],
      sentCycle := BitVec.ofNat 16 (t0 / 65536000000) }) := by
  have hcycle : t0 / (nsUnits * 1000000) = t0 / 65536000000 := rfl
  have hkept : s.ring.txq.filter (fun f => !(decide (f.ring = g) && frameMayGo s (t0 / 65536000000) f)) =
      keptFrames g (t0 / 65536000000) s := rfl
  simp only [fillWindow, hcycle, headWraps_of_unit _ g hu, unitReport_none g hrep, hl, hgo, Bool.false_eq_true, if_false, hidle, htag,
    layFrames, stampFrame_plain hty, List.map_cons, List.map_nil, List.filterMap_nil, List.length_nil, satAdd_zero, List.append_nil, hkept,
    State.forEach, List.foldl_cons, List.foldl_nil]
  exact noteT1_plain hty _

theorem withIdle_one (x : TxFrame) : withIdle g [x] s = ([x], s) := rfl

/-- IDLE, with the next of its numbers (R256). -/
theorem withIdle_none (hgo : s.stalled 4 = false) (hu : s.ring.isHead = false) (ha : s.ring.addr ≠ 0) :
    withIdle g [] s = ([mkFrame g tyIdle 1 s.ring.addr (nextSeq tyIdle s).1 (idlePayload s) none], (nextSeq tyIdle s).2) :=
  if_pos (by rw [hgo, hu, decide_eq_true ha]; rfl)

section
variable (hon : s.coreOn = true) (hok : s.time.syncOk = true) (hu : s.ring.isHead = false) (hgrant : s.ring.grantPend = none)
include hon hok hu hgrant

theorem exec_unitWindow :
    exec (.unitWindow g dt) s = .next (if s.ring.noTx.contains (g, (s.time.rt + dt) / 65536000000) then s
      else fillWindow g (s.time.rt + dt) s) := by
  have hg : takeGrant ((s.time.rt + dt) / (nsUnits * 1000000)) s = s := by simp only [takeGrant, hgrant]
  show execUnitWindow g dt s = _
  simp only [execUnitWindow, hon, hok, Bool.and_self, if_true, headTopology_of_unit hu, sendWindow, hg]
  rfl

/-- Nothing of a unit's own goes out in a cycle in which its window was taken (R259). -/
theorem exec_unitWindow_barred (h : (g, (s.time.rt + dt) / 65536000000) ∈ s.ring.noTx) : exec (.unitWindow g dt) s = .next s := by
  rw [exec_unitWindow hon hok hu hgrant, if_pos (List.contains_iff_mem.2 h)]

theorem exec_unitWindow_fills (h : (g, (s.time.rt + dt) / 65536000000) ∉ s.ring.noTx) :
    exec (.unitWindow g dt) s = .next (fillWindow g (s.time.rt + dt) s) := by
  rw [exec_unitWindow hon hok hu hgrant, if_neg (mt List.contains_iff_mem.1 h)]

end

/-- Settles O48: the ports' part of an exchange, of links and of forwarding, and the one frame, IDLE at least, of a unit's window. -/
theorem ringLinksTakeEffect : Obligations.RingLinksTakeEffect := by
  refine ⟨fun p s hon hok hup => ?_, fun p f dt s hon hrx hgood hty => ⟨fun hk => ?_, fun t1 ms hk hu ht1 hx hms => ?_,
      fun t1 ms hk hu ht1 hms => ?_⟩, fun p s hon => ⟨exec_linkUp hon, fun n => exec_linkDown n hon⟩,
    fun r f resid s hon hu hup => ⟨fun hgood ha hs => ?_, fun hgood hs => ?_, fun ha => ?_, fun hv ha hme => ?_, fun ha => ?_⟩,
    fun g dt s hon hok hgo hu ha hgrant => ⟨exec_unitWindow_barred hon hok hu hgrant, fun hrep hnot => ⟨fun hready => ?_,
      fun x hready hty hlen htag => ?_⟩⟩⟩
  · have hport := portOf_sendOn (exitRing p) tyAlign broadcast (alignPayload (alignAsked p s) 1 (portOf p (alignAsked p s).ring).xseq [])
      (alignAsked p s) p
    refine ⟨_, _, _, exec_alignSend hon hok hup, sendOn_queues _ _ _ _ _, rfl, rfl, rfl, alignPayload_uid _ _ _ _,
      alignPayload_kind _ _ _ _ (by decide), ?_, ?_, fun y hy => ?_⟩
    · rw [hport]; exact alignPayload_xseq _ _ _ _
    · rw [hport]; exact alignAsked_xseq p s
    · rw [alignAsked_txq] at hy
      exact List.mem_of_mem_filter hy
  · refine ⟨_, _, exec_alignReceived_request hon hrx hgood hty hk,
      (sendOn_queues _ _ _ _ _).trans (congrArg (· ++ _) (alignHeard_txq p f s)), rfl, rfl, alignPayload_kind _ _ _ _ (by decide), ?_,
      alignPayload_t2 _ _ _ _ (stamp_bytes_length _), ?_⟩
    · exact (alignPayload_xseq _ _ _ _).trans (Nat.mod_eq_of_lt (leAt_lt _ 10 2))
    · rw [portOf_sendOn, alignHeard_port]
  · have hjoin := takeAlignAnswer_joins (q := portOf p (alignHeard p f s).ring) (by rw [alignHeard_port]; exact ht1)
      (by rw [alignHeard_port]; exact hx) hms
    refine ⟨_, exec_alignReceived_answer hon hrx hgood hty hk hu, ?_⟩
    rw [State.modRing_ring, portOf_modPortOf, hjoin, modPortOf_txq, alignHeard_txq, alignHeard_port]
    exact ⟨rfl, rfl, rfl, rfl⟩
  · have hlate := takeAlignAnswer_late f.payload (q := portOf p (alignHeard p f s).ring) (by rw [alignHeard_port]; exact ht1) hms
    refine ⟨_, exec_alignReceived_answer hon hrx hgood hty hk hu, ?_⟩
    rw [State.modRing_ring, portOf_modPortOf, hlate, alignHeard_port]
    exact ⟨rfl, rfl⟩
  · rw [exec_frameForward_outside hon hu hup, framePassed_good hgood ha hs]
    rfl
  · rw [exec_frameForward_outside hon hu hup, framePassed_sync hgood hs, ← linkDelay_takeAsym]
    rfl
  · rw [exec_frameForward_outside hon hu hup, framePassed_align ha]
  · refine ⟨_, exec_frameForward_outside hon hu hup, ?_⟩
    rw [framePassed_violation hv ha hme]
    exact ⟨rfl, forwardCorr_violation hv _⟩
  · obtain ⟨htime, -, htxq, habandoned⟩ := framePassed_keeps r f resid s
    obtain ⟨n, hn, hcount, hdup, hq, hbar⟩ := abandonWindow_writes r (framePassed r f resid s)
    refine ⟨_, n, exec_frameForward_window hon hu hup ha, hdup, hq.trans htxq, hn, by rw [hcount, habandoned], ?_⟩
    rwa [State.gridNs, htime] at hbar
  · have hfill := fillWindow_one hu hrep hgo (windowFrames_none hready) rfl (withIdle_none hgo hu ha) (show tyIdle ≠ tyAlign by decide)
    rw [keptFrames_of_none hready] at hfill
    exact ⟨_, _, (exec_unitWindow_fills hon hok hu hgrant hnot).trans (congrArg _ hfill), rfl, rfl, rfl, rfl, rfl, rfl⟩
  · have hfill := fillWindow_one hu hrep hgo (windowFrames_one hu ha hready hlen) (by simp [htag]) (withIdle_one x) hty
    exact ⟨_, (exec_unitWindow_fills hon hok hu hgrant hnot).trans (congrArg _ hfill), rfl, rfl, rfl⟩

end Sys2Proof.Machine
end

section
/-! Frames that a unit queues, and fields of byte lists: what the ring group and the ring's frame events share (R8, R255, R261). -/

namespace Sys2Proof.Machine

variable {s : State}

/-! ### Queued frames -/

/-- Every address has a ring that leads to it, or to the head that relays (R261). -/
theorem routeTo_ne_nil (s : State) (q : BitVec 6) : (routeTo s q).1 ≠ [] := by
  unfold routeTo
  dsimp only
  repeat' split
  all_goals exact List.cons_ne_nil _ _

/-- A unit other than the head reaches the head on one ring (R261). -/
theorem routeTo_head (hu : s.ring.isHead = false) : ∃ g, routeTo s 1 = ([g], false) :=
  ⟨_, (if_neg (by rw [hu]; decide)).trans (if_pos rfl)⟩

theorem sendFrame_queues (ty : BitVec 4) (dst : BitVec 6) (p : List Byte) (tag : Option (Fin 64)) (s : State) :
    Queues s (sendFrame ty dst p tag s) ((routeTo s dst).1.map (fun g =>
      mkFrame g ty (if (routeTo s dst).2 then 1 else dst) s.ring.addr s.ring.txSeq[ty.toFin] p tag)) := rfl

/-- Queueing a frame writes the queue and the numbers of the frames. -/
theorem sendFrame_writes (ty : BitVec 4) (dst : BitVec 6) (p : List Byte) (tag : Option (Fin 64)) (s : State) :
    ∃ q n, sendFrame ty dst p tag s = s.modRing (fun r => { r with txq := q, txSeq := n }) := ⟨_, _, rfl⟩

theorem sendFrame_queue_grows (ty : BitVec 4) (dst : BitVec 6) (p : List Byte) (tag : Option (Fin 64)) (s : State) :
    s.ring.txq.length + 1 ≤ (sendFrame ty dst p tag s).ring.txq.length := by
  have hpos := List.length_pos_of_ne_nil (routeTo_ne_nil s dst)
  rw [sendFrame_queues, List.length_append, List.length_map]
  omega

/-- A frame to the head is one queued frame (R261). -/
theorem sendFrame_toHead (hu : s.ring.isHead = false) (ty : BitVec 4) (p : List Byte) (tag : Option (Fin 64)) :
    ∃ g, Queues s (sendFrame ty 1 p tag s) [mkFrame g ty 1 s.ring.addr s.ring.txSeq[ty.toFin] p tag] := by
  obtain ⟨g, hg⟩ := routeTo_head hu
  refine ⟨g, (sendFrame_queues ty 1 p tag s).trans ?_⟩
  rw [hg]
  rfl

/-! ### Entries and fields of byte lists -/

/-- Entry k of entries of one size. -/
theorem entry_flatMap_fins {β : Type} {m n : Nat} {f : Fin m → List β} (h : ∀ a, (f a).length = n) (k : Fin m) :
    (((fins m).flatMap f).drop (n * k.val)).take n = f k := by
  have hentry (l : List (Fin m)) (j : Nat) (hj : j < l.length) : ((l.flatMap f).drop (n * j)).take n = f l[j] := by
    induction l generalizing j with
    | nil => exact absurd hj (Nat.not_lt_zero j)
    | cons a l ih =>
      rw [List.flatMap_cons]
      cases j with
      | zero => rw [Nat.mul_zero, List.drop_zero, List.take_left' (h a)]; rfl
      | succ j =>
        rw [Nat.mul_succ, Nat.add_comm (n * j), ← List.drop_drop, List.drop_left' (h a), ih j (Nat.lt_of_succ_lt_succ hj)]
        rfl
  rw [hentry _ k.val (by simp [fins])]
  exact congrArg f (List.getElem_finRange _)

theorem getD_overlay_of_outside {bs new : List Byte} {off k : Nat} (hoff : off ≤ bs.length) (h : k < off ∨ off + new.length ≤ k) :
    (overlay bs off new).getD k 0 = bs.getD k 0 := by
  have hlen : (bs.take off).length = off := List.length_take_of_le hoff
  simp only [overlay, List.append_assoc, List.getD_eq_getElem?_getD]
  rcases h with h | h
  · rw [List.getElem?_append_left (by omega), List.getElem?_take_of_lt h]
  · rw [List.getElem?_append_right (by omega), List.getElem?_append_right (by omega), List.getElem?_drop, hlen]
    congr 2
    omega

/-- A field inside the bytes laid over. -/
theorem leAt_overlay {bs new : List Byte} {off k m : Nat} (hoff : off ≤ bs.length) (h : k + m ≤ new.length) :
    leAt (overlay bs off new) (off + k) m = leAt new k m := by
  have hlen : (bs.take off).length = off := List.length_take_of_le hoff
  rw [overlay, List.append_assoc, leAt_append_right (by omega), hlen, Nat.add_sub_cancel_left, leAt_append_left h]

theorem rosterAddr_toNat (a : Fin 61) : (rosterAddr a).toNat = a.val + 2 := by
  rw [rosterAddr, BitVec.toNat_ofNat]
  omega

theorem rosterIdx_rosterAddr (a : Fin 61) : rosterIdx (rosterAddr a) = some a := by
  have h := rosterAddr_toNat a
  rw [rosterIdx, dif_pos (by omega)]
  exact congrArg some (Fin.ext (by simp only [h, Nat.add_sub_cancel]))

theorem eq_rosterAddr {b : BitVec 6} {i : Fin 61} (h : rosterIdx b = some i) : b = rosterAddr i := by
  unfold rosterIdx at h
  split at h
  next hb =>
    obtain rfl := Option.some.inj h
    refine BitVec.eq_of_toNat_eq ((rosterAddr_toNat _).trans ?_).symm
    exact Nat.sub_add_cancel hb.1
  · exact absurd h (by simp)

end Sys2Proof.Machine
end

section
/-! The ring group of Cesoak: readings, stores, and the push and release of mirror entries (R263, R273 to R281, R325). -/

namespace Sys2Proof.Machine

variable {t : Fin 64} {c : Cmd} {s : State} {a : Fin 61} {g : Fin 16}

/-! ### Addresses and groups by number -/

theorem addrNo_add_two (a : Fin 61) : addrNo (a.val + 2) = some a := by
  rw [addrNo, if_pos (by omega), Nat.add_sub_cancel]
  exact congrArg some (Fin.ext (Nat.mod_eq_of_lt a.isLt))

theorem addrNo_none {n : Nat} (h : n < 2 ∨ 62 < n) : addrNo n = none := if_neg (by omega)

theorem groupNo_succ (g : Fin 16) : Fin.ofNat 16 (g.val + 1 - 1) = g := Fin.ext (Nat.mod_eq_of_lt g.isLt)

/-! ### Readings -/

theorem rosterBytes_length (s : State) (a : Fin 61) : (rosterBytes s a).length = 20 := by
  simp only [rosterBytes, List.length_append, leBytes_length]

/-- An entry shows address, state, neighbours and UID in its first twelve bytes (R325). -/
theorem rosterBytes_fields (s : State) (a : Fin 61) :
    leAt (rosterBytes s a) 0 1 = a.val + 2 ∧ leAt (rosterBytes s a) 1 1 = presenceCode (s.ring.roster[a]).st ∧
      leAt (rosterBytes s a) 2 1 = (s.ring.roster[a]).up.toNat ∧ leAt (rosterBytes s a) 3 1 = (s.ring.roster[a]).down.toNat ∧
      leAt (rosterBytes s a) 4 8 = (s.ring.roster[a]).uid.toNat := by
  have hst : presenceCode (s.ring.roster[a]).st < 256 ^ 1 := by cases (s.ring.roster[a]).st <;> decide
  have haddr (b : BitVec 6) : b.toNat < 256 ^ 1 := by omega
  simp only [rosterBytes, List.append_assoc]
  refine ⟨?_, ?_, ?_, ?_, ?_⟩
  · rw [leAt_leBytes_append, Nat.mod_eq_of_lt (haddr _), rosterAddr_toNat]
  · rw [leAt_leBytes_skip (by decide), leAt_leBytes_append, Nat.mod_eq_of_lt hst]
  · rw [leAt_leBytes_skip (by decide), leAt_leBytes_skip (by decide), leAt_leBytes_append, Nat.mod_eq_of_lt (haddr _)]
  · rw [leAt_leBytes_skip (by decide), leAt_leBytes_skip (by decide), leAt_leBytes_skip (by decide), leAt_leBytes_append,
      Nat.mod_eq_of_lt (haddr _)]
  · rw [leAt_leBytes_skip (by decide), leAt_leBytes_skip (by decide), leAt_leBytes_skip (by decide), leAt_leBytes_skip (by decide),
      leAt_leBytes_append]
    exact Nat.mod_eq_of_lt (s.ring.roster[a]).uid.isLt

theorem runBalRead_some (hg : payField c 0 1 = g.val + 1) :
    runBalRead (cmdIn t c s) s = okWith (padTo 48 (s.ring.groups[g]).result) s := by
  have hin : ¬ (g.val + 1 < 1 ∨ 16 < g.val + 1) := by omega
  simp only [runBalRead, p1_cmdIn, hg, if_neg hin, groupNo_succ]

theorem runMirrorRead_some (ha : payField c 0 1 = a.val + 2) :
    runMirrorRead (cmdIn t c s) s = .done .ok [] (mirrorEntry s a) s := by
  simp only [runMirrorRead, p1_cmdIn, ha, addrNo_add_two]

theorem runMirrorRead_none (h : payField c 0 1 < 2 ∨ 62 < payField c 0 1) : runMirrorRead (cmdIn t c s) s = fail .range s := by
  simp only [runMirrorRead, p1_cmdIn, addrNo_none h]

/-! ### Stores -/

theorem runAddrRelease_eq (ha : payField c 0 1 = a.val + 2) :
    runAddrRelease (cmdIn t c s) s = if (s.ring.roster[a]).st = .absent then .store (.addrRelease a) s else fail .range s := by
  simp only [runAddrRelease, p1_cmdIn, ha, addrNo_add_two]

theorem runBalWrite_stores (hg : leAt (bulkOf c s) 0 1 = g.val + 1) (hok : balDescOk (bulkOf c s) = true) :
    runBalWrite (cmdIn t c s) s = .store (.balGroup g (bulkOf c s)) s := by
  rw [runBalWrite, cmdIn_bulk, if_pos hok, hg, groupNo_succ]

/-- A threshold of 0 is no value of a group (R274). -/
theorem balDescOk_no_threshold {d : List Byte} (h : leAt d 2 2 = 0) : balDescOk d = false := by
  simp [balDescOk, balTh, h]

/-! ### The mirror -/

/-- A release clears HELD. -/
theorem mirrorHeld_releasedEntry {e : List Byte} (h : 11 ≤ e.length) : mirrorHeld (releasedEntry e) = false := by
  have hflags : leAt (releasedEntry e) 11 1 = bitsN (leAt e 11 1) 1 0 % 256 := by
    rw [releasedEntry, leAt_overlay (k := 0) h (by simp), ← List.append_nil (leBytes 1 _), leAt_leBytes_append, Nat.pow_one]
  have hlt : bitsN (leAt e 11 1) 1 0 < 2 ^ 2 := Nat.mod_lt _ (by decide)
  rw [mirrorHeld, hflags, Nat.mod_eq_of_lt (by omega)]
  exact Nat.testBit_lt_two_pow hlt

theorem mirrorEntry_length (s : State) (a : Fin 61) : (mirrorEntry s a).length = 256 := Laws.memSlice_length _ _ _ _

theorem runMirrorRelease_some (ha : payField c 0 1 = a.val + 2) :
    runMirrorRelease (cmdIn t c s) s = .store (.mirror a (releasedEntry (mirrorEntry s a))) s := by
  simp only [runMirrorRelease, p1_cmdIn, ha, addrNo_add_two]

/-- The entry's two halves join the queue, and the push waits for its outcome (R281). -/
theorem pushMirror_writes (a : Fin 61) (tag : Option (Fin 64)) (s : State) :
    ∃ q n, pushMirror a tag s = s.modRing (fun r => { r with txq := q, txSeq := n, push := r.push ++ [(rosterAddr a, tag)] }) := by
  unfold pushMirror
  extract_lets e dst s₁ s₂
  obtain ⟨q₁, n₁, h₁⟩ := sendFrame_writes tyMbox dst (mboxPayload 4 1 dst 0 0 (e.take 128)) none s
  obtain ⟨q₂, n₂, h₂⟩ := sendFrame_writes tyMbox dst (mboxPayload 4 1 dst 1 0 (e.drop 128)) none s₁
  refine ⟨q₂, n₂, ?_⟩
  rw [show s₂ = _ from h₂, show s₁ = _ from h₁]
  rfl

theorem pushMirror_queue_grows (a : Fin 61) (tag : Option (Fin 64)) (s : State) :
    s.ring.txq.length + 2 ≤ (pushMirror a tag s).ring.txq.length := by
  have hfirst := sendFrame_queue_grows tyMbox (rosterAddr a) (mboxPayload 4 1 (rosterAddr a) 0 0 ((mirrorEntry s a).take 128)) none s
  have hsecond := sendFrame_queue_grows tyMbox (rosterAddr a) (mboxPayload 4 1 (rosterAddr a) 1 0 ((mirrorEntry s a).drop 128)) none
    (sendFrame tyMbox (rosterAddr a) (mboxPayload 4 1 (rosterAddr a) 0 0 ((mirrorEntry s a).take 128)) none s)
  exact (Nat.add_le_add_right hfirst 1).trans hsecond

/-- The head with a push out for a command: its tag waits as for another unit (R281). -/
def pushedFor (t : Fin 64) (a : Fin 61) (s : State) : State :=
  pushMirror a (some t) (setCmd t (fun c => { c with remote := true }) s)

section
variable (ha : payField c 0 1 = a.val + 2)
include ha

theorem runMirrorPush_refused (h : mirrorHeld (mirrorEntry s a) = false ∨ (s.ring.roster[a]).st ≠ .present) :
    runMirrorPush (cmdIn t c s) s = fail .range s := by
  have hno : (mirrorHeld (mirrorEntry s a) && decide ((s.ring.roster[a]).st = .present)) = false := by
    rw [Bool.and_eq_false_iff, decide_eq_false_iff_not]
    exact h
  simp only [runMirrorPush, p1_cmdIn, ha, addrNo_add_two, hno, Bool.false_eq_true, if_false]

theorem runMirrorPush_held (hheld : mirrorHeld (mirrorEntry s a) = true) (hst : (s.ring.roster[a]).st = .present) :
    runMirrorPush (cmdIn t c s) s =
      if s.ring.push.any (fun e => e.1 == rosterAddr a) then fail .busy s else .hold (pushedFor t a s) := by
  simp only [runMirrorPush, p1_cmdIn, ha, addrNo_add_two, hheld, hst, decide_true, Bool.and_self, if_true]
  rfl

end

/-- Settles O29: each command is its body's answer or store; a push leaves its two halves in the queue and holds its tag. -/
theorem ringCommandsTakeEffect : Obligations.RingCommandsTakeEffect := by
  refine ⟨fun t c s => ⟨fun h => ?_, fun h => ?_, fun g h hg => ?_, fun a h ha => ?_, fun h ha => ?_⟩, fun t c s hf =>
    ⟨fun h => ⟨fun hv => ?_, fun hv => ?_⟩, fun a h ha => ⟨fun hst => ?_, fun hst => ?_⟩, fun g h hg => ⟨fun hok => ?_, fun hth => ?_⟩,
      fun a h ha => ⟨fun hheld hst hnone => ?_, fun hheld hst hsome => ?_, fun hno => ?_⟩, fun a h ha => ?_⟩⟩
  · exact exec_done (row := rowRingStatus) (body := runRingStatus) rfl rfl h rfl
  · refine ⟨_, exec_done (row := rowRosterRead) (body := runRosterRead) rfl rfl h rfl, ?_, fun a => ?_⟩
    · rw [length_flatMap_of_entries _ (rosterBytes_length s), fins, List.length_finRange]
    · obtain ⟨haddr, hst, hup, hdown, huid⟩ := rosterBytes_fields s a
      rw [entry_flatMap_fins (rosterBytes_length s) a]
      refine ⟨haddr, hst.trans ?_, hup, hdown, huid⟩
      cases (s.ring.roster[a]).st <;> rfl
  · exact exec_done (row := rowBalRead) rfl rfl h (runBalRead_some hg)
  · exact exec_done (row := rowMirrorRead) rfl rfl h (runMirrorRead_some ha)
  · exact exec_done (row := rowMirrorRead) rfl rfl h (runMirrorRead_none ha)
  · exact exec_store (row := rowRingHcfg) (body := runRingHcfg) rfl rfl h hf (if_pos hv)
  · exact exec_done (row := rowRingHcfg) (body := runRingHcfg) rfl rfl h (if_neg (Nat.not_lt.2 hv))
  · exact exec_store (row := rowAddrRelease) rfl rfl h hf ((runAddrRelease_eq ha).trans (if_pos hst))
  · exact exec_done (row := rowAddrRelease) rfl rfl h ((runAddrRelease_eq ha).trans (if_neg hst))
  · exact exec_store (row := rowBalWrite) rfl rfl h hf (runBalWrite_stores hg hok)
  · exact exec_done (row := rowBalWrite) (body := runBalWrite) rfl rfl h (if_neg (by simp [balDescOk_no_threshold hth]))
  · have hno : s.ring.push.any (fun e => e.1 == rosterAddr a) = false := by simpa using hnone
    have hexec := exec_takes (row := rowMirrorPush) (body := runMirrorPush) (i := .mirrorPush t) rfl rfl h
    rw [runMirrorPush_held ha hheld hst, hno] at hexec
    obtain ⟨q, n, hpush⟩ := pushMirror_writes a (some t) (setCmd t (fun c => { c with remote := true }) s)
    have hgrows := pushMirror_queue_grows a (some t) (setCmd t (fun c => { c with remote := true }) s)
    rw [pushedFor, hpush] at hexec
    rw [hpush] at hgrows
    refine ⟨_, hexec, rfl, ?_, rfl, rfl, hgrows⟩
    show (vmod (vmod s.mb.tags t _) t _)[t] = _
    rw [vmod_get_self, vmod_get_self, h.1]
    rfl
  · have hyes : s.ring.push.any (fun e => e.1 == rosterAddr a) = true := by simpa using hsome
    exact exec_done (row := rowMirrorPush) rfl rfl h ((runMirrorPush_held ha hheld hst).trans (if_pos hyes))
  · exact exec_done (row := rowMirrorPush) rfl rfl h (runMirrorPush_refused ha hno)
  · have hlen := mirrorEntry_length s a
    refine ⟨_, exec_store (row := rowMirrorRelease) rfl rfl h hf (runMirrorRelease_some ha), mirrorHeld_releasedEntry (by omega),
      fun k hk _ => getD_overlay_of_outside (by omega) ?_⟩
    rw [leBytes_length]
    omega

end Sys2Proof.Machine
end

section
/-! The watched crossings: stalls, resumption and realignment (R252, R399 to R405). -/

namespace Sys2Proof.Machine

variable {s : State} {p : RingPort} {k : Fin 12}

/-! ### What a look at the topology writes (R267, R268) -/

theorem announce_writes (g : Option (BitVec 6 × BitVec 6)) (s : State) :
    ∃ w, announce g s = s.modRing (fun r => { r with wrapPend := w }) := by
  unfold announce
  split
  · exact ⟨s.ring.wrapPend, rfl⟩
  · exact ⟨_, rfl⟩

theorem headTopology_writes (s : State) :
    ∃ b w, headTopology s = s.modRing (fun r => { r with breaks := b, wrapPend := w }) := by
  unfold headTopology
  extract_lets s₁ s₂
  split
  · exact ⟨s.ring.breaks, s.ring.wrapPend, rfl⟩
  · split
    · exact ⟨s₂.ring.breaks, s₂.ring.wrapPend, rfl⟩
    · obtain ⟨w, hw⟩ := announce_writes (enclosing s₂) s₂
      exact ⟨s₂.ring.breaks, w, hw⟩

/-! ### A link that is lost (R252, R267) -/

theorem linkLost_down (p : RingPort) (n : Nat) (s : State) : (portOf p (linkLost p n s).ring).up = false ∧ (linkLost p n s).cdc = s.cdc := by
  unfold linkLost
  split
  next hup =>
    extract_lets s₁
    have hdown : (portOf p s₁.ring).up = false := by rw [State.modRing_ring, portOf_modPortOf]
    split
    · cases p <;>
      · obtain ⟨b, w, h⟩ := headTopology_writes _
        rw [h]
        exact ⟨hdown, rfl⟩
    · exact ⟨hdown, rfl⟩
  next hup => exact ⟨Bool.eq_false_iff.2 hup, rfl⟩

theorem dropLink_down (p : RingPort) (s : State) : (portOf p (dropLink p s).ring).up = false ∧ (dropLink p s).cdc = s.cdc := by
  unfold dropLink
  split
  next => exact linkLost_down p 0 s
  next hup => exact ⟨Bool.eq_false_iff.2 hup, rfl⟩

/-! ### Bits of the stalled crossings (R399, R405) -/

theorem cdcWatched_of_coreOn (hon : s.coreOn = true) (k : Fin 12) : cdcWatched k s = true := by
  have hoff : s.power.state ≠ .off := fun h => by
    have hfirn := firnOn_of_coreOn hon
    rw [State.firnOn, h] at hfirn
    exact absurd hfirn (by decide)
  unfold cdcWatched
  split
  · exact decide_eq_true hoff
  · exact hon

theorem getLsbD_crossing (k j : Fin 12) : (BitVec.ofNat 12 (2 ^ k.val)).getLsbD j.val = decide (j = k) := by
  rw [BitVec.getLsbD_ofNat, Nat.testBit_two_pow, decide_eq_true j.isLt, Bool.true_and]
  exact decide_eq_decide.2 ⟨fun h => Fin.ext h.symm, fun h => congrArg Fin.val h.symm⟩

/-- Crossing k as latched, counted and dated. -/
def stallNoted (k : Fin 12) (s : State) : State :=
  s.modCdc (fun c => { c with stall := c.stall ||| BitVec.ofNat 12 (2 ^ k.val), stalls := vmod c.stalls k (fun n => satAdd n 1), last := s.stamp })

theorem stallNoted_stalled (k j : Fin 12) (s : State) : (stallNoted k s).stalled j.val = (s.stalled j.val || decide (j = k)) :=
  BitVec.getLsbD_or.trans (congrArg (s.stalled j.val || ·) (getLsbD_crossing k j))

/-- Crossing k as no longer stalled. -/
def stallCleared (k : Fin 12) (s : State) : State :=
  s.modCdc (fun c => { c with stall := c.stall &&& ~~~(BitVec.ofNat 12 (2 ^ k.val)) })

theorem stallCleared_stalled (k j : Fin 12) (s : State) : (stallCleared k s).stalled j.val = (s.stalled j.val && !decide (j = k)) := by
  refine BitVec.getLsbD_and.trans (congrArg (s.stalled j.val && ·) ?_)
  rw [BitVec.getLsbD_not, getLsbD_crossing, decide_eq_true j.isLt, Bool.true_and]

/-! ### The events -/

theorem exec_cdcStall (hon : s.coreOn = true) (hgo : s.stalled k.val = false) :
    exec (.cdcStall k) s = .next (onStall k (stallNoted k s)) :=
  congrArg Host.Outcome.next (if_pos (by rw [cdcWatched_of_coreOn hon, hgo]; rfl))

theorem exec_cdcResume (hon : s.coreOn = true) (hst : s.stalled k.val = true) :
    exec (.cdcResume k) s = .next (onResume k (stallCleared k s)) :=
  congrArg Host.Outcome.next (if_pos (by rw [cdcWatched_of_coreOn hon, hst]; rfl))

theorem onStall_cdc (k : Fin 12) (s : State) : (onStall k s).cdc = s.cdc := by
  unfold onStall
  split
  · rfl
  · exact (dropLink_down .a s).2
  · exact (dropLink_down .b s).2
  · rfl
  · rfl

theorem frame_cdc {t : State} (h : t.sampleFrame = s.sampleFrame) : t.cdc = s.cdc := congrArg SampleFrame.cdc h

theorem considerAll_frame (s : State) : (considerAll s).sampleFrame = s.sampleFrame := forEach_frame s _ fun id u => consider_frame u id

/-- Work that goes on writes no crossing. -/
theorem onResume_cdc (k : Fin 12) (s : State) : (onResume k s).cdc = s.cdc := by
  unfold onResume
  split
  · rfl
  · exact frame_cdc (auxSync_frame s)
  · exact frame_cdc (auxSync_frame s)
  · exact frame_cdc ((kick_frame _).trans (considerAll_frame s))
  · rfl

/-- A crossing that has realigned: what its source has discarded is counted (R403). -/
def realigned (k : Fin 12) (n : Nat) (s : State) : CdcSide → State
  | .source => s.modCdc (fun c => { c with drops := vmod c.drops k (fun d => satAdd d n) })
  | .destination => s
  | .both => s

theorem exec_cdcRealign (hon : s.coreOn = true) (hgo : s.stalled k.val = false) (side : CdcSide) (n : Nat) :
    exec (.cdcRealign k side n) s = .next (realigned k n s side) :=
  congrArg Host.Outcome.next ((if_pos (by rw [hon, hgo]; rfl)).trans (by cases side <;> rfl))

/-- Settles O56: the event writes the crossing's own record, and what follows it elsewhere leaves the record. -/
theorem crossingEventsTakeEffect : Obligations.CrossingEventsTakeEffect := by
  refine fun k s hon => ⟨fun hgo => ?_, fun hst => ?_, fun hgo n => ?_⟩
  · have hcdc := onStall_cdc k (stallNoted k s)
    have hbit (j : Fin 12) : (onStall k (stallNoted k s)).stalled j.val = (s.stalled j.val || decide (j = k)) := by
      rw [State.stalled, hcdc]
      exact stallNoted_stalled k j s
    refine ⟨_, exec_cdcStall hon hgo, by rw [hbit, decide_eq_true rfl, Bool.or_true], ?_, by rw [hcdc]; rfl,
      fun j hj => by rw [hbit, decide_eq_false hj, Bool.or_false], ?_, ?_, ?_, ?_, by rw [hcdc]; rfl⟩
    · rw [hcdc]
      exact vmod_get_self _ k _
    · rintro rfl
      rfl
    · rintro rfl
      exact ⟨_, rfl, rfl, rfl, rfl, rfl⟩
    · rintro rfl
      exact (dropLink_down .a _).1
    · rintro rfl
      exact (dropLink_down .b _).1
  · have hcdc := onResume_cdc k (stallCleared k s)
    have hbit (j : Fin 12) : (onResume k (stallCleared k s)).stalled j.val = (s.stalled j.val && !decide (j = k)) := by
      rw [State.stalled, hcdc]
      exact stallCleared_stalled k j s
    refine ⟨_, exec_cdcResume hon hst, by rw [hbit, decide_eq_true rfl, Bool.not_true, Bool.and_false],
      fun j hj => by rw [hbit, decide_eq_false hj, Bool.not_false, Bool.and_true], ?_, by rw [hcdc]; rfl⟩
    rintro rfl
    rfl
  · exact ⟨exec_cdcRealign hon hgo .source n, exec_cdcRealign hon hgo .destination n, exec_cdcRealign hon hgo .both n⟩

end Sys2Proof.Machine
end

section
/-! Frames that are accepted, and the payloads of mailbox frames (R255, R261, R271). -/

namespace Sys2Proof.Machine

variable {s : State} {f : RxFrame}

/-! ### Accepted frames, at the head and at the other units -/

/-- The head notes when it heard the sender; nothing else of the roster changes (R263). -/
theorem hear_writes (f : RxFrame) (s : State) :
    ∃ v : Vector RosterEntry 61, hear f s = s.modRing (fun r => { r with roster := v }) ∧
      ∀ i : Fin 61, v[i] = { s.ring.roster[i] with heard := (v[i]).heard } ∧ (f.src ≠ rosterAddr i → v[i] = s.ring.roster[i]) := by
  have hsame : s = s.modRing (fun r => { r with roster := s.ring.roster }) := rfl
  unfold hear
  split
  next i hi =>
    split
    · refine ⟨_, rfl, fun j => ?_⟩
      by_cases hj : j = i
      · rw [hj, vmod_get_self]
        exact ⟨rfl, fun hne => absurd (eq_rosterAddr hi) hne⟩
      · rw [vmod_get_other _ _ _ _ (Ne.symm hj)]
        exact ⟨rfl, fun _ => rfl⟩
    · exact ⟨_, hsame, fun _ => ⟨rfl, fun _ => rfl⟩⟩
  · exact ⟨_, hsame, fun _ => ⟨rfl, fun _ => rfl⟩⟩

theorem hear_of_head {i : Fin 61} (hh : s.ring.isHead = true) (hsrc : rosterIdx f.src = some i) :
    hear f s = s.modRing (fun r => { r with roster := vmod r.roster i (fun e => { e with heard := s.time.ticks }) }) := by
  simp only [hear, hsrc, hh, if_true]

/-- A unit that has accepted a frame. -/
def accepted (f : RxFrame) (s : State) : State := noteFrame f (hear f s)

theorem accepted_of_unit (hu : s.ring.isHead = false) (f : RxFrame) : accepted f s = noteFrame f s :=
  congrArg (noteFrame f) (hear_of_unit hu f)

/-- Accepting a frame writes what is remembered of it and when its sender was heard. -/
theorem accepted_writes (f : RxFrame) (s : State) :
    ∃ l, ∃ v : Vector RosterEntry 61, accepted f s = s.modRing (fun r => { r with lastSeen := l, roster := v }) ∧
      ∀ i : Fin 61, v[i] = { s.ring.roster[i] with heard := (v[i]).heard } ∧ (f.src ≠ rosterAddr i → v[i] = s.ring.roster[i]) := by
  obtain ⟨v, hv, hkeep⟩ := hear_writes f s
  rw [accepted, hv]
  exact ⟨_, v, rfl, hkeep⟩

/-- A unit that hears a frame uses it once it has accepted it. -/
theorem withFrame_accepts {ty : BitVec 4} (h : Hears ty f s) (use : State → State) : withFrame ty f s use = use (accepted f s) := by
  obtain ⟨hon, hgo, hgood, hty, hme, hnew⟩ := h
  simp [withFrame, hon, hgo, hgood, hty, hme, hnew, accepted]

theorem withMbox_accepts {kind : Nat} (h : HearsMbox kind f s) (use : State → State) : withMbox kind f s use = use (accepted f s) := by
  obtain ⟨hears, hkind, hfinal⟩ := h
  obtain ⟨l, v, hacc, -⟩ := accepted_writes f s
  rw [withMbox, withFrame_accepts hears]
  refine if_neg (not_or.2 ⟨not_not.2 hkind, not_not.2 ?_⟩)
  rw [hacc]
  exact hfinal

/-! ### Bytes -/

theorem leAt_one (bs : List Byte) (k : Nat) : leAt bs k 1 = (bs.getD k 0).toNat := by
  rw [leAt, leNat_take_succ]
  simp [leNat, List.getD_eq_getElem?_getD]

theorem leAt_take {bs : List Byte} {n off m : Nat} (h : off + m ≤ n) : leAt (bs.take n) off m = leAt bs off m := by
  rw [leAt, leAt, List.drop_take, List.take_take, Nat.min_eq_left (by omega)]

section
variable (kind : Nat) (origin final : BitVec 6) (part ofs : Nat) (body : List Byte)

theorem mboxPayload_length : (mboxPayload kind origin final part ofs body).length = 8 + body.length := by
  simp only [mboxPayload, List.length_append, leBytes_length]

theorem mboxPayload_kind : leAt (mboxPayload kind origin final part ofs body) 0 1 = kind % 256 := by
  simp only [mboxPayload, List.append_assoc]
  exact leAt_leBytes_append 1 kind _

theorem mboxPayload_part : leAt (mboxPayload kind origin final part ofs body) 3 1 = part % 256 := by
  simp only [mboxPayload, List.append_assoc]
  rw [leAt_leBytes_skip (by decide), leAt_leBytes_skip (by decide), leAt_leBytes_skip (by decide)]
  exact leAt_leBytes_append 1 part _

theorem mboxPayload_body (k m : Nat) : leAt (mboxPayload kind origin final part ofs body) (8 + k) m = leAt body k m := by
  rw [mboxPayload, leAt_append_right (by simp only [List.length_append, leBytes_length]; omega)]
  simp only [List.length_append, leBytes_length]
  rw [Nat.add_sub_cancel_left]

end

/-- A frame leaves at least one copy at the end of the queue (R261). -/
theorem sendFrame_last (ty : BitVec 4) (dst : BitVec 6) (p : List Byte) (tag : Option (Fin 64)) (s : State) :
    ∃ fs x, (sendFrame ty dst p tag s).ring.txq = fs ++ [x] ∧ x.typ = ty ∧ x.payload = p := by
  obtain h | ⟨l, g, hl⟩ := List.eq_nil_or_concat (routeTo s dst).1
  · exact absurd h (routeTo_ne_nil s dst)
  · have hq := sendFrame_queues ty dst p tag s
    rw [Queues, hl, List.concat_eq_append, List.map_append, ← List.append_assoc] at hq
    exact ⟨_, _, hq, rfl, rfl⟩

end Sys2Proof.Machine
end

section
/-! Mailbox frames on the ring: commands, responses, bulk data, the mirror's halves and the head's relay (R261, R271, R279 to R281, R300 to
R305). -/

namespace Sys2Proof.Machine

variable {s : State} {f : RxFrame} {a : BitVec 6} {d r : List Byte} {u : Fin 64} {us : List (Fin 64)} {c : Cmd}

/-! ### Commands of other units (R300, R302, R303) -/

/-- Bulk data of a unit whose command was refused count again from its next command on (R302). -/
def undiscarded (a : BitVec 6) (s : State) : State := s.modMb (fun m => { m with discard := m.discard.filter (· ≠ a) })

/-- The command of a ring origin as it waits in its tag. -/
def ringCmd (a : BitVec 6) (d : List Byte) (s : State) : Cmd :=
  { desc := d, origin := .ring a (BitVec.ofNat 8 (dTag d)), order := s.mb.claims, remote := false, started := false, waiting := false,
    got := 0, yielded := if s.hw.frozen then 2 else 0, claimed := s.time.ticks }

/-- Tag u as claimed by it. -/
def ringClaimed (u : Fin 64) (a : BitVec 6) (d : List Byte) (s : State) : State :=
  (undiscarded a s).modMb (fun m => { m with claims := m.claims + 1, tags := vmod m.tags u (fun _ => some (ringCmd a d s)) })

theorem bulkClaimable_ring (a : BitVec 6) (tag : Byte) (b : BulkState) : bulkClaimable (.ring a tag) b = decide (b = .free) := by
  cases b <;> rfl

section
variable (hfree : freeTags s.mb = u :: us) (hq : ringQueued s.mb < 8) (hready : s.hw.mpReady = true) (hswap : s.hw.swapping = false)
include hfree hq hready hswap

theorem takeRingCommand_claims (hb : dBulk d = true → s.mb.bulk = .free) :
    takeRingCommand a d s = if dBulk d then setBulk (.claimed u) (ringClaimed u a d s) else ringClaimed u a d s := by
  have hroom : (dBulk d && !bulkClaimable (.ring a (BitVec.ofNat 8 (dTag d))) s.mb.bulk || decide (8 ≤ ringQueued s.mb)) = false := by
    rw [bulkClaimable_ring, decide_eq_false (Nat.not_le.2 hq), Bool.or_false]
    cases hd : dBulk d
    · rfl
    · rw [hb hd]; rfl
  have hclaim : claimTag d (.ring a (BitVec.ofNat 8 (dTag d))) false 0 (undiscarded a s) = some (u, ringClaimed u a d s) := by
    rw [claimTag, show freeTags (undiscarded a s).mb = u :: us from hfree]
    rfl
  refine (if_neg (show ¬ _ = true from by rw [Bool.not_eq_true]; exact hroom)).trans ?_
  rw [undiscarded] at hclaim
  rw [hclaim]
  exact (if_neg (show ¬ s.hw.swapping = true by rw [hswap]; decide)).trans
    (if_neg (show ¬ (!s.hw.mpReady) = true by rw [hready]; decide))

end

theorem takeRingCommand_busy (hd : dBulk d = true) (hb : s.mb.bulk ≠ .free) :
    takeRingCommand a d s = refuseRing a d .busy (undiscarded a s) := by
  refine if_pos ?_
  rw [show (s.modMb _).mb.bulk = s.mb.bulk from rfl, bulkClaimable_ring, hd, decide_eq_false hb]
  rfl

/-- A refusal leaves the tags, and its status goes back as a response (R300, R302). -/
theorem refuseRing_answers (a : BitVec 6) (d : List Byte) (st : Status) (s : State) :
    (refuseRing a d st s).mb.tags = s.mb.tags ∧ ∃ fs x, (refuseRing a d st s).ring.txq = fs ++ [x] ∧ x.typ = tyMbox ∧
      leAt x.payload 0 1 = 2 ∧ leAt x.payload 10 1 = st.code := by
  have hst : st.code < 256 := by cases st <;> decide
  have htag : dTag d < 256 := leAt_lt d 4 1
  obtain ⟨fs, x, hq, hty, hp⟩ := sendFrame_last tyMbox a (mboxPayload 2 a a 0 0 (respBytes d st.code s.unitByte (dTag d) [] 0 0 0)) none
    (s.modMb (fun m => { m with discard := if dBulkIn d then a :: m.discard else m.discard }))
  refine ⟨rfl, fs, x, hq, hty, ?_, ?_⟩
  · rw [hp]
    exact mboxPayload_kind 2 a a 0 0 _
  · rw [hp]
    exact (mboxPayload_body 2 a a 0 0 _ 2 1).trans (respBytes_head d [] st.code s.unitByte (dTag d) 0 0 0 hst htag).2.1

theorem exec_mboxCommandReceived (h : HearsMbox 1 f s) (hu : s.ring.isHead = false) :
    exec (.mboxCommandReceived f) s = .next (takeRingCommand (mboxOrigin f) (padTo 64 (f.payload.drop 8)) (noteFrame f s)) := by
  rw [← accepted_of_unit hu]
  exact congrArg Host.Outcome.next (withMbox_accepts h _)

/-! ### Responses (R300, R301, R305) -/

theorem takePushReply_of_none (hpush : s.ring.push = []) (src : BitVec 6) (r : List Byte) : takePushReply src r s = s := by
  unfold takePushReply
  rw [hpush]
  exact ite_self s

theorem takeDupReport_of_unit (hu : s.ring.isHead = false) (r : List Byte) : takeDupReport r s = s := if_pos (by rw [hu]; rfl)

/-- YIELD and LATENCY as the origin writes them into a response of 64 bytes (R294, R305). -/
theorem overlay_yield_latency (hr : r.length = 64) (y : Byte) (l : Nat) :
    overlay (overlay r 10 [y]) 12 (leBytes 4 l) = r.take 10 ++ [y, r.getD 11 0] ++ leBytes 4 l ++ r.drop 16 := by
  have hnext : r.drop 11 = r.getD 11 0 :: r.drop 12 := by
    rw [List.getD_eq_getElem _ _ (by omega)]
    exact List.drop_eq_getElem_cons (by omega)
  have hyield : overlay r 10 [y] = (r.take 10 ++ [y, r.getD 11 0]) ++ r.drop 12 := by
    rw [overlay, List.length_singleton, hnext]
    simp only [List.append_assoc, List.cons_append, List.nil_append]
  have hlen : (r.take 10 ++ [y, r.getD 11 0]).length = 12 := by simp [hr]
  rw [hyield, overlay, leBytes_length, List.take_left' hlen, ← List.drop_drop, List.drop_left' hlen, List.drop_drop]

/-- The response as the origin places it. -/
def placedResponse (r : List Byte) (c : Cmd) (s : State) : List Byte :=
  r.take 10 ++ [r.getD 10 0 ||| c.yielded, r.getD 11 0] ++ leBytes 4 (latencyUs c s.fresh s.time.ticks) ++ r.drop 16

theorem placedResponse_length (hr : r.length = 64) : (placedResponse r c s).length = 64 := by
  simp [placedResponse, hr]

/-- A response to a command that does not own the bulk window is placed and frees its tag. -/
theorem takeResponse_places (hr : r.length = 64) (ht : answersTag s r = some (u, c)) (hb : s.mb.bulk ≠ .claimed u) :
    takeResponse r s = freeTag u (place (placedResponse r c s) s.draw.2) := by
  have hbulk : bulkAnswered u s.draw.2 = s.draw.2 := if_neg hb
  have hyield : leBytes 1 ((BitVec.ofNat 8 (leAt r 10 1) ||| c.yielded).toNat) = [r.getD 10 0 ||| c.yielded] := by
    rw [leAt_one, BitVec.ofNat_toNat, BitVec.setWidth_eq, leBytes, leBytes, BitVec.ofNat_toNat, BitVec.setWidth_eq]
  simp only [takeResponse, ht, hbulk, hyield, overlay_yield_latency hr]
  rfl

theorem exec_mboxResponseReceived (h : HearsMbox 2 f s) (hpush : s.ring.push = []) (hu : s.ring.isHead = false)
    (ht : answersTag s (padTo 64 (f.payload.drop 8)) = some (u, c)) (hb : s.mb.bulk ≠ .claimed u) :
    exec (.mboxResponseReceived f) s =
      .next (freeTag u (place (placedResponse (padTo 64 (f.payload.drop 8)) c s) (noteFrame f s).draw.2)) := by
  show Host.Outcome.next (withMbox 2 f s _) = _
  rw [withMbox_accepts h, accepted_of_unit hu]
  dsimp only
  rw [takePushReply_of_none (s := noteFrame f s) hpush, takeDupReport_of_unit (s := noteFrame f s) hu]
  exact congrArg Host.Outcome.next (takeResponse_places (padTo_length _ _) ht hb)

/-! ### Bulk data (R302) -/

/-- Bulk data that fit the window land at their offset. -/
theorem putBulkAt_writes {ofs : Nat} {bs : List Byte} (h : ofs + bs.length ≤ 4096) (s : State) :
    (putBulkAt ofs bs s).mb = { s.mb with win := memPuts 0 s.mb.win (0x2000 + ofs) bs } ∨ (bs = [] ∧ putBulkAt ofs bs s = s) := by
  have hfit : bs.take (4096 - ofs) = bs := List.take_of_length_le (by omega)
  unfold putBulkAt
  rw [hfit]
  cases bs with
  | nil => exact .inr ⟨rfl, rfl⟩
  | cons b bs => exact .inl rfl

theorem putBulkAt_window {ofs : Nat} {bs : List Byte} (h : ofs + bs.length ≤ 4096) (s : State) :
    (∀ k (hk : k < bs.length), memGet 0 (putBulkAt ofs bs s).mb.win (0x2000 + ofs + k) = bs[k]) ∧
      (∀ x, x < 0x2000 + ofs ∨ 0x2000 + ofs + bs.length ≤ x → memGet 0 (putBulkAt ofs bs s).mb.win x = memGet 0 s.mb.win x) ∧
      (putBulkAt ofs bs s).mb.tags = s.mb.tags := by
  obtain hw | ⟨rfl, hw⟩ := putBulkAt_writes h s
  · rw [hw]
    exact ⟨fun k hk => Laws.memGet_memPuts_in hk, fun x hx => Laws.memGet_memPuts_out hx, rfl⟩
  · rw [hw]
    exact ⟨fun k hk => absurd hk (Nat.not_lt_zero k), fun x _ => rfl, rfl⟩

/-- Bulk-out data of the unit's own command, which owns the window. -/
theorem takeBulk_own {ofs : Nat} {bs : List Byte} (hb : s.mb.bulk = .claimed u) (ht : s.mb.tags[u] = some c) (hrem : c.remote = true)
    (hout : dBulkOut c.desc = true) : takeBulk s.ring.addr ofs bs s = putBulkAt ofs bs s := by
  have howner : bulkOwner s.mb = some (u, c) := by simp only [bulkOwner, hb, ht, Option.map_some]
  simp only [takeBulk, howner, hrem, hout, Bool.and_self, if_true]

theorem exec_mboxBulkReceived (h : HearsMbox 3 f s) (hu : s.ring.isHead = false) :
    exec (.mboxBulkReceived f) s = .next (takeBulk (mboxOrigin f) (leAt f.payload 4 4) (f.payload.drop 8) (noteFrame f s)) := by
  rw [← accepted_of_unit hu]
  exact congrArg Host.Outcome.next (withMbox_accepts h _)

/-! ### The mirror (R279, R280) -/

theorem exec_mirrorHalfReceived (h : HearsMbox 4 f s) :
    exec (.mirrorHalfReceived f) s =
      .next (takeHalf (mboxOrigin f) (decide (leAt f.payload 3 1 = 1)) (f.payload.drop 8) (accepted f s)) :=
  congrArg Host.Outcome.next (withMbox_accepts h _)

/-- The head without the halves of a source that have come. -/
def halvesTaken (src : BitVec 6) (s : State) : State :=
  s.modRing (fun r => { r with halves := r.halves.filter (fun h => decide (h.src ≠ src)) })

/-- The second half of a unit whose entry is not held makes the entry whole, and its store is asked for. -/
theorem takeHalf_second {src : BitVec 6} {body : List Byte} {i : Fin 61} {h : MirrorHalf} (hh : s.ring.isHead = true)
    (hsrc : rosterIdx src = some i) (hno : mirrorHeld (mirrorEntry s i) = false)
    (hfirst : s.ring.halves.find? (fun h => decide (h.src = src) && !h.part) = some h) :
    takeHalf src true body s =
      openStore (.mirror i (headEntry s.ring i (h.body ++ padTo 128 body))) none (halvesTaken src s) := by
  have hheld : ¬ mirrorHeld (mirrorEntry (halvesTaken src s) i) = true := by
    rw [Bool.not_eq_true]
    exact hno
  have hhead : (halvesTaken src s).ring.isHead = true := hh
  simp only [takeHalf, hfirst, Bool.not_true, Bool.false_eq_true, if_false]
  rw [show s.modRing _ = halvesTaken src s from rfl, hhead, hsrc]
  exact if_neg hheld

theorem overlay_length {bs new : List Byte} {off : Nat} (h : off + new.length ≤ bs.length) : (overlay bs off new).length = bs.length := by
  simp only [overlay, List.length_append, List.length_take, List.length_drop]
  omega

theorem leAt_padTo {bs : List Byte} {n off m : Nat} (hn : off + m ≤ n) (h : off + m ≤ bs.length) : leAt (padTo n bs) off m = leAt bs off m := by
  rw [padTo, leAt_append_left (by rw [List.length_take]; omega), leAt_take hn]

/-- ADDR of an entry is the head's, and from GEN on it is the unit's content (R279, R280). -/
theorem headEntry_fields (r : Ring) (i : Fin 61) {c : List Byte} (hc : 128 ≤ c.length) :
    leAt (headEntry r i c) 8 1 = i.val + 2 ∧ (c.length = 256 → (headEntry r i c).drop 12 = c.drop 12) := by
  unfold headEntry
  generalize hnew : leBytes 1 (rosterAddr i).toNat ++ leBytes 1 (r.roster[i]).up.toNat ++ leBytes 1 (r.roster[i]).down.toNat ++
    leBytes 1 (1 + 2 * bitN (bitB (leAt c 11 1) 1)) = new
  have hlen : new.length = 4 := by rw [← hnew]; simp only [List.length_append, leBytes_length]
  have hover : (overlay c 8 new).length = c.length := overlay_length (by omega)
  refine ⟨?_, fun h256 => ?_⟩
  · rw [leAt_padTo (by decide) (by omega), leAt_overlay (k := 0) (by omega) (by omega), ← hnew]
    simp only [List.append_assoc]
    rw [leAt_leBytes_append, rosterAddr_toNat]
    omega
  · rw [padTo_self (hover.trans h256), overlay, List.drop_left' (by rw [List.length_append, List.length_take]; omega), hlen]

/-- The 256 bytes of a unit's content (R279). -/
theorem mirrorContent_length {digest : List Byte} (h : digest.length = 8) (s : State) : (mirrorContent digest s).length = 256 := by
  have hcir := length_flatMap_of_entries (fins 24) fun c : Fin 24 => leBytes_length 4 (s.circuits[c]).cfgW.toNat
  have hport := length_flatMap_of_entries (fins 24) fun p : Fin 24 => leBytes_length 2 (s.ports[p]).cfgW.toNat
  have hfins : (fins 24).length = 24 := List.length_finRange
  simp only [mirrorContent, List.length_append, leBytes_length, padTo_length, hcir, hport, hfins, h]

theorem mirrorContent_uid (digest : List Byte) (s : State) : leAt (mirrorContent digest s) 0 8 = Config.uid.toNat := by
  simp only [mirrorContent, List.append_assoc]
  exact (leAt_leBytes_append 8 _ _).trans (Nat.mod_eq_of_lt Config.uid.isLt)

/-- A half of 128 bytes goes to the head in one frame of 136. -/
theorem sendHalf (hu : s.ring.isHead = false) (k : Nat) {b : List Byte} (hb : b.length = 128) :
    ∃ x, Queues s (sendFrame tyMbox 1 (mboxPayload 4 s.ring.addr 1 k 0 b) none s) [x] ∧ x.typ = tyMbox ∧ x.dst = 1 ∧
      x.payload = mboxPayload 4 s.ring.addr 1 k 0 b ∧ x.payload.length = 136 := by
  obtain ⟨g, hq⟩ := sendFrame_toHead hu tyMbox (mboxPayload 4 s.ring.addr 1 k 0 b) none
  exact ⟨_, hq, rfl, rfl, rfl, by rw [mkFrame, mboxPayload_length, hb]⟩

/-- The unit as its next content goes out (R280). -/
def mirrorSending (s : State) : State := s.modRing (fun r => { r with mirrorGen := r.mirrorGen + 1, mirrorDue := false })

/-- The content of that generation. -/
def sentContent (s : State) : List Byte := mirrorContent (confDigest (mirrorSending s)) (mirrorSending s)

theorem sentContent_length (s : State) : (sentContent s).length = 256 := mirrorContent_length (leBytes_length 8 _) _

def firstHalfSent (s : State) : State :=
  sendFrame tyMbox 1 (mboxPayload 4 s.ring.addr 1 0 0 ((sentContent s).take 128)) none (mirrorSending s)

def secondHalfSent (s : State) : State :=
  sendFrame tyMbox 1 (mboxPayload 4 s.ring.addr 1 1 0 ((sentContent s).drop 128)) none (firstHalfSent s)

theorem exec_mirrorSend (hmp : s.mpRuns = true) (hsync : s.time.syncOk = true) (hdue : s.ring.mirrorDue = true) (hu : s.ring.isHead = false)
    (hlow : 2 ≤ s.ring.addr.toNat) (hhigh : s.ring.addr.toNat ≤ 62) : exec .mirrorSend s = .next (secondHalfSent s) := by
  have hidx : (rosterIdx s.ring.addr).isSome = true := by rw [rosterIdx, dif_pos ⟨hlow, hhigh⟩]; rfl
  exact congrArg Host.Outcome.next (if_pos (by rw [hmp, hsync, hdue, hidx, hu]; rfl))

/-! ### Relay (R261) -/

/-- A frame that the head sends again in its own name. -/
theorem resend_queues (g : RingSel) (dst : BitVec 6) (f : RxFrame) (s : State) :
    Queues s (resend g dst f s) [{ mkFrame g f.typ dst 1 s.ring.txSeq[f.typ.toFin] f.payload none with relay := true }] := rfl

theorem accepted_txq (f : RxFrame) (s : State) : (accepted f s).ring.txq = s.ring.txq := by
  obtain ⟨l, v, h, -⟩ := accepted_writes f s
  rw [h]
  rfl

section
variable (hon : s.coreOn = true) (hh : s.ring.isHead = true) (hgood : frameGood f = true)
include hon hh hgood

theorem exec_relay_mbox (hty : f.typ = tyMbox) (hdst : f.dst ≠ broadcast) (hme : frameForMe s f = true) (hnew : frameSeen s f = false)
    (hfinal : mboxFinal f ≠ 1) : exec (.relay f) s = .next (resend (headRing s (mboxFinal f)) (mboxFinal f) f (accepted f s)) := by
  have hty' : tyMbox ≠ tyAlign := by decide
  show execRelay f s = _
  simp only [execRelay, hon, hh, hgood, hty, hty', hdst, hme, hnew, hfinal, Bool.not_true, Bool.or_self, Bool.false_eq_true, if_false,
    decide_true, Bool.and_self, Bool.not_false, ne_eq, not_false_eq_true, if_true]
  rfl

theorem exec_relay_broadcast {g : Nat} (hty : f.typ ≠ tyAlign) (hdst : f.dst = broadcast) (hsrc : f.src ≠ 1) (hgap : gapPos s = some g) :
    exec (.relay f) s = .next (resend (if posOf s f.src ≤ g then .secondary else .primary) broadcast f s) := by
  show execRelay f s = _
  simp only [execRelay, hon, hh, hgood, hty, hdst, hsrc, hgap, Bool.not_true, Bool.or_self, Bool.false_eq_true, if_false, if_true]

end

/-- Settles O51: a frame that the unit accepts goes through its operation, and each operation writes one part of the mailbox or of the
mirror. -/
theorem ringMailboxTakesEffect : Obligations.RingMailboxTakesEffect := by
  refine ⟨fun f s u us h hu hfree hq hready hswap => ⟨fun hd => ?_, fun hd hb => ?_, fun hd hb => ?_⟩,
    fun f s u c h hpush hu ht hb _ => ?_, fun f s u c h hu hb ht hrem hout horg hfit => ?_,
    fun f s h hh _ => ⟨fun hpart => ?_, fun i m hpart hsrc hno hfirst => ?_⟩,
    fun s hmp hsync hdue hu hlow hhigh => ?_, fun f s hon hh hgood hty hdst hme hnew hfinal => ?_,
    fun f g s hon hh hgood hty hdst hsrc hgap => ?_⟩
  · have hclaim := takeRingCommand_claims (s := noteFrame f s) (a := mboxOrigin f) (d := padTo 64 (f.payload.drop 8)) hfree hq hready hswap
      fun h => absurd (hd.symm.trans h) Bool.false_ne_true
    rw [hd, if_neg Bool.false_ne_true] at hclaim
    exact ⟨_, _, (exec_mboxCommandReceived h hu).trans (congrArg _ hclaim), vmod_get_self _ u _, rfl, rfl, rfl, rfl, rfl, rfl,
      fun v hv => vmod_get_other _ u v _ hv.symm⟩
  · have hclaim := takeRingCommand_claims (s := noteFrame f s) (a := mboxOrigin f) (d := padTo 64 (f.payload.drop 8)) hfree hq hready hswap
      fun _ => hb
    rw [hd, if_pos rfl] at hclaim
    exact ⟨_, (exec_mboxCommandReceived h hu).trans (congrArg _ hclaim), rfl⟩
  · obtain ⟨htags, fs, x, htxq, hty, hkind, hst⟩ := refuseRing_answers (mboxOrigin f) (padTo 64 (f.payload.drop 8)) .busy
      (undiscarded (mboxOrigin f) (noteFrame f s))
    exact ⟨_, x, fs, (exec_mboxCommandReceived h hu).trans (congrArg _ (takeRingCommand_busy hd hb)), htags, htxq, hty, hkind, hst⟩
  · have hlen := placedResponse_length (c := c) (s := s) (padTo_length 64 (f.payload.drop 8))
    refine ⟨_, exec_mboxResponseReceived h hpush hu ht hb, vmod_get_self _ u _, rfl, ?_, fun v hv => vmod_get_other _ u v _ hv.symm⟩
    exact (place_slot _ (noteFrame f s).draw.2).trans (padTo_self hlen)
  · have hexec := exec_mboxBulkReceived h hu
    obtain ⟨hin, hout', htags⟩ := putBulkAt_window hfit (noteFrame f s)
    rw [horg, show s.ring.addr = (noteFrame f s).ring.addr from rfl, takeBulk_own (s := noteFrame f s) hb ht hrem hout] at hexec
    exact ⟨_, hexec, hin, hout', htags⟩
  · obtain ⟨l, v, hacc, -⟩ := accepted_writes f s
    have hexec := exec_mirrorHalfReceived h
    rw [hacc, hpart] at hexec
    exact ⟨_, hexec, rfl, _, List.mem_append_right _ (List.mem_singleton_self _), rfl, rfl, rfl⟩
  · obtain ⟨l, v, hacc, -⟩ := accepted_writes f s
    have hexec := exec_mirrorHalfReceived h
    rw [hpart, decide_eq_true rfl, takeHalf_second (h := m) (by rw [hacc]; exact hh) hsrc (by rw [hacc]; exact hno)
      (by rw [hacc]; exact hfirst)] at hexec
    have hlen : (m.body ++ padTo 128 (f.payload.drop 8)).length = m.body.length + 128 := by rw [List.length_append, padTo_length]
    obtain ⟨haddr, hbody⟩ := headEntry_fields (accepted f s).ring i (c := m.body ++ padTo 128 (f.payload.drop 8)) (by omega)
    exact ⟨_, _, hexec, by rw [hacc]; rfl, fun h128 => hbody (by omega), haddr⟩
  · have hlen := sentContent_length s
    have hfirst : ((sentContent s).take 128).length = 128 := by rw [List.length_take]; omega
    have hsecond : ((sentContent s).drop 128).length = 128 := by rw [List.length_drop]; omega
    obtain ⟨x, hx, hty, hdst, hpx, hlx⟩ := sendHalf (s := mirrorSending s) hu 0 hfirst
    obtain ⟨y, hy, -, -, hpy, hly⟩ := sendHalf (s := firstHalfSent s) hu 1 hsecond
    refine ⟨_, x, y, exec_mirrorSend hmp hsync hdue hu hlow hhigh, ?_, rfl, rfl, hty, hdst, ?_, ?_, ?_, hlx, hly, ?_⟩
    · exact hy.trans ((congrArg (· ++ [y]) hx).trans (List.append_assoc _ _ _))
    · rw [hpx]
      exact mboxPayload_kind 4 _ 1 0 0 _
    · rw [hpx]
      exact mboxPayload_part 4 _ 1 0 0 _
    · rw [hpy]
      exact mboxPayload_part 4 _ 1 1 0 _
    · rw [hpx]
      exact (mboxPayload_body 4 _ 1 0 0 _ 0 8).trans ((leAt_take (by decide)).trans (mirrorContent_uid _ _))
  · exact ⟨_, _, exec_relay_mbox hon hh hgood hty hdst hme hnew hfinal,
      (resend_queues _ _ _ _).trans (congrArg (· ++ _) (accepted_txq f s)), rfl, rfl, rfl, rfl, hty⟩
  · exact ⟨_, _, exec_relay_broadcast hon hh hgood hty hdst hsrc hgap, resend_queues _ _ _ _, rfl, rfl, rfl, rfl, rfl, rfl⟩

end Sys2Proof.Machine
end

section
/-! Gaps of the ring: reports, announcements and the topology at AT (R261, R263, R267 to R269). -/

namespace Sys2Proof.Machine

variable {s : State} {f : RxFrame} {x y : BitVec 6} {b : Break} {w : Wrap}

/-! ### Units that the head hears -/

theorem reachable_of_present {i : Fin 61} (h : (s.ring.roster[i]).st = .present) : reachable s (rosterAddr i) = true := by
  simp only [reachable, rosterPresent, rosterIdx_rosterAddr, h, decide_true, Bool.or_true, Bool.true_or]

/-- A frame of a PRESENT unit changes nothing of who is heard. -/
theorem reachable_accepted (hsrc : ∀ i : Fin 61, f.src = rosterAddr i → (s.ring.roster[i]).st = .present) :
    reachable (accepted f s) = reachable s := by
  obtain ⟨l, v, hacc, hv⟩ := accepted_writes f s
  funext a
  cases ha : rosterIdx a with
  | none => simp only [reachable, rosterPresent, ha]
  | some i =>
    by_cases hi : f.src = rosterAddr i
    · have hst : ((accepted f s).ring.roster[i]).st = .present := by
        rw [hacc]
        exact (congrArg RosterEntry.st (hv i).1).trans (hsrc i hi)
      rw [eq_rosterAddr ha, reachable_of_present (hsrc i hi), reachable_of_present hst]
    · have hsame : (accepted f s).ring.roster[i] = s.ring.roster[i] := by
        rw [hacc]
        exact (hv i).2 hi
      simp only [reachable, rosterPresent, rosterHeld, ha, hsame]
      rw [hacc]
      rfl

/-- The head, or a unit of the chain that the head hears. -/
def Known (s : State) (a : BitVec 6) : Prop := a = 1 ∨ (a ∈ s.ring.chain ∧ reachable s a = true)

theorem known_find {l : List (BitVec 6)} (hl : ∀ a ∈ l, a ∈ s.ring.chain) : Known s ((l.find? (reachable s)).getD 1) := by
  cases h : l.find? (reachable s) with
  | none => exact .inl rfl
  | some a => exact .inr ⟨hl a (List.mem_of_find?_eq_some h), List.find?_some h⟩

theorem known_nextUnit (s : State) (a : BitVec 6) : Known s (nextUnit s a) := known_find fun _ => List.mem_of_mem_drop

theorem known_prevUnit (s : State) (a : BitVec 6) : Known s (prevUnit s a) :=
  known_find fun _ h => List.mem_of_mem_take (List.mem_reverse.1 h)

/-- Seen from its own place up, a known unit is the nearest one (R267). -/
theorem lastUp_upPos (h : Known s x) : lastUp s (upPos s.ring x) = x := by
  by_cases h1 : x = 1
  · rw [upPos, if_pos h1, lastUp, List.take_zero, h1]
    rfl
  · obtain ⟨hmem, hreach⟩ := h.resolve_left h1
    have hlt : s.ring.chain.findIdx (· == x) < s.ring.chain.length := List.findIdx_lt_length_of_exists ⟨x, hmem, beq_self_eq_true x⟩
    have hat : s.ring.chain[s.ring.chain.findIdx (· == x)] = x := beq_iff_eq.1 (List.findIdx_getElem (w := hlt))
    rw [upPos, if_neg h1, lastUp, List.take_succ_eq_append_getElem hlt, hat, List.reverse_append, List.reverse_singleton,
      List.singleton_append, List.find?_cons_of_pos hreach]
    rfl

/-- And so seen from its own place down. -/
theorem firstDown_downPos (h : Known s x) : firstDown s (downPos s.ring x - 1) = x := by
  by_cases h1 : x = 1
  · rw [downPos, if_pos h1, firstDown, Nat.add_sub_cancel, List.drop_length, h1]
    rfl
  · obtain ⟨hmem, hreach⟩ := h.resolve_left h1
    have hlt : s.ring.chain.findIdx (· == x) < s.ring.chain.length := List.findIdx_lt_length_of_exists ⟨x, hmem, beq_self_eq_true x⟩
    have hat : s.ring.chain[s.ring.chain.findIdx (· == x)] = x := beq_iff_eq.1 (List.findIdx_getElem (w := hlt))
    rw [downPos, if_neg h1, firstDown, Nat.add_sub_cancel, List.drop_eq_getElem_cons hlt, hat, List.find?_cons_of_pos hreach]
    rfl

/-! ### What a report notes (R267, R268) -/

theorem note_portB_down (h : s.ring.breaks = []) :
    noteA x true (noteB x false s) = s.modRing (fun r => { r with
      breaks := [{ up := x, down := nextUnit s x, upOk := false, downOk := decide (nextUnit s x = x) }] }) := by
  have hB : noteB x false s = s.modRing (fun r => { r with breaks := [{ up := x, down := nextUnit s x, upOk := false, downOk := false }] }) := by
    simp only [noteB, h]
    rfl
  rw [hB]
  by_cases hn : nextUnit s x = x <;> simp [noteA, State.modRing, hn]

theorem note_portA_down (h : s.ring.breaks = []) :
    noteA x false (noteB x true s) = s.modRing (fun r => { r with
      breaks := [{ up := prevUnit s x, down := x, upOk := false, downOk := false }] }) := by
  have hB : noteB x true s = s := by
    simp only [noteB, h, Bool.true_or, if_true, List.map_nil]
    rw [State.modRing, ← h]
  rw [hB]
  simp only [noteA, h]
  rfl

theorem note_both_up (h : s.ring.breaks = [{ up := x, down := y, upOk := false, downOk := true }]) (hy : y ≠ x) :
    noteA x true (noteB x true s) = s.modRing (fun r => { r with breaks := [{ up := x, down := y, upOk := true, downOk := true }] }) := by
  simp [noteA, noteB, State.modRing, h, hy]

/-! ### The head looks at its breaks -/

/-- The ends of a break at the head's own ports. -/
def ownEnds (r : Ring) (b : Break) : Break :=
  { b with upOk := if b.up = 1 then r.portB.reported else b.upOk, downOk := if b.down = 1 then r.portA.reported else b.downOk }

/-- A broken place is not whole while one end that the head hears is down (R268). -/
theorem closed_of_up (hok : b.upOk = false) (hreach : reachable s b.up = true) : b.closed s = false := by
  simp [Break.closed, hok, hreach]

theorem closed_of_down (hok : b.downOk = false) (hreach : reachable s b.down = true) : b.closed s = false := by
  simp [Break.closed, hok, hreach]

/-- The head after it has dropped the broken places that are whole again. -/
def breaksLooked (s : State) : State :=
  s.modRing (fun r => { r with breaks := (r.breaks.map (ownEnds r)).filter (fun b => !b.closed s) })

theorem headTopology_of_head (hh : s.ring.isHead = true) :
    headTopology s = if enclosing (breaksLooked s) = nextGap s.ring then breaksLooked s
      else announce (enclosing (breaksLooked s)) (breaksLooked s) :=
  if_neg (by rw [hh]; decide)

/-- The announcement of a topology (R267). -/
def announced (g : Option (BitVec 6 × BitVec 6)) (s : State) : Wrap :=
  { up := BitVec.ofNat 8 (g.getD (0, 0)).1.toNat, down := BitVec.ofNat 8 (g.getD (0, 0)).2.toNat,
    at_ := (s.nowNs + 3000000 + 999999) / 1000000 * 1000000 }

theorem announced_at (g : Option (BitVec 6 × BitVec 6)) (s : State) :
    (announced g s).at_ % 1000000 = 0 ∧ s.nowNs + 3000000 ≤ (announced g s).at_ ∧ (announced g s).at_ < s.nowNs + 4000000 := by
  simp only [announced]
  omega

section
variable (hh : s.ring.isHead = true) (hpend : s.ring.wrapPend = none) (hstep : s.time.step = none)
include hh hpend hstep

/-- A topology other than the one in force is announced. -/
theorem headTopology_announces (hne : enclosing (breaksLooked s) ≠ nextGap s.ring) :
    headTopology s = (breaksLooked s).modRing (fun r => { r with wrapPend := some (announced (enclosing (breaksLooked s)) s) }) := by
  have hfree : ¬ ((breaksLooked s).time.step.isSome || (breaksLooked s).ring.wrapPend.isSome) = true := by
    rw [show (breaksLooked s).time.step = none from hstep, show (breaksLooked s).ring.wrapPend = none from hpend]
    decide
  rw [headTopology_of_head hh, if_neg hne]
  exact if_neg hfree

/-- One broken place with an end that is down and heard: its two ends enclose the gap that the head announces. -/
theorem headTopology_break (hgap : s.ring.gap = none) (hb : s.ring.breaks = [b])
    (hopen : (b.up ≠ 1 ∧ b.upOk = false ∧ reachable s b.up = true) ∨ (b.down ≠ 1 ∧ b.downOk = false ∧ reachable s b.down = true))
    (hup : Known s b.up) (hdown : Known s b.down) :
    headTopology s = (breaksLooked s).modRing (fun r => { r with wrapPend := some (announced (some (b.up, b.down)) s) }) := by
  have hstays : (ownEnds s.ring b).closed s = false := by
    rcases hopen with ⟨hne, hok, hreach⟩ | ⟨hne, hok, hreach⟩
    · exact closed_of_up ((if_neg hne).trans hok) hreach
    · exact closed_of_down ((if_neg hne).trans hok) hreach
  have hlooked : (breaksLooked s).ring.breaks = [ownEnds s.ring b] := by
    simp only [breaksLooked, State.modRing_ring, hb, List.map_cons, List.map_nil, List.filter_cons, hstays, Bool.not_false, if_true,
      List.filter_nil]
  have henc : enclosing (breaksLooked s) = some (b.up, b.down) := by
    rw [enclosing, hlooked]
    exact congrArg some (Prod.ext (lastUp_upPos hup) (firstDown_downPos hdown))
  have hnext : nextGap s.ring = none := by simp only [nextGap, hpend, hgap, Option.map_none]
  rw [headTopology_announces hh hpend hstep (by rw [henc, hnext]; exact Option.some_ne_none _), henc]

/-- The only broken place is whole again: the head announces a ring without a gap. -/
theorem headTopology_whole {g : Wrap} (hgap : s.ring.gap = some g) (hx : x ≠ 1) (hy : y ≠ 1)
    (hb : s.ring.breaks = [{ up := x, down := y, upOk := true, downOk := true }]) :
    headTopology s = (breaksLooked s).modRing (fun r => { r with wrapPend := some (announced none s) }) ∧ (breaksLooked s).ring.breaks = [] := by
  have hlooked : (breaksLooked s).ring.breaks = [] := by
    have hown : ownEnds s.ring { up := x, down := y, upOk := true, downOk := true } = { up := x, down := y, upOk := true, downOk := true } := by
      rw [ownEnds, if_neg hx, if_neg hy]
    simp only [breaksLooked, State.modRing_ring, hb, List.map_cons, List.map_nil, hown]
    rfl
  have henc : enclosing (breaksLooked s) = none := by rw [enclosing, hlooked]
  have hnext : nextGap s.ring ≠ none := by simp [nextGap, hpend, hgap]
  exact ⟨by rw [headTopology_announces hh hpend hstep (by rw [henc]; exact hnext.symm), henc], hlooked⟩

end

/-! ### What the head makes of a report -/

section
variable (hh : s.ring.isHead = true) (hpend : s.ring.wrapPend = none) (hstep : s.time.step = none) (hx : x ≠ 1)
include hh hpend hstep hx

theorem takeReport_portB_down (hgap : s.ring.gap = none) (hb : s.ring.breaks = []) (hmem : x ∈ s.ring.chain) (hheard : reachable s x = true) :
    (takeReport x 1 s).ring.gap = none ∧ (takeReport x 1 s).ring.wrapPend = some (announced (some (x, nextUnit s x)) s) := by
  have h := headTopology_break (s := s.modRing (fun r => { r with breaks := [⟨x, nextUnit s x, false, decide (nextUnit s x = x)⟩] }))
    (b := ⟨x, nextUnit s x, false, decide (nextUnit s x = x)⟩) hh hpend hstep hgap rfl (.inl ⟨hx, rfl, hheard⟩) (.inr ⟨hmem, hheard⟩)
    (known_nextUnit s x)
  rw [takeReport, show bitB 1 0 = true from rfl, show bitB 1 1 = false from rfl, note_portB_down hb, h]
  exact ⟨hgap, rfl⟩

theorem takeReport_portA_down (hgap : s.ring.gap = none) (hb : s.ring.breaks = []) (hmem : x ∈ s.ring.chain) (hheard : reachable s x = true) :
    (takeReport x 2 s).ring.wrapPend = some (announced (some (prevUnit s x, x)) s) := by
  have h := headTopology_break (s := s.modRing (fun r => { r with breaks := [⟨prevUnit s x, x, false, false⟩] }))
    (b := ⟨prevUnit s x, x, false, false⟩) hh hpend hstep hgap rfl (.inr ⟨hx, rfl, hheard⟩) (known_prevUnit s x) (.inr ⟨hmem, hheard⟩)
  rw [takeReport, show bitB 2 0 = false from rfl, show bitB 2 1 = true from rfl, note_portA_down hb, h]
  rfl

theorem takeReport_both_up {g : Wrap} (hgap : s.ring.gap = some g) (hb : s.ring.breaks = [{ up := x, down := y, upOk := false, downOk := true }])
    (hy : y ≠ 1) (hyx : y ≠ x) :
    (takeReport x 3 s).ring.breaks = [] ∧ (takeReport x 3 s).ring.wrapPend = some (announced none s) ∧
      (takeReport x 3 s).ring.gap = some g := by
  obtain ⟨hwhole, hnone⟩ := headTopology_whole (x := x) (y := y) (s := s.modRing (fun r => { r with breaks := [⟨x, y, true, true⟩] })) hh hpend
    hstep hgap hx hy rfl
  rw [takeReport, show bitB 3 0 = true from rfl, show bitB 3 1 = true from rfl, note_both_up hb hyx, hwhole]
  exact ⟨hnone, rfl, hgap⟩

end

/-! ### The events -/

theorem exec_wrapReportReceived (h : Hears tyWrap f s) (hh : s.ring.isHead = true) (hk : leAt f.payload 0 1 = 2) :
    exec (.wrapReportReceived f) s = .next (takeReport f.src (leAt f.payload 3 1) (accepted f s)) := by
  obtain ⟨l, v, hacc, -⟩ := accepted_writes f s
  have hhead : (accepted f s).ring.isHead = true := by rw [hacc]; exact hh
  show Host.Outcome.next (withFrame tyWrap f s _) = _
  rw [withFrame_accepts h]
  exact congrArg Host.Outcome.next (if_pos (by rw [hhead, hk]; rfl))

/-- Naming ports in an announcement changes what they still have to tell, and nothing else. -/
theorem named_keeps (r : Ring) (p : RingPort) : (named r p).gap = r.gap ∧ (named r p).wrapPend = r.wrapPend := by
  unfold named
  split
  · cases p <;> exact ⟨rfl, rfl⟩
  · exact ⟨rfl, rfl⟩

/-- The topology that a WRAP payload announces (R267). -/
def wrapOf (bs : List Byte) : Wrap :=
  { up := BitVec.ofNat 8 (leAt bs 1 1), down := BitVec.ofNat 8 (leAt bs 2 1), at_ := (stampOf (sliceAt bs 4 12)).total }

theorem exec_wrapAnnounceReceived (h : Hears tyWrap f s) (hu : s.ring.isHead = false) (hk : leAt f.payload 0 1 = 1) :
    exec (.wrapAnnounceReceived f) s =
      .next ((noteFrame f s).modRing (fun r => named (named { r with wrapPend := some (wrapOf f.payload) } .a) .b)) := by
  show Host.Outcome.next (withFrame tyWrap f s _) = _
  rw [withFrame_hears h hu]
  exact congrArg Host.Outcome.next (if_pos (by rw [show (noteFrame f s).ring.isHead = false from hu, hk]; rfl))

/-- An island changes the roster and the order that follows from it (R269). -/
theorem islandAbsent_writes (w : Wrap) (r : Ring) :
    ∃ v c o, islandAbsent w r = { r with roster := v, chain := c, order := o } := by
  unfold islandAbsent
  split
  · exact ⟨r.roster, r.chain, r.order, rfl⟩
  · exact ⟨_, _, _, rfl⟩

theorem applyWrap_writes (w : Wrap) (s : State) :
    (applyWrap w s).ring.wrapPend = none ∧ (applyWrap w s).ring.balGap = true ∧
      (applyWrap w s).ring.gap = (if w.up = 0 then none else some w) ∧ (applyWrap w s).ring.txq.length = s.ring.txq.length ∧
      (applyWrap w s).ring.wrapQuiet = w.at_ / 1000000 + 3 := by
  unfold applyWrap
  extract_lets new moved
  obtain ⟨v, c, o, h⟩ := islandAbsent_writes w { s.ring with
    gap := if w.up = 0 then none else some w, wrapPend := none, balGap := true, enumDue := s.ring.enumDue || s.ring.isHead }
  have hnew : new.ring = _ := h
  simp only [State.modRing_ring, hnew, List.length_map, and_self]

theorem exec_wrapAt (hw : s.ring.wrapPend = some w) :
    exec .wrapAt s = .next (if s.coreOn && s.reached w.at_ then applyWrap w s else s) := by
  show execWrapAt s = _
  simp only [execWrapAt, hw]

/-- A report from a unit of the chain, while the head announces nothing and no step is pending. -/
theorem gapsAreAnnounced (h : Hears tyWrap f s) (hh : s.ring.isHead = true) (hk : leAt f.payload 0 1 = 2) (hpend : s.ring.wrapPend = none)
    (hstep : s.time.step = none) (hmem : f.src ∈ s.ring.chain) (hlow : 2 ≤ f.src.toNat) (hhigh : f.src.toNat ≤ 62)
    (hpres : ∀ i : Fin 61, f.src = rosterAddr i → (s.ring.roster[i]).st = .present) :
    (s.ring.breaks = [] → s.ring.gap = none →
      (leAt f.payload 3 1 = 1 → ∃ t, exec (.wrapReportReceived f) s = .next t ∧ t.ring.gap = none ∧
        t.ring.wrapPend = some (announced (some (f.src, nextUnit s f.src)) s)) ∧
      (leAt f.payload 3 1 = 2 → ∃ t, exec (.wrapReportReceived f) s = .next t ∧
        t.ring.wrapPend = some (announced (some (prevUnit s f.src, f.src)) s))) ∧
    (∀ (y : BitVec 6) (g : Wrap), s.ring.gap = some g → y ≠ 1 → y ≠ f.src →
      s.ring.breaks = [{ up := f.src, down := y, upOk := false, downOk := true }] → leAt f.payload 3 1 = 3 →
      ∃ t, exec (.wrapReportReceived f) s = .next t ∧ t.ring.breaks = [] ∧ t.ring.wrapPend = some (announced none s) ∧
        t.ring.gap = some g) := by
  have hexec := exec_wrapReportReceived h hh hk
  have hreach := reachable_accepted hpres
  obtain ⟨l, v, hacc, -⟩ := accepted_writes f s
  have hne : f.src ≠ 1 := fun h => by rw [h] at hlow; exact absurd hlow (by decide)
  have hidx : rosterIdx f.src = some ⟨f.src.toNat - 2, by omega⟩ := dif_pos ⟨hlow, hhigh⟩
  have hi := eq_rosterAddr hidx
  have hheard : reachable s f.src = true := (congrArg (reachable s) hi).trans (reachable_of_present (hpres _ hi))
  generalize accepted f s = u at hexec hreach hacc
  have hring : u.ring = { s.ring with lastSeen := l, roster := v } := by rw [hacc]; rfl
  have htime : u.time = s.time := by rw [hacc]; rfl
  have hnext : nextUnit u f.src = nextUnit s f.src := by simp only [nextUnit, firstDown, hreach, hring, upPos]
  have hprev : prevUnit u f.src = prevUnit s f.src := by simp only [prevUnit, lastUp, hreach, hring, downPos]
  have hann (g : Option (BitVec 6 × BitVec 6)) : announced g u = announced g s := by simp only [announced, State.nowNs, htime]
  have hh' : u.ring.isHead = true := by rw [hring]; exact hh
  have hpend' : u.ring.wrapPend = none := by rw [hring]; exact hpend
  have hstep' : u.time.step = none := by rw [htime]; exact hstep
  have hmem' : f.src ∈ u.ring.chain := by rw [hring]; exact hmem
  have hheard' : reachable u f.src = true := by rw [hreach]; exact hheard
  refine ⟨fun hb hgap => ?_, fun y g hgap hy hyx hb hports => ?_⟩
  · have hb' : u.ring.breaks = [] := by rw [hring]; exact hb
    have hgap' : u.ring.gap = none := by rw [hring]; exact hgap
    refine ⟨fun hports => ?_, fun hports => ?_⟩
    · obtain ⟨hg, hw⟩ := takeReport_portB_down hh' hpend' hstep' hne hgap' hb' hmem' hheard'
      rw [hports] at hexec
      exact ⟨_, hexec, hg, by rw [hw, hnext, hann]⟩
    · have hw := takeReport_portA_down hh' hpend' hstep' hne hgap' hb' hmem' hheard'
      rw [hports] at hexec
      exact ⟨_, hexec, by rw [hw, hprev, hann]⟩
  · obtain ⟨hbreaks, hw, hg⟩ := takeReport_both_up (y := y) (g := g) hh' hpend' hstep' hne (by rw [hring]; exact hgap)
      (by rw [hring]; exact hb) hy hyx
    rw [hports] at hexec
    exact ⟨_, hexec, hbreaks, by rw [hw, hann], hg⟩

end Sys2Proof.Machine
end

section
/-! Balance on the ring: reports, and the head's computation of its groups (R275 to R278). -/

namespace Sys2Proof.Machine

variable {s : State} {f : RxFrame} {i : BalInterval}

/-! ### Reports (R276) -/

/-- The head with its own report of an interval. -/
def ownReported (i : BalInterval) (s : State) : State :=
  s.modRing (fun r => { r with reports := r.reports.filter (fun x => decide (x.unit ≠ 1)) ++
    [{ unit := 1, start := i.start, entries := balEntries s i }] })

/-- A unit without the reports that have not left; the interval is handed over (R276). -/
def lateAbandoned (s : State) : State :=
  s.modRing (fun r => { r with txq := r.txq.filter (fun f => decide (f.typ ≠ tyBalance)), balEnded := none,
                               abandoned := satAdd r.abandoned (s.ring.txq.filter (fun f => decide (f.typ = tyBalance))).length })

/-- Its report of the interval in the queue. -/
def reportQueued (i : BalInterval) (s : State) : State :=
  sendFrame tyBalance 1 (balPayload i.start (balEntries s i)) none (lateAbandoned s)

section
variable (hend : s.ring.balEnded = some i) (hon : s.coreOn = true)
include hend hon

theorem exec_balanceIntervalEnd_head (hh : s.ring.isHead = true) : exec .balanceIntervalEnd s = .next (ownReported i s) := by
  show execBalanceIntervalEnd s = _
  simp only [execBalanceIntervalEnd, hend, hon, hh, Bool.not_true, Bool.false_eq_true, if_false, if_true]
  rfl

/-- The report of a unit without an address is deferred (R276). -/
theorem exec_balanceIntervalEnd_unit (hu : s.ring.isHead = false) :
    exec .balanceIntervalEnd s = .next (if s.ring.addr = 0
      then (reportQueued i s).modRing (fun r => { r with deferred := satAdd r.deferred 1 }) else reportQueued i s) := by
  show execBalanceIntervalEnd s = _
  simp only [execBalanceIntervalEnd, hend, hon, hu, Bool.not_true, Bool.false_eq_true, if_false]
  rfl

end

theorem exec_balanceReceived (h : Hears tyBalance f s) (hh : s.ring.isHead = true) (hfit : reportFits s (stampOf (f.payload.take 12)) = true) :
    exec (.balanceReceived f) s = .next ((accepted f s).modRing (fun r => { r with reports := r.reports.filter (fun x => decide (x.unit ≠ f.src)) ++
      [{ unit := f.src, start := stampOf (f.payload.take 12), entries := balEntriesOf f.payload }] })) := by
  obtain ⟨l, v, hacc, -⟩ := accepted_writes f s
  have hhead : ¬ (!(accepted f s).ring.isHead) = true := by rw [hacc]; simp [hh]
  have hfit' : reportFits (accepted f s) (stampOf (f.payload.take 12)) = true := by rw [hacc]; exact hfit
  show Host.Outcome.next (withFrame tyBalance f s _) = _
  rw [withFrame_accepts h]
  exact congrArg Host.Outcome.next ((if_neg hhead).trans (if_pos hfit'))

/-! ### The computation (R277, R278) -/

/-- While a member of an enabled group has not reported, the computation waits its 20 ms. -/
theorem balanceDue_waits (hearly : s.gridNs < i.fin + 20000000)
    (hmissing : ∃ g : Fin 16, balEn (s.ring.groups[g]).desc = true ∧
      ∃ m ∈ balMembers (s.ring.groups[g]).desc, ∀ r ∈ s.ring.reports, r.unit.toNat ≠ m.1) : balanceDue s i = false := by
  obtain ⟨g, hen, m, hm, hnone⟩ := hmissing
  have hall : (fins 16).all (fun g => !balEn (s.ring.groups[g]).desc ||
      (balMembers (s.ring.groups[g]).desc).all (fun m => s.ring.reports.any (fun r => r.unit.toNat == m.1))) = false := by
    refine List.all_eq_false.2 ⟨g, List.mem_finRange g, ?_⟩
    rw [hen, Bool.not_true, Bool.false_or, Bool.not_eq_true]
    refine List.all_eq_false.2 ⟨m, hm, ?_⟩
    rw [Bool.not_eq_true]
    exact List.any_eq_false.2 fun r hr => by simpa using hnone r hr
  rw [balanceDue, decide_eq_false (Nat.not_le.2 hearly), Bool.false_or]
  exact hall

/-- What the head computes of a group. -/
def groupResult (i : BalInterval) (s : State) (g : Fin 16) : BalGroup × Bool :=
  computeGroup i.start i.gap s.ring.reports g.val s.ring.groups[g]

/-- The head with every group computed. -/
def groupsComputed (i : BalInterval) (s : State) : State :=
  s.modRing (fun r => { r with
    groups := Vector.ofFn (fun (g : Fin 16) => (((fins 16).map (groupResult i s)).getD g.val (r.groups[g], false)).1),
    reports := [], balEnded := none,
    alarmEvents := r.alarmEvents + (((fins 16).map (groupResult i s)).filter (fun e => e.2)).length })

theorem groupsComputed_group (i : BalInterval) (s : State) (g : Fin 16) : (groupsComputed i s).ring.groups[g] = (groupResult i s g).1 := by
  have hlen : g.val < ((fins 16).map (groupResult i s)).length := by simp [fins]
  have hg : (fins 16)[g.val]'(by simp [fins]) = g := List.getElem_finRange _
  refine (Vector.getElem_ofFn _).trans (congrArg Prod.fst ?_)
  rw [List.getD_eq_getElem _ _ hlen, List.getElem_map, hg]

/-- The events that a computation posts leave the ring. -/
theorem exec_balanceCompute (hend : s.ring.balEnded = some i) (hon : s.coreOn = true) (hh : s.ring.isHead = true) (hdue : balanceDue s i = true) :
    ∃ t, exec .balanceCompute s = .next t ∧ t.ring = (groupsComputed i s).ring := by
  refine ⟨(groupsComputed i s).forEach (List.range (((fins 16).map (groupResult i s)).filter (fun e => e.2)).length) (fun _ s => s.postEvent), ?_,
    State.forEach_ring _ _ _ fun _ _ => rfl⟩
  show execBalanceCompute s = _
  simp only [execBalanceCompute, hend, hon, hh, hdue, Bool.and_self, if_true]
  rfl

theorem exec_balanceCompute_waits (hend : s.ring.balEnded = some i) (hdue : balanceDue s i = false) : exec .balanceCompute s = .next s := by
  show execBalanceCompute s = _
  simp only [execBalanceCompute, hend, hdue, Bool.and_false, Bool.false_eq_true, if_false]

theorem computeGroup_disabled {g : BalGroup} (h : balEn g.desc = false) (start : Stamp) (gap : Bool) (reports : List BalReport) (k : Nat) :
    computeGroup start gap reports k g = (g, false) := if_pos (by rw [h]; rfl)

/-- With a member missing, or a gap in the interval, the group is numbered and not judged (R278). -/
theorem computeGroup_unjudged {g : BalGroup} {gap : Bool} {reports : List BalReport} (hen : balEn g.desc = true)
    (h : ((balMembers g.desc).map (balEntry reports)).any (fun e => e.isNone) = true ∨ gap = true) (start : Stamp) (k : Nat) :
    (computeGroup start gap reports k g).1.run = g.run ∧ (computeGroup start gap reports k g).1.alarm = g.alarm ∧
      (computeGroup start gap reports k g).1.seq = g.seq + 1 ∧ (computeGroup start gap reports k g).2 = false := by
  unfold computeGroup
  rw [if_neg (by rw [hen]; decide)]
  extract_lets ms es missing has net feeder branch imb low rel unjudged beyond run alarm seq flags
  have hun : unjudged = true := by
    rcases h with h | h
    · simp only [unjudged, show missing = true from h, Bool.true_or]
    · simp only [unjudged, h, Bool.or_true, Bool.true_or]
  have halarm : alarm = g.alarm := if_pos hun
  exact ⟨if_pos hun, halarm, rfl, by rw [halarm]; cases g.alarm <;> rfl⟩

/-- Settles O50: the head's breaks give the gap that it announces, and the reports of its interval give the groups' results. -/
theorem ringGapsAndBalance : Obligations.RingGapsAndBalance := by
  refine ⟨⟨fun f s h hh hk hpend hstep hmem hlow hhigh hpres => ?_, fun f s h hu hk => ?_, fun w s hw hon => ⟨fun hr => ?_, fun hr => ?_⟩⟩,
    ⟨fun i s hend hon => ⟨fun hh => ?_, fun hu => ?_, fun _ hearly hmissing => ?_, fun hh hdue => ?_⟩, fun f s h hh hfit => ?_,
      fun start gap reports k g hen h => computeGroup_unjudged hen h start k⟩⟩
  · obtain ⟨hopen, hwhole⟩ := gapsAreAnnounced h hh hk hpend hstep hmem hlow hhigh hpres
    have hbyte : (BitVec.ofNat 8 f.src.toNat).toNat = f.src.toNat := by rw [BitVec.toNat_ofNat]; omega
    refine ⟨fun hb hgap => ⟨fun hports => ?_, fun hports => ?_⟩, fun y g hgap hy hyx hb hports => ?_⟩
    · obtain ⟨t, hexec, hg, hw⟩ := (hopen hb hgap).1 hports
      exact ⟨t, _, hexec, hw, hg, hbyte, rfl, announced_at _ s⟩
    · obtain ⟨t, hexec, hw⟩ := (hopen hb hgap).2 hports
      exact ⟨t, _, hexec, hw, rfl, hbyte⟩
    · obtain ⟨t, hexec, hbreaks, hw, hg⟩ := hwhole y g hgap hy hyx hb hports
      exact ⟨t, _, hexec, hbreaks, hw, rfl, rfl, hg⟩
  · have hB := named_keeps (named { (noteFrame f s).ring with wrapPend := some (wrapOf f.payload) } .a) .b
    have hA := named_keeps { (noteFrame f s).ring with wrapPend := some (wrapOf f.payload) } .a
    exact ⟨_, exec_wrapAnnounceReceived h hu hk, hB.1.trans hA.1, hB.2.trans hA.2⟩
  · obtain ⟨hpend, hbal, hgap, hlen, hquiet⟩ := applyWrap_writes w s
    exact ⟨_, (exec_wrapAt hw).trans (congrArg _ (if_pos (by rw [hon, hr]; rfl))), hpend, hbal, fun h0 => hgap.trans (if_pos h0),
      fun h0 => hgap.trans (if_neg h0), hlen, hquiet⟩
  · exact (exec_wrapAt hw).trans (congrArg _ (if_neg (by rw [hr]; simp)))
  · exact ⟨_, _, exec_balanceIntervalEnd_head hend hon hh, List.mem_append_right _ (List.mem_singleton_self _), rfl, rfl, rfl, rfl, hend⟩
  · obtain ⟨g, hq⟩ := sendFrame_toHead (s := lateAbandoned s) hu tyBalance (balPayload i.start (balEntries s i)) none
    have hexec := exec_balanceIntervalEnd_unit hend hon hu
    by_cases h0 : s.ring.addr = 0
    · rw [if_pos h0] at hexec
      exact ⟨_, _, hexec, hq, rfl, rfl, rfl, rfl, rfl, (if_pos h0).symm⟩
    · rw [if_neg h0] at hexec
      exact ⟨_, _, hexec, hq, rfl, rfl, rfl, rfl, rfl, (if_neg h0).symm⟩
  · exact exec_balanceCompute_waits hend (balanceDue_waits hearly hmissing)
  · obtain ⟨t, hexec, hring⟩ := exec_balanceCompute hend hon hh hdue
    have hgroup (g : Fin 16) : t.ring.groups[g] = (groupResult i s g).1 := by rw [hring]; exact groupsComputed_group i s g
    exact ⟨t, hexec, by rw [hring]; rfl, by rw [hring]; rfl, hgroup,
      fun g hg => (hgroup g).trans (congrArg Prod.fst (computeGroup_disabled hg _ _ _ _))⟩
  · obtain ⟨l, v, hacc, -⟩ := accepted_writes f s
    refine ⟨_, _, exec_balanceReceived h hh hfit, List.mem_append_right _ (List.mem_singleton_self _), rfl, rfl, fun x hx hne => ?_⟩
    refine List.mem_append_left _ (List.mem_filter.2 ⟨?_, decide_eq_true hne⟩)
    rw [hacc]
    exact hx

end Sys2Proof.Machine
end

section
/-! What the Firn store leaves unchanged of the ring: a store that starts writes nothing of it, and one that answers a command only queues
frames, so the roster stays (R161, R172, R174, R281). -/

namespace Sys2Proof.Machine

variable (s : State)

/-! ### Steps that leave the ring as it is -/

@[simp] theorem failChange_ring (ch : Change) : (failChange ch s).ring = s.ring := by
  unfold failChange
  split <;> rfl

@[simp] theorem startChange_ring (ch : Change) : (startChange ch s).ring = s.ring := by
  cases ch with
  | calCommit g =>
    unfold startChange
    dsimp only
    split <;> rfl
  | _ => rfl

@[simp] theorem acceptReq_ring (r : StoreReq) : (acceptReq r s).ring = s.ring := by
  unfold acceptReq
  split <;> rfl

@[simp] theorem askKettle_ring : (askKettle s).ring = s.ring := by
  obtain ⟨a, ha⟩ := injectConv_eq .firn kettleIn s
  rw [askKettle, ha]
  split <;> rfl

@[simp] theorem latchStore_ring (id p : Nat) : (latchStore id p s).ring = s.ring := by
  unfold latchStore
  split
  · rfl
  · dsimp only
    split <;> rfl

@[simp] theorem startMember_ring (id p : Nat) : (startMember id p s).ring = s.ring := by
  unfold startMember
  split
  · rfl
  · split
    · rfl
    · dsimp only
      split <;> simp

@[simp] theorem startBanks_ring : (startBanks s).ring = s.ring := by
  refine s.forEach_keeps State.ring _ _ fun b t => ?_
  split
  · rfl
  · split <;> simp

@[simp] theorem noteWaits_ring : (noteWaits s).ring = s.ring := by
  refine s.forEach_keeps State.ring _ _ fun e t => ?_
  dsimp only
  split <;> split <;> simp

/-! ### Steps that may queue an answer -/

/-- A unit's roster. -/
def State.roster (s : State) : Vector RosterEntry 61 := s.ring.roster

theorem sendFrame_roster (ty : BitVec 4) (dst : BitVec 6) (p : List Byte) (tag : Option (Fin 64)) :
    (sendFrame ty dst p tag s).roster = s.roster := rfl

theorem answer_roster (t : Fin 64) (st : Status) (p b : List Byte) : (answer t st p b s).roster = s.roster := by
  have hbulk (u : State) (a : BitVec 6) : (sendBulk a a b u).roster = u.roster :=
    u.forEach_keeps State.roster _ _ fun _ _ => rfl
  unfold answer
  split
  · rfl
  · dsimp only
    split
    · rw [sendFrame_roster]
      split
      · rfl
      · rw [hbulk]
        simp [State.roster]
    · simp [State.roster]

@[simp] theorem answerReq_roster (r : StoreReq) (st : Status) (p : List Byte) : (answerReq r st p s).roster = s.roster := by
  unfold answerReq
  split
  · exact answer_roster s _ _ _ _
  · rfl

@[simp] theorem pushOutcome_roster (ch : Change) (st : Status) : (pushOutcome ch st s).roster = s.roster := by
  unfold pushOutcome
  split <;> rfl

@[simp] theorem deferReq_roster (r : StoreReq) : (deferReq r s).roster = s.roster := by
  unfold deferReq
  extract_lets count wait
  have hwait (u : State) : (wait u).roster = u.roster := rfl
  split
  · rfl
  · split
    · rw [answerReq_roster, State.roster, failChange_ring]
      rfl
    · rw [answerReq_roster, hwait]
      split <;> rfl
    · rw [pushOutcome_roster, answerReq_roster, hwait]
      rfl

@[simp] theorem checkSingles_roster : (checkSingles s).roster = s.roster := by
  unfold checkSingles
  dsimp only
  split
  · rfl
  · split
    · rfl
    · split
      · split
        · rfl
        · exact congrArg Ring.roster (askKettle_ring s)
      · exact s.forEach_keeps State.roster _ _ fun r t => deferReq_roster t r

@[simp] theorem kick_roster : (kick s).roster = s.roster := by
  rw [kick, checkSingles_roster, State.roster, noteWaits_ring, startBanks_ring]
  rfl

@[simp] theorem startReq_roster (r : StoreReq) : (startReq r s).roster = s.roster := by
  unfold startReq
  extract_lets s₁ m s₂ s₃ s₄
  have h₄ : s₄.ring = s₃.ring := s₃.forEach_keeps State.ring _ _ fun k t => latchStore_ring t _ k
  have h₃ : s₃.ring = s.ring := by simp [s₃, s₂, s₁]
  rw [kick_roster]
  exact congrArg Ring.roster (h₄.trans h₃)

@[simp] theorem consider_roster (id : Nat) : (consider id s).roster = s.roster := by
  unfold consider
  split
  · rfl
  next r _ =>
    have haccept : (acceptReq r s).roster = s.roster := congrArg Ring.roster (acceptReq_ring s r)
    dsimp only
    split
    · rfl
    · split
      · split
        · rfl
        · exact congrArg Ring.roster (askKettle_ring _)
      · split
        · exact deferReq_roster s r
        · split
          · exact haccept
          · split
            · exact (startReq_roster _ _).trans haccept
            · exact haccept

/-- A store that no command waits for leaves the roster. -/
theorem openStore_roster (ch : Change) : (openStore ch none s).ring.roster = s.ring.roster := by
  show (openStore ch none s).roster = s.roster
  unfold openStore
  dsimp only
  split
  · simp [State.roster]
  · exact consider_roster _ _

end Sys2Proof.Machine
end

section
/-! Enumeration, the roster, claims and the addresses that the head grants and withdraws (R250, R262 to R266). -/

namespace Sys2Proof.Machine

variable {s : State} {f : RxFrame} {i : Fin 61} {c : Claim}

theorem accepted_isHead (f : RxFrame) (s : State) : (accepted f s).ring.isHead = s.ring.isHead := by
  obtain ⟨l, v, hacc, -⟩ := accepted_writes f s
  rw [hacc]
  rfl

/-- A 64-bit field of a run of bytes. -/
theorem leAt_leBytes_word (w : BitVec 64) (b : List Byte) : leAt (leBytes 8 w.toNat ++ b) 0 8 = w.toNat := by
  rw [leAt_leBytes_append]
  exact Nat.mod_eq_of_lt w.isLt

/-! ### Enumeration (R250, R262) -/

theorem enumReply_fields (s : State) :
    leAt (enumReply s) 0 1 = 2 ∧ leAt (enumReply s) 4 8 = Config.uid.toNat ∧ leAt (enumReply s) 28 4 = s.ring.mirrorGen.toNat := by
  simp only [enumReply, List.append_assoc]
  refine ⟨leAt_leBytes_append 1 2 _, ?_, ?_⟩
  · rw [leAt_leBytes_skip (by decide), leAt_leBytes_skip (by decide), leAt_leBytes_skip (by decide), leAt_leBytes_word]
  · rw [← List.append_nil (leBytes 4 s.ring.mirrorGen.toNat)]
    iterate 6 rw [leAt_leBytes_skip (by decide)]
    rw [leAt_leBytes_append]
    exact Nat.mod_eq_of_lt s.ring.mirrorGen.isLt

theorem exec_enumSend (hon : s.coreOn = true) (hh : s.ring.isHead = true) (hst : s.time.startStored = true) :
    exec .enumSend s =
      .next ((sendFrame tyEnum broadcast (enumPayload s) none s).modRing (fun r => { r with enumDue := false, learned := [] })) :=
  congrArg Host.Outcome.next (if_pos (by rw [hon, hh, hst]; rfl))

theorem exec_enumReceived (h : Hears tyEnum f s) (hk : leAt f.payload 0 1 = 1) :
    exec (.enumReceived f) s = .next (if s.ring.isHead then
      (if enumHeadUid f.payload < Config.uid then yieldHead (accepted f s) else accepted f s) else takeEnum f.payload (accepted f s)) := by
  show Host.Outcome.next (withFrame tyEnum f s _) = _
  rw [withFrame_accepts h, if_neg (not_not.2 hk), accepted_isHead]

/-- What an ENUM request writes besides the reply and the pending mirror. -/
theorem takeEnum_writes (bs : List Byte) (s : State) :
    (takeEnum bs s).ring.headUid = some (enumHeadUid bs) ∧
      (takeEnum bs s).ring.order = (sliceAt bs 3 (min (leAt bs 2 1) 61)).map (fun b => BitVec.ofNat 6 b.toNat) ∧
      (takeEnum bs s).ring.balPeriod = BitVec.ofNat 2 (leAt bs 1 1) ∧ (takeEnum bs s).ring.addr = s.ring.addr := by
  unfold takeEnum
  dsimp only
  split <;> exact ⟨rfl, rfl, rfl, rfl⟩

theorem takeEnum_silent (ha : s.ring.addr = 0) (bs : List Byte) : (takeEnum bs s).ring.txq = s.ring.txq := by
  unfold takeEnum
  extract_lets uid u
  rw [if_pos (show u.ring.addr = 0 from ha)]
  rfl

theorem takeEnum_replies (hu : s.ring.isHead = false) (ha : s.ring.addr ≠ 0) (bs : List Byte) :
    ∃ x, Queues s (takeEnum bs s) [x] ∧ x.typ = tyEnum ∧ x.dst = 1 ∧ leAt x.payload 0 1 = 2 ∧ leAt x.payload 4 8 = Config.uid.toNat ∧
      leAt x.payload 28 4 = s.ring.mirrorGen.toNat := by
  unfold takeEnum
  extract_lets uid u
  obtain ⟨g, hq⟩ := sendFrame_toHead (s := u) hu tyEnum (enumReply u) none
  rw [if_neg (show ¬ u.ring.addr = 0 from ha)]
  exact ⟨_, hq, rfl, rfl, enumReply_fields u⟩

/-- An ENUM request at the head and at another unit. -/
theorem enumIsTaken (h : Hears tyEnum f s) (hk : leAt f.payload 0 1 = 1) :
    (s.ring.isHead = true → ∃ t, exec (.enumReceived f) s = .next t ∧ (enumHeadUid f.payload < Config.uid → t.ring.isHead = false ∧
      t.ring.addr = 0 ∧ t.ring.headConflict = true)) ∧
    (s.ring.isHead = false → ∃ t, exec (.enumReceived f) s = .next t ∧ t.ring.headUid = some (enumHeadUid f.payload) ∧
      t.ring.order = (sliceAt f.payload 3 (min (leAt f.payload 2 1) 61)).map (fun b => BitVec.ofNat 6 b.toNat) ∧
      t.ring.balPeriod = BitVec.ofNat 2 (leAt f.payload 1 1) ∧ t.ring.addr = s.ring.addr ∧
      (s.ring.addr = 0 → t.ring.txq = s.ring.txq) ∧
      (s.ring.addr ≠ 0 → ∃ x, Queues s t [x] ∧ x.typ = tyEnum ∧ x.dst = 1 ∧ leAt x.payload 0 1 = 2 ∧
        leAt x.payload 4 8 = Config.uid.toNat ∧ leAt x.payload 28 4 = s.ring.mirrorGen.toNat)) := by
  refine ⟨fun hh => ⟨_, (exec_enumReceived h hk).trans (congrArg _ (if_pos hh)), fun hlt => ?_⟩, fun hu => ?_⟩
  · rw [if_pos hlt]
    exact ⟨rfl, rfl, rfl⟩
  · have hacc := accepted_of_unit hu f
    have hexec := (exec_enumReceived h hk).trans (congrArg _ (if_neg (by rw [hu]; decide)))
    rw [hacc] at hexec
    obtain ⟨huid, horder, hper, haddr⟩ := takeEnum_writes f.payload (noteFrame f s)
    exact ⟨_, hexec, huid, horder, hper, haddr, fun ha => takeEnum_silent (s := noteFrame f s) ha f.payload,
      fun ha => takeEnum_replies (s := noteFrame f s) hu ha f.payload⟩

/-! ### The roster (R256, R262, R263) -/

/-- The roster's entry of a unit whose reply is taken. -/
theorem recordUnit_entry (i : Fin 61) (bs : List Byte) (s : State) :
    ((recordUnit i bs s).ring.roster[i]).st = .present ∧ ((recordUnit i bs s).ring.roster[i]).uid = BitVec.ofNat 64 (leAt bs 4 8) ∧
      ((recordUnit i bs s).ring.roster[i]).upUid = BitVec.ofNat 64 (leAt bs 12 8) ∧
      ((recordUnit i bs s).ring.roster[i]).downUid = BitVec.ofNat 64 (leAt bs 20 8) ∧
      ((recordUnit i bs s).ring.roster[i]).gen = BitVec.ofNat 32 (leAt bs 28 4) := by
  simp only [recordUnit, reorder, State.modRing_ring, vmod_get_self, and_self]

/-- A reply for a free address, or from the UID that holds it, is recorded. -/
theorem takeReply_records {bs : List Byte}
    (h : (s.ring.roster[i]).st = .free ∨ (s.ring.roster[i]).uid = BitVec.ofNat 64 (leAt bs 4 8)) :
    ∃ u, (takeReply i bs s).ring.roster = (recordUnit i bs u).ring.roster := by
  unfold takeReply
  dsimp only
  by_cases hfree : (s.ring.roster[i]).st = .free
  · rw [if_pos hfree]
    exact ⟨s, rfl⟩
  · rw [if_neg hfree, if_pos (h.resolve_left hfree)]
    exact ⟨_, rfl⟩

theorem exec_enumReplyReceived (hon : s.coreOn = true) (hh : s.ring.isHead = true) (hsrc : f.src = rosterAddr i)
    (hgood : frameGood f = true) (hty : f.typ = tyEnum) (hme : frameForMe s f = true) (hk : leAt f.payload 0 1 = 2) :
    exec (.enumReplyReceived f) s = .next (takeReply i f.payload (hear f s)) := by
  show execEnumReplyReceived f s = _
  simp [execEnumReplyReceived, hon, hh, hgood, hty, hme, hk, hsrc, rosterIdx_rosterAddr]

theorem exec_idleReceived (h : Hears tyIdle f s) (hh : s.ring.isHead = true) (hsrc : f.src = rosterAddr i) :
    exec (.idleReceived f) s = .next ((accepted f s).modRing (fun r =>
      { r with roster := vmod r.roster i (fun e => { e with gen := BitVec.ofNat 32 (leAt f.payload 4 4) }) })) := by
  show Host.Outcome.next (withFrame tyIdle f s _) = _
  rw [withFrame_accepts h, accepted_isHead, hh, hsrc, rosterIdx_rosterAddr]
  rfl

theorem exec_rosterAbsent_early (h : s.time.ticks < (s.ring.roster[i]).heard + 320) : exec (.rosterAbsent i) s = .next s :=
  congrArg Host.Outcome.next (if_neg (by simp [-Fin.getElem_fin, h]))

theorem exec_rosterAbsent (hon : s.coreOn = true) (hh : s.ring.isHead = true) (hst : (s.ring.roster[i]).st = .present)
    (hlate : (s.ring.roster[i]).heard + 320 ≤ s.time.ticks) :
    exec (.rosterAbsent i) s =
      .next (s.modRing (fun r => reorder { r with roster := vmod r.roster i (fun e => { e with st := .absent }), enumDue := true })) :=
  congrArg Host.Outcome.next (if_pos (by rw [hon, hh, hst, decide_eq_true hlate]; rfl))

/-- What a frame from an address of the roster, or none for 10 cycles, writes of its entry. -/
theorem rosterFollows (hon : s.coreOn = true) (hh : s.ring.isHead = true) (hsrc : f.src = rosterAddr i) :
    (frameGood f = true → f.typ = tyEnum → frameForMe s f = true → leAt f.payload 0 1 = 2 →
      (s.ring.roster[i]).st = .free ∨ (s.ring.roster[i]).uid = BitVec.ofNat 64 (leAt f.payload 4 8) →
      ∃ t, exec (.enumReplyReceived f) s = .next t ∧ (t.ring.roster[i]).st = .present ∧
        (t.ring.roster[i]).uid = BitVec.ofNat 64 (leAt f.payload 4 8) ∧ (t.ring.roster[i]).upUid = BitVec.ofNat 64 (leAt f.payload 12 8) ∧
        (t.ring.roster[i]).downUid = BitVec.ofNat 64 (leAt f.payload 20 8) ∧ (t.ring.roster[i]).gen = BitVec.ofNat 32 (leAt f.payload 28 4)) ∧
    (Hears tyIdle f s → ∃ t, exec (.idleReceived f) s = .next t ∧ t.ring.roster[i] = { s.ring.roster[i] with
      gen := BitVec.ofNat 32 (leAt f.payload 4 4), heard := s.time.ticks }) ∧
    (s.time.ticks < (s.ring.roster[i]).heard + 320 → exec (.rosterAbsent i) s = .next s) ∧
    ((s.ring.roster[i]).st = .present → (s.ring.roster[i]).heard + 320 ≤ s.time.ticks → ∃ t, exec (.rosterAbsent i) s = .next t ∧
      (t.ring.roster[i]).st = .absent ∧ (t.ring.roster[i]).uid = (s.ring.roster[i]).uid ∧ t.ring.enumDue = true) := by
  refine ⟨fun hgood hty hme hk hknown => ?_, fun h => ?_, exec_rosterAbsent_early, fun hst hlate => ?_⟩
  · obtain ⟨v, hv, hentry⟩ := hear_writes f s
    have hentry := (hentry i).1
    have hknown' : ((hear f s).ring.roster[i]).st = .free ∨ ((hear f s).ring.roster[i]).uid = BitVec.ofNat 64 (leAt f.payload 4 8) := by
      rw [hv, State.modRing_ring, hentry]
      exact hknown
    obtain ⟨u, hu⟩ := takeReply_records hknown'
    refine ⟨_, exec_enumReplyReceived hon hh hsrc hgood hty hme hk, ?_⟩
    rw [hu]
    exact recordUnit_entry i f.payload u
  · refine ⟨_, exec_idleReceived h hh hsrc, ?_⟩
    rw [accepted, hear_of_head hh (by rw [hsrc, rosterIdx_rosterAddr]), noteFrame]
    simp only [State.modRing_ring, vmod_get_self]
  · refine ⟨_, exec_rosterAbsent hon hh hst hlate, ?_⟩
    simp only [reorder, State.modRing_ring, vmod_get_self, and_self]

/-! ### Claims (R264) -/

theorem vacancyPayload_fields (kind addr flags : Nat) (uid up down : BitVec 64) :
    leAt (vacancyPayload kind addr flags uid up down) 0 1 = kind % 256 ∧ leAt (vacancyPayload kind addr flags uid up down) 1 1 = addr % 256 ∧
      leAt (vacancyPayload kind addr flags uid up down) 4 8 = uid.toNat ∧ leAt (vacancyPayload kind addr flags uid up down) 12 8 = up.toNat ∧
      leAt (vacancyPayload kind addr flags uid up down) 20 8 = down.toNat := by
  simp only [vacancyPayload, List.append_assoc]
  refine ⟨leAt_leBytes_append 1 kind _, ?_, ?_, ?_, ?_⟩
  · rw [leAt_leBytes_skip (by decide)]
    exact leAt_leBytes_append 1 addr _
  · iterate 4 rw [leAt_leBytes_skip (by decide)]
    exact leAt_leBytes_word uid _
  · iterate 5 rw [leAt_leBytes_skip (by decide)]
    exact leAt_leBytes_word up _
  · rw [← List.append_nil (leBytes 8 down.toNat)]
    iterate 6 rw [leAt_leBytes_skip (by decide)]
    exact leAt_leBytes_word down _

/-- A claim waits, is put off, or goes to the head on both rings in place of one that has not left. -/
theorem claimGoesOut (sof : Bool) (hon : s.coreOn = true) (hsync : s.time.syncOk = true) (hu : s.ring.isHead = false)
    (ha : s.ring.addr = 0) (hg : s.ring.grantPend = none) :
    (0 < s.ring.backoff → exec (.claim sof) s = .next { s with ring := { s.ring with backoff := s.ring.backoff - 1 } }) ∧
    (s.ring.backoff = 0 → exec (.claim true) s = .next { s with ring := { s.ring with backoff := Config.uid.toNat % 16 } } ∧
      ∃ t fs x y, exec (.claim false) s = .next t ∧ t.ring.txq = fs ++ [x, y] ∧ x.ring = .primary ∧ y.ring = .secondary ∧
        (∀ z ∈ [x, y], z.typ = tyVacancy ∧ z.dst = 1 ∧ leAt z.payload 0 1 = 2 ∧ leAt z.payload 4 8 = Config.uid.toNat ∧
          leAt z.payload 12 8 = s.ring.portA.uid.toNat ∧ leAt z.payload 20 8 = s.ring.portB.uid.toNat) ∧
        (∀ z ∈ fs, z.typ ≠ tyVacancy ∧ z ∈ s.ring.txq)) := by
  have hgo : (s.coreOn && s.time.syncOk && !s.ring.isHead && decide (s.ring.addr = 0) && s.ring.grantPend.isNone) = true := by
    simp [hon, hsync, hu, ha, hg]
  refine ⟨fun hb => congrArg Host.Outcome.next ((if_pos hgo).trans (if_pos hb)), fun hb => ?_⟩
  have hb' : ¬ 0 < s.ring.backoff := by omega
  refine ⟨congrArg Host.Outcome.next ((if_pos hgo).trans (if_neg hb')), ?_⟩
  obtain ⟨hkind, -, huid, hup, hdown⟩ := vacancyPayload_fields 2 0 0 Config.uid s.ring.portA.uid s.ring.portB.uid
  refine ⟨_, s.ring.txq.filter (fun f => decide (f.typ ≠ tyVacancy)), _, _,
    congrArg Host.Outcome.next ((if_pos hgo).trans (if_neg hb')), List.append_assoc _ [_] [_], rfl, rfl, fun z hz => ?_, fun z hz => ?_⟩
  · rcases List.mem_pair.1 hz with rfl | rfl <;> exact ⟨rfl, rfl, hkind, huid, hup, hdown⟩
  · obtain ⟨hmem, hty⟩ := List.mem_filter.1 hz
    exact ⟨of_decide_eq_true hty, hmem⟩

/-! ### Decisions of the head (R263, R265) -/

theorem exec_claimReceived_single (hon : s.coreOn = true) (hh : s.ring.isHead = true) (hgood : frameGood f = true)
    (hty : f.typ = tyVacancy) (hme : frameForMe s f = true) (hk : leAt f.payload 0 1 = 2) :
    exec (.claimReceived [f]) s = .next (decideClaim [claimOf f.payload] [] (claimOf f.payload) s) := by
  have hone : claimsIn s [f] = [claimOf f.payload] := if_pos ⟨hgood, hty, hme, hk⟩
  have hnone : [f].filter (fun f => !frameGood f) = [] := by simp [hgood]
  show execClaimReceived [f] s = _
  simp [execClaimReceived, hon, hnone, State.forEach, hh, hone, decideClaims]

theorem addrOfUid_some {r : Ring} {uid : BitVec 64} (h : addrOfUid r uid = some i) :
    (r.roster[i]).st ≠ .free ∧ (r.roster[i]).uid = uid := by
  have hi := List.find?_some h
  simpa using hi

/-- A UID that holds an address claims it (R265). -/
theorem claimAddr_of_held {r : Ring} {all rest : List Claim} (h : addrOfUid r c.uid = some i) : claimAddr r all rest c = some i := by
  simp only [claimAddr, h, Option.some_or]

/-- The entry of an address that is granted (R263, R265). -/
def grantedEntry (s : State) (uid up down : BitVec 64) (e : RosterEntry) : RosterEntry :=
  { e with st := .present, uid := uid, up := neighbourAddr s.ring up, down := neighbourAddr s.ring down, upUid := up, downUid := down,
           heard := s.time.ticks }

theorem grantAddr_roster (i : Fin 61) (uid up down : BitVec 64) (s : State) :
    (grantAddr i uid up down s).ring.roster = vmod s.ring.roster i (grantedEntry s uid up down) := by
  unfold grantAddr
  extract_lets e isNew entry held now take s₁ s₂ s₃
  have h₂ : s₂.ring.roster = vmod s.ring.roster i (grantedEntry s uid up down) := rfl
  have h₃ : s₃.ring.roster = s₂.ring.roster := openStore_roster s₂ _
  split
  · split
    · obtain ⟨q, n, hpush⟩ := pushMirror_writes i none (setMirror i entry s₃)
      rw [hpush]
      exact h₃.trans h₂
    · exact h₃.trans h₂
  · exact h₂

/-- An address that the claimant holds is granted again: no mirror content is taken over. -/
theorem grantAddr_held {uid : BitVec 64} (hst : (s.ring.roster[i]).st ≠ .free) (huid : (s.ring.roster[i]).uid = uid) (up down : BitVec 64) :
    grantAddr i uid up down s = sendFrame tyVacancy broadcast
      (vacancyPayload 3 (rosterAddr i).toNat (bitN (mirrorHeld (mirrorEntry s i))) uid 0 0) none
      (s.modRing (fun r => reorder { r with roster := vmod r.roster i (grantedEntry s uid up down), enumDue := true })) := by
  have hold : (decide ((s.ring.roster[i]).st = .free) || decide ((s.ring.roster[i]).uid ≠ uid)) = false := by
    rw [decide_eq_false hst, huid]
    simp
  unfold grantAddr
  simp only [hold, Bool.false_eq_true, if_false]
  rfl

/-- A VACANCY broadcast goes out on both rings, with the fields of its payload (R264). -/
theorem sendVacancy_queues (kind addr flags : Nat) (uid : BitVec 64) (s : State) :
    ∃ x y, Queues s (sendFrame tyVacancy broadcast (vacancyPayload kind addr flags uid 0 0) none s) [x, y] ∧ x.ring = .primary ∧
      y.ring = .secondary ∧ ∀ z ∈ [x, y], z.typ = tyVacancy ∧ leAt z.payload 0 1 = kind % 256 ∧ leAt z.payload 1 1 = addr % 256 ∧
        leAt z.payload 4 8 = uid.toNat := by
  obtain ⟨hkind, haddr, huid, -, -⟩ := vacancyPayload_fields kind addr flags uid 0 0
  refine ⟨_, _, sendFrame_broadcast tyVacancy _ none s, rfl, rfl, fun z hz => ?_⟩
  rcases List.mem_pair.1 hz with rfl | rfl <;> exact ⟨rfl, hkind, haddr, huid⟩

/-- The head's decision on the only claim of a cycle. -/
theorem claimIsDecided (hon : s.coreOn = true) (hh : s.ring.isHead = true) (hgood : frameGood f = true) (hty : f.typ = tyVacancy)
    (hme : frameForMe s f = true) (hk : leAt f.payload 0 1 = 2) (hc : claimOf f.payload = c) :
    (∀ i : Fin 61, addrOfUid s.ring c.uid = some i → ∃ t x y, exec (.claimReceived [f]) s = .next t ∧ Queues s t [x, y] ∧
      (t.ring.roster[i]).st = .present ∧ (t.ring.roster[i]).uid = c.uid ∧ x.ring = .primary ∧ y.ring = .secondary ∧
      (∀ z ∈ [x, y], z.typ = tyVacancy ∧ leAt z.payload 0 1 = 3 ∧ leAt z.payload 1 1 = i.val + 2 ∧ leAt z.payload 4 8 = c.uid.toNat)) ∧
    (∀ i : Fin 61, claimAddr s.ring [c] [] c = some i → ∃ t, exec (.claimReceived [f]) s = .next t ∧ (t.ring.roster[i]).st = .present ∧
      (t.ring.roster[i]).uid = c.uid ∧ (t.ring.roster[i]).heard = s.time.ticks ∧
      (∀ j : Fin 61, j ≠ i → t.ring.roster[j] = s.ring.roster[j])) ∧
    (claimAddr s.ring [c] [] c = none →
      ∃ t x y, exec (.claimReceived [f]) s = .next t ∧ Queues s t [x, y] ∧ t.ring.roster = s.ring.roster ∧
        (∀ z ∈ [x, y], z.typ = tyVacancy ∧ leAt z.payload 0 1 = 5 ∧ leAt z.payload 4 8 = c.uid.toNat)) := by
  have hexec := exec_claimReceived_single hon hh hgood hty hme hk
  rw [hc, decideClaim] at hexec
  refine ⟨fun i hi => ?_, fun i hi => ?_, fun hnone => ?_⟩
  · obtain ⟨hst, huid⟩ := addrOfUid_some hi
    have hgranted := grantAddr_roster i c.uid c.up c.down s
    rw [claimAddr_of_held hi] at hexec
    dsimp only at hexec
    rw [grantAddr_held hst huid] at hexec hgranted
    obtain ⟨x, y, hq, hx, hy, hz⟩ := sendVacancy_queues 3 (rosterAddr i).toNat (bitN (mirrorHeld (mirrorEntry s i))) c.uid
      (s.modRing (fun r => reorder { r with roster := vmod r.roster i (grantedEntry s c.uid c.up c.down), enumDue := true }))
    refine ⟨_, x, y, hexec, hq, ?_, ?_, hx, hy, fun z hmem => ?_⟩
    · rw [hgranted, vmod_get_self]; rfl
    · rw [hgranted, vmod_get_self]; rfl
    · obtain ⟨htyp, hkind, haddr, hid⟩ := hz z hmem
      rw [rosterAddr_toNat, Nat.mod_eq_of_lt (by omega)] at haddr
      exact ⟨htyp, hkind, haddr, hid⟩
  · rw [hi] at hexec
    refine ⟨_, hexec, ?_, ?_, ?_, fun j hj => ?_⟩
    · rw [grantAddr_roster, vmod_get_self]; rfl
    · rw [grantAddr_roster, vmod_get_self]; rfl
    · rw [grantAddr_roster, vmod_get_self]; rfl
    · rw [grantAddr_roster, vmod_get_other _ _ _ _ (Ne.symm hj)]
  · rw [hnone] at hexec
    obtain ⟨x, y, hq, -, -, hz⟩ := sendVacancy_queues 5 0 0 c.uid s
    refine ⟨_, x, y, hexec, hq, rfl, fun z hmem => ?_⟩
    obtain ⟨htyp, hkind, -, hid⟩ := hz z hmem
    exact ⟨htyp, hkind, hid⟩

theorem exec_claimReceived_nil (hu : s.ring.isHead = false) : exec (.claimReceived []) s = .next s := by
  show execClaimReceived [] s = _
  simp [execClaimReceived, State.forEach, hu]

/-! ### GRANT, REVOKE and FULL at a unit (R265, R266, R280) -/

/-- A unit other than the head takes a VACANCY frame that names it and the kind, and else keeps what it had. -/
theorem vacancy_use {k : Nat} (hu : s.ring.isHead = false) (u : State) :
    (if vacancyForMe k f && !(noteFrame f s).ring.isHead then u else noteFrame f s) = if vacancyForMe k f then u else noteFrame f s := by
  rw [show (noteFrame f s).ring.isHead = false from hu, Bool.not_false, Bool.and_true]

theorem storeRingPage_opens (hfr : s.hw.frozen = false) : storeRingPage s = openStore (.page 111) none s :=
  if_neg (by rw [hfr]; decide)

/-- A unit that a grant names, and one that it does not (R265, R280). -/
def granted (f : RxFrame) (s : State) : State :=
  if vacancyForMe 3 f then
    (noteFrame f s).modRing (fun r =>
      { r with grantPend := some (BitVec.ofNat 6 (leAt f.payload 1 1), (noteFrame f s).nowMs), mirrorDue := true, backoff := 0 })
  else noteFrame f s

/-- A unit whose address is withdrawn, and one that the frame does not name (R266). -/
def revoked (f : RxFrame) (s : State) : State :=
  if vacancyForMe 4 f then (noteFrame f s).modRing (fun r => { r with addr := 0, grantPend := none, backoff := 0 }) else noteFrame f s

theorem exec_grant (h : Hears tyVacancy f s) (hu : s.ring.isHead = false) (hfr : s.hw.frozen = false) :
    exec (.grant f) s = .next (if vacancyForMe 3 f then openStore (.page 111) none (granted f s) else granted f s) := by
  show Host.Outcome.next (withFrame tyVacancy f s _) = _
  rw [withFrame_hears h hu, vacancy_use hu, storeRingPage_opens (s := (noteFrame f s).modRing _) hfr, granted]
  split <;> rfl

theorem exec_revoke (h : Hears tyVacancy f s) (hu : s.ring.isHead = false) (hfr : s.hw.frozen = false) :
    exec (.revoke f) s = .next (if vacancyForMe 4 f then openStore (.page 111) none (revoked f s) else revoked f s) := by
  show Host.Outcome.next (withFrame tyVacancy f s _) = _
  rw [withFrame_hears h hu, vacancy_use hu, storeRingPage_opens (s := (noteFrame f s).modRing _) hfr, revoked]
  split <;> rfl

theorem exec_full (h : Hears tyVacancy f s) (hu : s.ring.isHead = false) :
    exec (.full f) s =
      .next (if vacancyForMe 5 f then (noteFrame f s).modRing (fun r => { r with ringFull := true, backoff := 1000 }) else noteFrame f s) := by
  show Host.Outcome.next (withFrame tyVacancy f s _) = _
  rw [withFrame_hears h hu, vacancy_use hu]

/-- What GRANT, REVOKE and FULL write at a unit. -/
theorem vacancyIsTaken (h : Hears tyVacancy f s) (hu : s.ring.isHead = false) (hfr : s.hw.frozen = false) :
    (∃ u, exec (.grant f) s = .next (if vacancyForMe 3 f then openStore (.page 111) none u else u) ∧ u.firn = s.firn ∧
      u.ring.addr = s.ring.addr ∧ (vacancyForMe 3 f = true →
        u.ring.grantPend = some (BitVec.ofNat 6 (leAt f.payload 1 1), s.gridNs / 1000000) ∧ u.ring.mirrorDue = true) ∧
      (vacancyForMe 3 f = false → u.ring.grantPend = s.ring.grantPend)) ∧
    (∃ u, exec (.revoke f) s = .next (if vacancyForMe 4 f then openStore (.page 111) none u else u) ∧ u.firn = s.firn ∧
      u.ring.addr = (if vacancyForMe 4 f then 0 else s.ring.addr) ∧
      u.ring.grantPend = if vacancyForMe 4 f then none else s.ring.grantPend) ∧
    (∃ t, exec (.full f) s = .next t ∧ t.ring.addr = s.ring.addr ∧
      (vacancyForMe 5 f = true → t.ring.ringFull = true ∧ t.ring.backoff = 1000)) := by
  refine ⟨⟨granted f s, exec_grant h hu hfr, ?_⟩, ⟨revoked f s, exec_revoke h hu hfr, ?_⟩, ⟨_, exec_full h hu, ?_⟩⟩
  · unfold granted
    split
    next hv => exact ⟨rfl, rfl, fun _ => ⟨rfl, rfl⟩, fun hno => absurd (hv.symm.trans hno) (by decide)⟩
    next hv => exact ⟨rfl, rfl, fun hyes => absurd hyes hv, fun _ => rfl⟩
  · unfold revoked
    split <;> exact ⟨rfl, rfl, rfl⟩
  · split
    · exact ⟨rfl, fun _ => ⟨rfl, rfl⟩⟩
    next hv => exact ⟨rfl, fun hyes => absurd hyes hv⟩

/-- Settles O49: each clause is what one frame or timeout of the enumeration, the roster, the claims or the grants writes. -/
theorem ringAddressesAreAssigned : Obligations.RingAddressesAreAssigned := by
  unfold Obligations.RingAddressesAreAssigned
  refine ⟨fun s hon hh hst => ?_, fun f s h hk => enumIsTaken h hk, fun f i s hon hh hsrc => rosterFollows hon hh hsrc,
    fun sof s hon hsync hu ha hg => claimGoesOut sof hon hsync hu ha hg,
    fun f s hon hh hgood hty hme hk => claimIsDecided hon hh hgood hty hme hk rfl,
    fun s _ hu => exec_claimReceived_nil hu, fun f s h hu hfr => vacancyIsTaken h hu hfr⟩
  exact ⟨_, _, exec_enumSend hon hh hst, rfl, rfl, sendFrame_broadcast tyEnum (enumPayload s) none s⟩

end Sys2Proof.Machine
end
